-- ==== Sys2Proof/Word.lean ====
section
/-! DEFINITION. The word types of the module and the plainest arithmetic on them. -/

namespace Sys2Proof

/-- A register, a signal word or an engine word: 32 bits (00 R1 conventions, 21 R531). -/
abbrev Word := BitVec 32

/-- One byte. -/
abbrev Byte := BitVec 8

/-- A 64-bit quantity: CREF, Almanac time, an axis mask, a host address. -/
abbrev Dword := BitVec 64

/-- Bits `hi` down to `lo` of a word, as a number. -/
def bits (w : Word) (hi lo : Nat) : Nat := (w.toNat / 2 ^ lo) % 2 ^ (hi + 1 - lo)

/-- Bit `i` of a word. -/
def bit (w : Word) (i : Nat) : Bool := w.getLsbD i

/-- A Bool as bit `i` of a word. -/
def bitAt (i : Nat) (b : Bool) : Word := if b then BitVec.ofNat 32 (2 ^ i) else 0#32

/-- A number placed at bit `lo` of a word. -/
def fieldAt (lo : Nat) (v : Nat) : Word := BitVec.ofNat 32 (v * 2 ^ lo)

/-- Addition that stops at a largest value. -/
def satAdd (max a b : Nat) : Nat := Nat.min max (a + b)

/-- A mask of 64 axes with bit `i` set or cleared. -/
def setBit64 (m : Dword) (i : Nat) (v : Bool) : Dword :=
  if v then m ||| BitVec.ofNat 64 (2 ^ i) else m &&& ~~~ BitVec.ofNat 64 (2 ^ i)

/-- The low word of a 64-bit quantity. -/
def lo32 (d : Dword) : Word := d.setWidth 32

/-- The high word of a 64-bit quantity. -/
def hi32 (d : Dword) : Word := (d >>> 32).setWidth 32

/-- Two words as one 64-bit quantity, `hi` above `lo`. -/
def join64 (hi lo : Word) : Dword := hi ++ lo

/-- The least of two, lifted over Bool masks: a word with its `mask` bits taken from `v`. -/
def maskWrite (old v mask : Word) : Word := (old &&& ~~~ mask) ||| (v &&& mask)

end Sys2Proof
end

