-- ==== Sys2Proof/Syntax.lean ====
section
/-! DEFINITION. The commands of the block: one constructor of `Instr` for each row of
spec/opcode_table.json, with the operands that the row's rule gives it. Times are not operands:
an event happens at the instant the machine's own CREF and Almanac time show. What the outside
world supplies (a converted code, the bytes read from host memory, the verdict of a signature
check) is an operand. -/

namespace Sys2Proof

/-- Axis number, 0 to 63 (01 R8). -/
abbrev AxisId := Fin 64
/-- Bank number, 0 to 7. -/
abbrev BankId := Fin 8
/-- Engine number in a cluster, E0 to E15 (09 R246). -/
abbrev EngId := Fin 16
/-- CAN controller number. -/
abbrev CanId := Fin 4
/-- General register of a YEI core, g0 to g31 (09 R246). -/
abbrev GReg := Fin 32

/-- The bank of an axis (01, Dies and blocks). -/
def AxisId.bank (n : AxisId) : BankId := ⟨n.val / 8, by omega⟩

/-- The three phases of an axis. -/
inductive Phase where
  | a | b | c
  deriving DecidableEq, Repr

/-- The number of a phase in every three-bit field: A is bit 0. -/
def Phase.idx : Phase → Fin 3
  | .a => 0
  | .b => 1
  | .c => 2

/-- The six gates of an axis, in the order of the HSK field (02 R56). -/
inductive Gate where
  | gha | ghb | ghc | gla | glb | glc
  deriving DecidableEq, Repr

/-- The rails that Thimble checks (14 R401). -/
inductive Rail where
  | r12v | r5v | r3v3 | r1v8 | core
  deriving DecidableEq, Repr

/-- The clock sources that Thimble times (15 R429), and the PCI Express reference clock CKH, which CLK_STATUS shows
(01 R13, R17). -/
inductive ClockSrc where
  | xtal | plle | pllp | plln | dll | ckh
  | ckl (b : BankId)
  deriving DecidableEq, Repr

/-- A configuration request (11 R305, R307, R308): a read of a dword of configuration space, the power-management write
that puts the function in D3hot or back in D0, a write of MSI-X Enable and Function Mask, or of one of the BAR registers 0 to
3. -/
inductive CfgReq where
  | read (offset : BitVec 12)
  | power (d3hot : Bool)
  | msix (enable mask : Bool)
  | bar (i : Fin 4) (value : Word)
  deriving DecidableEq, Repr

/-- One of the two safe-torque-off channels of a bank. -/
inductive StoCh where
  | chA | chB
  deriving DecidableEq, Repr

/-- A generator event (04 R105). -/
inductive PwmEv where
  | zero | peak | cmpA | cmpB | cmpC | trg0 | trg1
  deriving DecidableEq, Repr

/-- A sample-trigger pulse (03 R67). -/
inductive PulseKind where
  | mark | boundarySample | midHalf
  deriving DecidableEq, Repr

/-- Who reads a register pair (10 R300). -/
inductive Requester where
  | host | supervisor | jtag
  deriving DecidableEq, Repr

/-- Where a descriptor came from: a submission ring or a CAN tunnel (11 R310, 12 R356). -/
inductive RingSrc where
  | sq (q : Fin 64)
  | tun (c : CanId)
  deriving DecidableEq, Repr

/-- The header of a descriptor (11 R317). -/
structure DescHdr where
  src : RingSrc
  flags : BitVec 8 := 0
  tag : BitVec 16 := 0
  timeoutUs : Word := 0
  time : Dword := 0
  /-- The host-address operand of a descriptor that reads its data from host memory or its tunnel window: ADDR,
  ENTRY_ADDR, IMG_ADDR, LIST_ADDR, DATA_ADDR or TX_ADDR. -/
  dataAddr : Dword := 0
  deriving DecidableEq, Repr

/-- Fitting kinds (08 R219). -/
inductive FitKind where
  | motorId | inertia | ripple | resonance
  deriving DecidableEq, Repr

/-- The operands that the four FITTING descriptors share (08 R219). -/
structure FitOp where
  commit : Bool := false
  cross : Bool := false
  almHoldover : BitVec 16 := 0
  axes : Dword := 0
  iTest : Word := 0
  fitSpd : Word := 0
  travelMax : Word := 0
  len : Word := 0
  setId : Word := 0
  deriving DecidableEq, Repr

/-- What the SFDP table of the flash declares, as the boot ROM reads it (13 R374). -/
structure SfdpInfo where
  sizeLog2 : Nat := 24
  mode114 : Bool := false
  mode144 : Bool := false
  addr4 : Bool := false
  dummy : BitVec 4 := 0
  suspend : Bool := false
  deriving DecidableEq, Repr

/-- What the boot ROM finds outside the control die at one run (13 R374, 17 R472): the strapping
pins, the reference clock, the flash table, and the verdicts of the cryptographic and identity
checks that the rules name. -/
structure BootIn where
  boot1 : Bool := false
  boot0 : Bool := false
  refclk : Bool := true
  sfdp : Option SfdpInfo := none
  /-- Marker words of burnt pairs were brought to burnt (16 R444). -/
  markersBurn : Bool := true
  /-- Every signature present in the header of bank (kind, bank) verifies (17 R469). -/
  sigOk : List (Nat × Nat) := []
  /-- The flash gives the payload of bank (kind, bank) back as it was written (17 R470). -/
  readOk : List (Nat × Nat) := []
  deriving DecidableEq, Repr

/-- What the supervisor finds when it applies the settings (17 R483, R484). -/
structure ReadyIn where
  /-- A migration step accepted its input at every format. -/
  migrateOk : Bool := true
  /-- The settings ask for GDR_LOCK on these banks. -/
  lockBanks : BitVec 8 := 0
  lockFlt : Bool := false
  lockTly : Bool := false
  /-- The settings ask for these bits of OTP_LOCK. -/
  lockOtp : BitVec 7 := 0
  deriving DecidableEq, Repr

/-- What a driver die measures for one STATUS frame (03 R75): the gate-level comparators, the bootstrap
voltages below 8.2 V, the phase voltages, and VDRVb in units of 50 mV. -/
structure StatusMeas where
  gateHi : BitVec 6 := 0
  bstEw : BitVec 3 := 0
  vphA : BitVec 12 := 0
  vphB : BitVec 12 := 0
  vphC : BitVec 12 := 0
  vdrv : BitVec 8 := 0
  deriving DecidableEq, Repr

/-- An input of the feedback interface, SYNCIN or a GP ball, behind its synchroniser: its level, and the consecutive cp for which
it has stood there (05 R134, 12 R368, 13 R394). -/
structure Pin where
  level : Bool
  held : Nat
  deriving DecidableEq, Repr

/-- Three signed quantities, one per phase. -/
structure Tri where
  a : Int := 0
  b : Int := 0
  c : Int := 0
  deriving DecidableEq, Repr

/-- The Hem sources as a zero finds them (04 R115): the phases whose Hem comparator is above its threshold, bit 0 phase
A, and for how many cp TRIPb has been high, 0 where it is low (02 R59, 04 R116). -/
structure HemLive where
  comparator : BitVec 3 := 0#3
  tripCp : Nat := 0
  deriving DecidableEq, Repr

/-- One entry of a Seam (10 R284). -/
structure SeamEntry where
  kind : BitVec 8
  op : BitVec 8 := 0
  addr : Word
  value : Word
  mask : Word := 0xFFFFFFFF#32
  deriving DecidableEq, Repr

/-- A CAN frame (12 R344, R352). -/
structure CanFrame where
  ide : Bool := false
  fdf : Bool := false
  brs : Bool := false
  rtr : Bool := false
  esi : Bool := false
  id : BitVec 29
  data : List Byte := []
  deriving DecidableEq, Repr

/-- The die whose temperature sensors are read (03 R77, 14 R414). -/
inductive Die where
  | driver (b : BankId)
  | control
  deriving DecidableEq, Repr

/-- A memory that a SECDED error can strike (09 R255). -/
inductive EccArea where
  | imem | dmem | vendorCtm | openCtm
  deriving DecidableEq, Repr

/-- The debug targets behind the TAP (16 R458). -/
inductive DbgTarget where
  | idcode
  /-- The supervisor's cores; the access leaves them halted, or running. -/
  | supervisor (halt : Bool)
  | engine (n : AxisId) (j : EngId)
  | enclave
  | register (offset : Nat)
  deriving DecidableEq, Repr

/-- A mailbox post on its way (09 R265): the oldest of an engine for a cluster, or one of the supervisor with its
target and payload. -/
inductive PostSrc where
  | engine (n : AxisId) (j : EngId) (to_ : AxisId)
  | supervisor (to_ : AxisId) (j : EngId) (payload : Word)
  deriving DecidableEq, Repr

/-- An image header, as R467 lays it out, after the fields that only the cryptography reads have
been reduced to verdicts. -/
structure ImgHeader where
  magicOk : Bool := true
  hfmt : BitVec 16 := 1
  kind : BitVec 8
  atRest : Bool := false
  major : BitVec 8 := 0
  minor : BitVec 8 := 0
  patch : BitVec 8 := 0
  build : Word := 0
  hwMin : BitVec 8 := 1
  hwMax : BitVec 8 := 1
  offerE : BitVec 8 := 0
  accEMin : BitVec 8 := 0
  accEMax : BitVec 8 := 0
  offerN : BitVec 8 := 0
  accNMin : BitVec 8 := 0
  accNMax : BitVec 8 := 0
  setFmt : BitVec 16 := 0
  minGenV : BitVec 8 := 0
  minGenO : BitVec 8 := 0
  revoke : BitVec 8 := 0
  slotGen : Dword := 0
  payloadLen : Word := 0
  payloadHash : BitVec 384 := 0
  /-- Signature entries: (class, slot); class 0 is absent (17 R468). -/
  sig0 : BitVec 8 × BitVec 8 := (0, 0)
  sig1 : BitVec 8 × BitVec 8 := (0, 0)
  /-- PUBKEY of the entry hashes to this value; the slot's HASH must equal it. -/
  keyHash0 : BitVec 384 := 0
  keyHash1 : BitVec 384 := 0
  transit : Bool := false
  /-- IMG_NONCE and EPH_KEY (17 R474). -/
  nonce : Dword := 0
  ephKey : List Byte := []
  reservedZero : Bool := true
  blockCrcs : List Word := []
  deriving DecidableEq, Repr

/-- A settings block, as R482 lays out its header. -/
structure SettingsBlock where
  magicCyst : Bool := true
  magicCy08 : Bool := false
  crcOk : Bool := true
  format : BitVec 16 := 1
  sliceFmt : BitVec 16 := 0
  seq : Word := 0
  trial : Word := 0
  sliceLen : Word := 0
  payload : List Byte := []
  deriving DecidableEq, Repr

/-- The commands. Each constructor is one row of spec/opcode_table.json. -/
inductive Instr where
  -- descriptors (11 R321); the other commands follow chapter by chapter
  | motorId (h : DescHdr) (op : FitOp)
  | inertia (h : DescHdr) (op : FitOp)
  | ripple (h : DescHdr) (op : FitOp)
  | resonance (h : DescHdr) (op : FitOp)
  | patternCommit (h : DescHdr) (select axis kind : BitVec 8) (setId : Word) (bad : Dword)
  | patternCommitCtm (h : DescHdr) (axis kind : BitVec 8) (bad : Dword)
  | patternDiscard (h : DescHdr) (select axis kind : BitVec 8) (setId : Word)
  | patternWrite (h : DescHdr) (len : Word) (data : List Byte)
  | patternRead (h : DescHdr) (axis kind which : BitVec 8) (addr : Dword) (maxLen : Word)
  | coordRoleSet (h : DescHdr) (axis : BitVec 8)
  | coordRoleClear (h : DescHdr) (axis : BitVec 8)
  | lensMap (h : DescHdr) (axis : BitVec 8) (len : Word) (table : List Byte)
  | engineLoad (h : DescHdr) (axis engine : BitVec 8) (budget imgLen imgCrc : Word) (image : List Byte)
  | engineStop (h : DescHdr) (axis engine : BitVec 8)
  | seamOpen (h : DescHdr) (axes : Dword) (flags : BitVec 8)
  | seamAdd (h : DescHdr) (handle nEntries : BitVec 16) (entryCrc : Word) (bytes : List Byte)
  | seamArm (h : DescHdr) (handle : BitVec 16) (point armFlags refAxis : BitVec 8) (at_ deferStep : Dword)
  | seamCancel (h : DescHdr) (handle : BitVec 16)
  | snapshot (h : DescHdr) (trigger event ref cnt : BitVec 8) (handle : BitVec 16) (at_ : Dword)
      (list : List Word) (dest : Dword)
  | badDescriptor (h : DescHdr) (opcode : BitVec 8)
  | nop (h : DescHdr)
  | heartbeat (h : DescHdr)
  | axisStateHold (h : DescHdr) (axes : Dword)
  | axisStateRun (h : DescHdr) (axes : Dword)
  | axisMode (h : DescHdr) (axes : Dword) (mode reduced : BitVec 8)
  | axisProfile (h : DescHdr) (axis record : BitVec 8) (crc : Word) (bytes : List Byte)
  | signalWrite (h : DescHdr) (entries : List (Word × Word))
  | signalPulse (h : DescHdr) (addr on off : Word) (stop : Dword)
  | segmentPush (h : DescHdr) (axis : BitVec 8) (seg : List Byte)
  | segmentFlush (h : DescHdr) (axes : Dword)
  | faultClear (h : DescHdr) (axes : Dword) (banks scopeFlags : BitVec 8)
  | telOpen (h : DescHdr) (stream cnt event ref : BitVec 8) (decim : BitVec 16) (vector : BitVec 8)
      (list : List Word) (ringAddr : Dword) (ringSize listCrc watermark : Word)
  | telClose (h : DescHdr) (stream : BitVec 8)
  | imageBegin (h : DescHdr) (kind : BitVec 8) (hdrLen hdrCrc : Word) (data : List Byte)
      (sigOk : Bool)
  | imageBlock (h : DescHdr) (kind : BitVec 8) (index : BitVec 16) (len : Word) (data : List Byte)
      (gcmOk readBackOk : Bool)
  | imageEnd (h : DescHdr) (kind : BitVec 8) (readOk : Bool)
  | imageAbandon (h : DescHdr) (kind : BitVec 8)
  | imageActivate (h : DescHdr) (kinds : BitVec 8) (sigOk readOk : Bool)
  | imageConfirm (h : DescHdr) (burnFails : Option (BitVec 11))
  | settingsWrite (h : DescHdr) (len : Word) (data : List Byte)
  | settingsRelease (h : DescHdr)
  | settingsRead (h : DescHdr) (which : BitVec 8) (addr : Dword) (maxLen : Word)
  | otpRead (h : DescHdr) (word count : BitVec 16) (dest : Dword)
  | otpProgram (h : DescHdr) (word count : BitVec 16) (crc : Word) (src : List Word)
      (burnFails : Option Nat)
  | lifecycle (h : DescHdr) (target confirm : BitVec 8) (token : List Byte) (sigOk : Bool)
  | report (h : DescHdr) (addr : Dword) (nonce : BitVec 256)
  | keygen (h : DescHdr) (addr : Dword)
  | certInstall (h : DescHdr) (len : BitVec 16) (cert : List Byte) (key : List Byte)
  | certRead (h : DescHdr) (addr : Dword)
  | challenge (h : DescHdr) (addr : Dword)
  | debugTokenOpen (h : DescHdr) (token : List Byte) (sigOk : Bool)
  | debugTokenClose (h : DescHdr)
  | tallyRead (h : DescHdr) (kind : BitVec 8) (count : BitVec 16) (firstSeq : Word) (addr : Dword)
  | wallTimeSet (h : DescHdr) (time : Dword)
  | canSend (h : DescHdr) (chan frameFlags len : BitVec 8) (id : Word) (data : List Byte)
  | spSchedule (h : DescHdr) (port slot sel trig ref format shift width : BitVec 8) (len : BitVec 16)
      (dest : Word) (tx : Dword) (chkMask chkVal : Word)
  | spTransfer (h : DescHdr) (port sel : BitVec 8) (len : BitVec 16) (tx : List Byte) (rxAddr : Dword)
  -- supply, start-up and resets (14, 15)
  | powerOn (selfTestOk : Bool)
  | railsGood (inp : BootIn)
  | supervisorReady (inp : ReadyIn)
  | resetN
  | vinUv
  | vinUvRecover
  | powerLoss
  | graveClear
  /-- `above`: VINS rises through 82 V; else it falls through 81.0 V, where the warning ends. -/
  | vinOvWarn (above : Bool)
  | rbReverse
  | rbSwitchOn
  | railFault (r : Rail)
  | vcoreLowReset
  | clockLoss (c : ClockSrc)
  | lockstepMismatch
  | supWatchdog
  | supEcc
  | supervisorRestart
  -- bank enables and gate drive (02, 15)
  | enbFall (b : BankId)
  | enbRise (b : BankId) (lowNs : Nat)
  | stoFall (b : BankId) (ch : StoCh)
  | stoRise (b : BankId) (ch : StoCh)
  | stoDiscrepancy (b : BankId)
  | tripHem (n : AxisId) (heldCp : Nat)
  | vdrvUv (b : BankId) (above : Bool)
  | gateCommandRise (n : AxisId) (g : Gate)
  | gateTurnOn (n : AxisId) (g : Gate)
  | gateCommandFall (n : AxisId) (g : Gate)
  | gateHandshake (n : AxisId) (g : Gate)
  | blankingEnd (n : AxisId) (g : Gate)
  | vdsHigh (n : AxisId) (p : Phase)
  | vdsLow (n : AxisId) (p : Phase)
  | softStepEnd (n : AxisId)
  | bstOkSet (n : AxisId) (p : Phase)
  | bstOkClear (n : AxisId) (p : Phase)
  | bootstrapEarlyWarning (n : AxisId) (p : Phase)
  | cmpBlankEnd (n : AxisId) (p : Phase)
  | hemComparator (n : AxisId) (p : Phase)
  | overcurrentHard (n : AxisId) (p : Phase)
  | downlinkWriteApplied (b : BankId)
  -- sensing (03)
  | sampleTriggerRise (n : AxisId) (k : PulseKind)
  | samplePulse (n : AxisId) (widthNs : Nat) (vs vph : Tri)
  | conversionComplete (n : AxisId) (codes : Tri)
  | statusFrameDue (n : AxisId) (m : StatusMeas)
  | sampleFrame (n : AxisId) (err : BitVec 128)
  | integralFrame (n : AxisId) (err : BitVec 128)
  | statusFrame (n : AxisId) (crcOk : Bool)
  | boundaryMissing (n : AxisId)
  | bankLink (b : BankId)
  | calibrationTick (n : AxisId)
  | calReq (n : AxisId)
  | calibrationComplete (n : AxisId)
  | vinSample (b : BankId) (code : BitVec 12)
  | maxonCutoff (b : BankId)
  | minoffEnd (b : BankId)
  | brkTestPulse (b : BankId)
  | testPulseEnd (b : BankId)
  | tempSample (d : Die) (t0 t1 t2 t3 : BitVec 16)
  | ntcConversion (i : Fin 16) (code : BitVec 12)
  -- pulse-width generator (04)
  | counterStart (n : AxisId)
  | zero (n : AxisId) (live : HemLive)
  | peak (n : AxisId)
  | cmpEvent (n : AxisId) (p : Phase) (up : Bool)
  | trgEvent (n : AxisId) (k : Fin 2)
  | slipEnd (n : AxisId)
  | refreshEnd (n : AxisId) (p : Phase)
  | chargeFail (n : AxisId)
  | debugHalt (n : AxisId) (j : EngId)
  | dbgHoldEnd (n : AxisId)
  | debugResume (n : AxisId)
  -- feedback (05)
  | countingEdge (n : AxisId) (a b : Pin)
  | hallCodeChange (n : AxisId) (u v w : Pin)
  | indexEvent (n : AxisId) (i : Pin)
  | auxCapture (n : AxisId) (x : Pin)
  /-- `qb` lists the levels of QB during the frame as cp from the trigger edge and the level from then on. -/
  | ssiFrameEnd (n : AxisId) (qb : List (Nat × Bool))
  | leakTick (n : AxisId)
  | hallInvalidTimeout (n : AxisId)
  | preset (n : AxisId)
  | idxArm (n : AxisId)
  -- control chain (06, 07)
  | sampleConditioning (n : AxisId)
  | currentStep (n : AxisId)
  | feedbackPlaus (n : AxisId)
  | wordSourceTimeout (n : AxisId)
  | speedStep (n : AxisId)
  | positionStep (n : AxisId)
  | alignmentEnd (n : AxisId)
  | startAttemptFail (n : AxisId)
  | retryWaitEnd (n : AxisId)
  | stall (n : AxisId)
  | stopEnd (n : AxisId)
  | tachLoss (n : AxisId)
  | govTick
  | govMaskStale
  | hardBrakeEnd
  -- Fittings, Patterns and coordination (08)
  | fittingStart (src : RingSrc) (tag : BitVec 16)
  /-- `bad` names the axes whose committed Pattern fails its read-back. -/
  | sweepComplete (src : RingSrc) (tag : BitVec 16) (bad : Dword)
  | almHoldoverExpiry (src : RingSrc) (tag : BitVec 16)
  -- YEI instructions (09 R250); n, j name the engine that issues
  | add (n : AxisId) (j : EngId) (d a b : GReg)
  | sub (n : AxisId) (j : EngId) (d a b : GReg)
  | and (n : AxisId) (j : EngId) (d a b : GReg)
  | or (n : AxisId) (j : EngId) (d a b : GReg)
  | xor (n : AxisId) (j : EngId) (d a b : GReg)
  | shl (n : AxisId) (j : EngId) (d a b : GReg)
  | shr (n : AxisId) (j : EngId) (d a b : GReg)
  | sra (n : AxisId) (j : EngId) (d a b : GReg)
  | mul (n : AxisId) (j : EngId) (d a b : GReg)
  | mulh (n : AxisId) (j : EngId) (d a b : GReg)
  | div (n : AxisId) (j : EngId) (d a b : GReg)
  | min (n : AxisId) (j : EngId) (d a b : GReg)
  | max (n : AxisId) (j : EngId) (d a b : GReg)
  | cmp (n : AxisId) (j : EngId) (a b : GReg)
  | qadd (n : AxisId) (j : EngId) (d a b : GReg)
  | qsub (n : AxisId) (j : EngId) (d a b : GReg)
  | qmul (n : AxisId) (j : EngId) (d a b : GReg)
  | qmac (n : AxisId) (j : EngId) (d a b : GReg)
  | qneg (n : AxisId) (j : EngId) (d a : GReg)
  | qabs (n : AxisId) (j : EngId) (d a : GReg)
  | qshl (n : AxisId) (j : EngId) (d a b : GReg)
  | fadd (n : AxisId) (j : EngId) (d a b : GReg)
  | fsub (n : AxisId) (j : EngId) (d a b : GReg)
  | fmul (n : AxisId) (j : EngId) (d a b : GReg)
  | fma (n : AxisId) (j : EngId) (d a b : GReg)
  | fdiv (n : AxisId) (j : EngId) (d a b : GReg)
  | fsqrt (n : AxisId) (j : EngId) (d a : GReg)
  | fmin (n : AxisId) (j : EngId) (d a b : GReg)
  | fmax (n : AxisId) (j : EngId) (d a b : GReg)
  | fabs (n : AxisId) (j : EngId) (d a : GReg)
  | fneg (n : AxisId) (j : EngId) (d a : GReg)
  | fcmp (n : AxisId) (j : EngId) (a b : GReg)
  | itof (n : AxisId) (j : EngId) (d a : GReg)
  | ftoi (n : AxisId) (j : EngId) (d a : GReg)
  | qtof (n : AxisId) (j : EngId) (d a : GReg)
  | ftoq (n : AxisId) (j : EngId) (d a : GReg)
  | tsin (n : AxisId) (j : EngId) (d a : GReg)
  | tcos (n : AxisId) (j : EngId) (d a : GReg)
  | tatan (n : AxisId) (j : EngId) (d a b : GReg)
  | addi (n : AxisId) (j : EngId) (d a : GReg) (imm : BitVec 16)
  | andi (n : AxisId) (j : EngId) (d a : GReg) (imm : BitVec 16)
  | ori (n : AxisId) (j : EngId) (d a : GReg) (imm : BitVec 16)
  | xori (n : AxisId) (j : EngId) (d a : GReg) (imm : BitVec 16)
  | lui (n : AxisId) (j : EngId) (d : GReg) (imm : BitVec 16)
  | shi (n : AxisId) (j : EngId) (d a : GReg) (imm : BitVec 16)
  | cmpi (n : AxisId) (j : EngId) (a : GReg) (imm : BitVec 16)
  | ld (n : AxisId) (j : EngId) (d a : GReg) (imm : BitVec 16)
  | ld2 (n : AxisId) (j : EngId) (d a : GReg) (imm : BitVec 16)
  | st (n : AxisId) (j : EngId) (d a : GReg) (imm : BitVec 16)
  | st2 (n : AxisId) (j : EngId) (d a : GReg) (imm : BitVec 16)
  | b (n : AxisId) (j : EngId) (cond : Fin 32) (imm : BitVec 16)
  | call (n : AxisId) (j : EngId) (target : BitVec 26)
  | jr (n : AxisId) (j : EngId) (a : GReg)
  | waitev (n : AxisId) (j : EngId) (d a : GReg)
  | waitevReturn (n : AxisId) (j : EngId)
  | post (n : AxisId) (j : EngId) (a b : GReg)
  | mboxPostArrival (p : PostSrc)
  | fence (n : AxisId) (j : EngId)
  | brk (n : AxisId) (j : EngId)
  | csrr (n : AxisId) (j : EngId) (d : GReg) (csr : BitVec 8)
  | csrw (n : AxisId) (j : EngId) (a : GReg) (csr : BitVec 8)
  | illegalInstruction (n : AxisId) (j : EngId)
  /-- `to_`: the cluster that the store goes to. -/
  | postedStoreArrival (n : AxisId) (j : EngId) (to_ : AxisId)
  | fabricLoadReturn (n : AxisId) (j : EngId)
  | deadline (n : AxisId) (j : EngId)
  | wedge (n : AxisId) (j : EngId)
  /-- `corr`: a single-bit error, which is corrected. -/
  | engineEcc (n : AxisId) (j : EngId) (area : EccArea) (corr : Bool)
  | clusterRecoveryComplete (n : AxisId)
  -- Seams and snapshots (10)
  | stagingStart (slot : Fin 64)
  | stagingComplete (slot : Fin 64)
  | seamDecision (slot : Fin 64)
  | seamCommit (slot : Fin 64)
  | seamEpoch (slot : Fin 64)
  | seamRetire (slot : Fin 64)
  | snapshotCapture (src : RingSrc) (tag : BitVec 16)
  -- host link, rings and telemetry (11)
  | configRequest (r : CfgReq)
  | perstNAssert
  | perstNRelease
  | functionLevelReset
  | bar2Write (offset : Nat) (value : Word)
  | ringEnable (cq : Bool) (q : Fin 64) (cfg : Word)
  | ringDisable (q : Fin 64)
  | sqDoorbell (q : Fin 64) (value : Word)
  /-- `desc`: the 64 bytes read; `ok`: the read succeeded. -/
  | descriptorFetch (ok : Bool) (desc : List Byte)
  | cqHeadDoorbell (c : Fin 16) (value : Word)
  | completionWrite
  | descriptorTimeout (src : RingSrc) (tag : BitVec 16)
  | timedStart (src : RingSrc) (tag : BitVec 16)
  | pulseStopEdge (src : RingSrc) (tag : BitVec 16)
  | haltAll (arg : BitVec 8)
  | haltBank (arg : BitVec 8)
  | safeAxis (arg : BitVec 8)
  | badUrgentCommand (data : Word)
  | hbDoorbell
  | hostLoss
  | telSample (i : Fin 32)
  | telRpWrite (i : Fin 32) (value : Word)
  -- images, settings and trial (17)
  | activateRestart
  | trialReadyTimeout
  | trialConfirmTimeout
  | trialRevertRestart
  -- OTP, life-cycle, attestation and debug (16)
  | jtagAccess (t : DbgTarget)
  | extestSelect (on : Bool)
  | keepAlive (axes : Dword)
  | otpLockWrite (value : Word)
  -- Tally (18)
  | periodClose (readBackOk : Bool)
  | checkpoint (readBackOk : Bool)
  -- CAN and Almanac (12)
  | canEnable (c : CanId) (ctrl : Word)
  | canFrameSent (c : CanId) (id : Nat) (tdcv : BitVec 7) (age : Nat)
  | canTxRetry (c : CanId) (id : Nat) (error : Bool) (age : Nat)
  | canFrameReceived (c : CanId) (f : CanFrame) (age : Nat)
  | canRxRpWrite (c : CanId) (value : Word)
  | busOff (c : CanId)
  | canRecover (c : CanId)
  | busOffRecovered (c : CanId)
  | tunnelUrgent (c : CanId) (f : CanFrame)
  | tunnelDescriptor (c : CanId) (f : CanFrame)
  | tunnelWindowData (c : CanId) (f : CanFrame)
  | almReferenceDue
  | almReferenceReceived (f : CanFrame) (age : Nat)
  | almReferenceMissed
  | almLost
  | almRoleWrite (ctrl : Word)
  | almSet
  | syncZero
  | syncZeroApply
  | syncinEdge (p : Pin)
  | frameLockTimeout
  | syncoutPulse
  | syncoutPulseEnd
  -- serial ports and GP (13)
  | scheduleTrigger (p : Fin 8) (k : Fin 8)
  | portTransferStart (p : Fin 8)
  | portTransferEnd (p : Fin 8) (rx : List Bool)
  | spsSelectFall
  | spsSelectRise (words : List Word) (shortBits : Nat) (short : Word) (clocked : Nat)
  | spsEnable (cfg : Word)
  | gpInputChange (i : Fin 32) (p : Pin)
  | gpPulseEnd (i : Fin 32)
  | gpOutWrite (value : Word)
  | gpSet (value : Word)
  | gpClr (value : Word)
  -- power states, domains and fan (14)
  | reqRun
  | reqDoze
  | reqSleep
  | powerStateEntryComplete
  | wakeComplete
  | wakeN
  | canWake (c : CanId)
  | wakeTimer
  | wakeNDriveEnd
  | pdReqWrite (which : Fin 3) (value : Word)
  | domainPowerUpComplete (d : Fin 80)
  | fanTachEdge
  | fanWindowExpiry
  | fanKickEnd
  | fanTachTimeout
  | fanFailClear
  -- faults and self-tests (15)
  | faultReaction
  | mergeWindowClose
  | escWindowClose (src : Fin 1536)
  | onlineSelftest (thimbleOk supEccOk : Bool) (axesBad : Dword)
  | holdSelftest (b : BankId) (pass : Bool)
  | selftestDue
  | faultInject (value : Word)
  | gdrLockSet (b : BankId)
  | cmpLockSet (n : AxisId)
  | fltLockSet
  | tlyLockSet
  -- register access (10, 21)
  | readClear (offset : Nat) (byteEn : BitVec 4)
  | pairLoRead (who : Requester) (offset : Nat)
  | registerWrite (offset : Nat) (byteEn : BitVec 4) (value : Word)
  -- recoveries added to the table
  | clockRelock (c : ClockSrc)
  | railRecover (r : Rail)
  | enclaveFault
  | canRxError (c : CanId) (recAdd : BitVec 8)
  deriving DecidableEq, Repr

end Sys2Proof
end

