-- ==== Sys2Proof/Decode.lean ====
section
/-! DEFINITION. The decoders. spec/opcode_table.json gives no row any bits: the commands of this block are
not words of one encoding but bus requests, pin events and descriptors, which the constructors of `Instr`
carry field by field. The programs of the engines do have an encoding, formats A, I and J of 09 R249 and
R250, and an engine issues what its instruction SRAM holds. -/

namespace Sys2Proof

/-- The command that a word spells by the table's bits: none, since no row of the table gives bits. -/
def decodeTableWord (_nbits _w : Nat) : Option Instr := none

/-! The YEI encoding (09 R249, R250). A field that an instruction does not use may hold anything (DEDUCED, log
entry 139). -/

/-- The register fields d, a and b, and the immediate. -/
def yeiD (w : Word) : GReg := Fin.ofNat 32 (bits w 25 21)
def yeiA (w : Word) : GReg := Fin.ofNat 32 (bits w 20 16)
def yeiB (w : Word) : GReg := Fin.ofNat 32 (bits w 15 11)
def yeiImm (w : Word) : BitVec 16 := w.setWidth 16

/-- op 0x00: integer arithmetic, by sub. -/
def yeiInt (n : AxisId) (j : EngId) (w : Word) : Option Instr :=
  let d := yeiD w
  let a := yeiA w
  let b := yeiB w
  match bits w 10 0 with
  | 0x000 => some (.add n j d a b)
  | 0x001 => some (.sub n j d a b)
  | 0x002 => some (.and n j d a b)
  | 0x003 => some (.or n j d a b)
  | 0x004 => some (.xor n j d a b)
  | 0x005 => some (.shl n j d a b)
  | 0x006 => some (.shr n j d a b)
  | 0x007 => some (.sra n j d a b)
  | 0x008 => some (.mul n j d a b)
  | 0x009 => some (.mulh n j d a b)
  | 0x00A => some (.div n j d a b)
  | 0x00B => some (.min n j d a b)
  | 0x00C => some (.max n j d a b)
  | 0x00D => some (.cmp n j a b)
  | _ => none

/-- op 0x01: Q31 arithmetic, by sub. -/
def yeiQ31 (n : AxisId) (j : EngId) (w : Word) : Option Instr :=
  let d := yeiD w
  let a := yeiA w
  let b := yeiB w
  match bits w 10 0 with
  | 0x000 => some (.qadd n j d a b)
  | 0x001 => some (.qsub n j d a b)
  | 0x002 => some (.qmul n j d a b)
  | 0x003 => some (.qmac n j d a b)
  | 0x004 => some (.qneg n j d a)
  | 0x005 => some (.qabs n j d a)
  | 0x006 => some (.qshl n j d a b)
  | _ => none

/-- op 0x02: binary32, conversions and angles, by sub. -/
def yeiFloat (n : AxisId) (j : EngId) (w : Word) : Option Instr :=
  let d := yeiD w
  let a := yeiA w
  let b := yeiB w
  match bits w 10 0 with
  | 0x000 => some (.fadd n j d a b)
  | 0x001 => some (.fsub n j d a b)
  | 0x002 => some (.fmul n j d a b)
  | 0x003 => some (.fma n j d a b)
  | 0x004 => some (.fdiv n j d a b)
  | 0x005 => some (.fsqrt n j d a)
  | 0x006 => some (.fmin n j d a b)
  | 0x007 => some (.fmax n j d a b)
  | 0x008 => some (.fabs n j d a)
  | 0x009 => some (.fneg n j d a)
  | 0x00A => some (.fcmp n j a b)
  | 0x00B => some (.itof n j d a)
  | 0x00C => some (.ftoi n j d a)
  | 0x00D => some (.qtof n j d a)
  | 0x00E => some (.ftoq n j d a)
  | 0x010 => some (.tsin n j d a)
  | 0x011 => some (.tcos n j d a)
  | 0x012 => some (.tatan n j d a b)
  | _ => none

/-- op 0x20: events, posts, fences and breakpoints, by sub. -/
def yeiEvent (n : AxisId) (j : EngId) (w : Word) : Option Instr :=
  match bits w 10 0 with
  | 0x000 => some (.waitev n j (yeiD w) (yeiA w))
  | 0x001 => some (.post n j (yeiA w) (yeiB w))
  | 0x002 => some (.fence n j)
  | 0x003 => some (.brk n j)
  | _ => none

/-- The instruction that a word spells for engine j of cluster n; none where op or sub is not in the table. -/
def yeiDecode (n : AxisId) (j : EngId) (w : Word) : Option Instr :=
  let d := yeiD w
  let a := yeiA w
  let imm := yeiImm w
  match bits w 31 26 with
  | 0x00 => yeiInt n j w
  | 0x01 => yeiQ31 n j w
  | 0x02 => yeiFloat n j w
  | 0x08 => some (.addi n j d a imm)
  | 0x09 => some (.andi n j d a imm)
  | 0x0A => some (.ori n j d a imm)
  | 0x0B => some (.xori n j d a imm)
  | 0x0C => some (.lui n j d imm)
  | 0x0D => some (.shi n j d a imm)
  | 0x0E => some (.cmpi n j a imm)
  | 0x10 => some (.ld n j d a imm)
  | 0x11 => some (.ld2 n j d a imm)
  | 0x12 => some (.st n j d a imm)
  | 0x13 => some (.st2 n j d a imm)
  | 0x18 => some (.b n j d imm)
  | 0x19 => some (.call n j (w.setWidth 26))
  | 0x1A => if bits w 10 0 = 0 then some (.jr n j a) else none
  | 0x20 => yeiEvent n j w
  | 0x21 => some (.csrr n j d (w.setWidth 8))
  | 0x22 => some (.csrw n j a (w.setWidth 8))
  | _ => none

end Sys2Proof
end

