-- ==== Sys2Proof/Config.lean ====
section
/-! DEFINITION. What an implementation fixes and the free values. Every constant here is opaque: no
proof can see its value, so a claim about it holds whatever the hardware does. The Nat argument of
the `free` constants is the counter `State.freeCtr`, read and advanced at each use (log entry 3). -/

namespace Sys2Proof.Config

/-- A free 32-bit value: a result the spec leaves open. -/
opaque freeWord : Nat → Word
/-- A free 64-bit value. -/
opaque freeDword : Nat → Dword
/-- A free 256-bit value: a nonce (16 R459). -/
opaque freeNonce : Nat → BitVec 256
/-- A free choice between two results that the spec allows. -/
opaque freeBool : Nat → Bool
/-- Free bytes of a given length: a signature, a key, a report (16 R455 to R457, 18 R499). -/
opaque freeBytes : Nat → Nat → List Byte

/-- Where in configuration space the PCI Express, Power Management and MSI-X capabilities stand (11 R305). -/
opaque capAt : Fin 3 → BitVec 12

/-- The deadline budget that the chain image sets for vendor engine j, less 1 (09 R266). -/
opaque vendorBudget : Nat → Nat
/-- How long a vendor stage's activation lasts in ce, by engine 16n + j and by its number ACT (09 R279). -/
opaque stageLen : Nat → Word → Word

/-- AES-256-XTS of a 4 KiB data unit under the device storage key, which no one can read, with the unit's number as its tweak: what
a stored unit opens to (13 R377). -/
opaque xtsOpen : Nat → List Byte → List Byte
/-- A block as it travels under the transit key of an image, which IMG_NONCE, EPH_KEY and the device's identity key make, opened with
AES-256-GCM at its index (17 R474). -/
opaque gcmOpen : BitVec 64 → List (BitVec 8) → Nat → List (BitVec 8) → List (BitVec 8)
/-- r25 in ohms and beta in kelvin of NTC input i; they come from the settings, whose place the spec does not give (14
R415). -/
opaque ntcR25 : Nat → Rat
opaque ntcBeta : Nat → Rat
/-- Words that R268 has the supervisor reload and whose stored values the spec does not place. -/
opaque settingsWord : Nat → Word

/-- The supervisor's image declares a handler for the slave port (13 R390). -/
opaque spsHandler : Bool

/-- A readable settings block gives CAN settings for SERVICE mode (17 R473). -/
opaque settingsCan : Bool

end Sys2Proof.Config
end

