-- ==== Sys2Proof/Machine/Float32.lean ====
section
/-! DEFINITION. binary32 arithmetic as the engines do it (09 R248): IEEE 754 with rounding to nearest
even, subnormal inputs and results flushed to zero with their sign kept, every NaN result
0x7FC00000. A result comes with the X condition: invalid operation, division by zero or overflow. -/

namespace Sys2Proof.Machine.F32

/-- The NaN that every NaN result is (09 R248). -/
def nan : Word := 0x7FC00000#32

/-- The sign bit. -/
def neg (w : Word) : Bool := w.getLsbD 31
/-- The exponent field. -/
def expo (w : Word) : Nat := bits w 30 23
/-- The fraction field. -/
def frac (w : Word) : Nat := bits w 22 0

def isNaN (w : Word) : Bool := expo w == 255 && frac w != 0
def isInf (w : Word) : Bool := expo w == 255 && frac w == 0
/-- A signaling NaN: bit 22 clear (PRESUMED from IEEE 754, log entry 119). An operation on one is invalid. -/
def isSNaN (w : Word) : Bool := isNaN w && !w.getLsbD 22
/-- Zero, or a subnormal, which is flushed to zero (09 R248). -/
def isZero (w : Word) : Bool := expo w == 0
def isFinite (w : Word) : Bool := expo w != 255

/-- A zero of the given sign. -/
def zero (n : Bool) : Word := if n then 0x80000000#32 else 0#32
/-- An infinity of the given sign. -/
def inf (n : Bool) : Word := if n then 0xFF800000#32 else 0x7F800000#32

/-- The magnitude of a finite value is `mant w * 2 ^ (ex w)`. -/
def mant (w : Word) : Nat := if isZero w then 0 else 2 ^ 23 + frac w
def ex (w : Word) : Int := (expo w : Int) - 150
/-- The signed significand. -/
def smant (w : Word) : Int := if neg w then -(mant w : Int) else mant w

/-- The binary32 value nearest to ±(m / d)·2^e, ties to even, and whether it overflowed. -/
def pack (n : Bool) (m d : Nat) (e : Int) : Word × Bool :=
  if m = 0 then (zero n, false) else
  let k0 : Int := (Nat.log2 m : Int) - Nat.log2 d
  let ge : Bool := if 0 ≤ k0 then decide (d * 2 ^ k0.toNat ≤ m) else decide (d ≤ m * 2 ^ (-k0).toNat)
  let k := if ge then k0 else k0 - 1
  let sh := k - 23
  let num := if 0 ≤ sh then m else m * 2 ^ (-sh).toNat
  let den := if 0 ≤ sh then d * 2 ^ sh.toNat else d
  let q := num / den
  let r := num % den
  let q1 := if den < 2 * r || (2 * r == den && q % 2 == 1) then q + 1 else q
  let carry := q1 == 2 ^ 24
  let q2 := if carry then 2 ^ 23 else q1
  let ee := (if carry then k + 1 else k) + e
  if 127 < ee then (inf n, true)
  else if ee < -126 then (zero n, false)
  else (BitVec.ofNat 32 ((if n then 2 ^ 31 else 0) + (ee + 127).toNat * 2 ^ 23 + (q2 - 2 ^ 23)), false)

/-- The binary32 value nearest to (v / d)·2^e. A zero result is positive. -/
def ofQ (v : Int) (d : Nat) (e : Int) : Word × Bool := pack (decide (v < 0)) v.natAbs d e

/-- The signed significand of `a` at the exponent `e`, when `e` is at most its own. -/
def at_ (a : Word) (e : Int) : Int := smant a * 2 ^ (ex a - e).toNat

def negate (a : Word) : Word := a ^^^ 0x80000000#32
def abs (a : Word) : Word := a &&& 0x7FFFFFFF#32

/-- A subnormal flushed to zero with its sign kept; other values as they are. -/
def flush (a : Word) : Word := if isZero a then zero (neg a) else a

/-- a + b, with X. -/
def add (a b : Word) : Word × Bool :=
  if isNaN a || isNaN b then (nan, isSNaN a || isSNaN b)
  else if isInf a then (if isInf b && neg a != neg b then (nan, true) else (a, false))
  else if isInf b then (b, false)
  else
    let e := if ex a ≤ ex b then ex a else ex b
    let v := at_ a e + at_ b e
    if v = 0 then (zero (neg a && neg b && isZero a && isZero b), false) else ofQ v 1 e

def sub (a b : Word) : Word × Bool :=
  if isNaN b then (nan, isSNaN a || isSNaN b) else add a (negate b)

/-- a × b, with X. -/
def mul (a b : Word) : Word × Bool :=
  let n := neg a != neg b
  if isNaN a || isNaN b then (nan, isSNaN a || isSNaN b)
  else if isInf a || isInf b then (if isZero a || isZero b then (nan, true) else (inf n, false))
  else pack n (mant a * mant b) 1 (ex a + ex b)

/-- d + a × b, rounded once, with X. -/
def fma (d a b : Word) : Word × Bool :=
  let n := neg a != neg b
  if isNaN a || isNaN b || isNaN d then
    (nan, (isInf a && isZero b) || (isZero a && isInf b) || isSNaN a || isSNaN b || isSNaN d)
  else if isInf a || isInf b then
    if isZero a || isZero b then (nan, true)
    else if isInf d && neg d != n then (nan, true) else (inf n, false)
  else if isInf d then (d, false)
  else
    let e2 := ex a + ex b
    let e := if ex d ≤ e2 then ex d else e2
    let p : Int := smant a * smant b
    let v := at_ d e + p * 2 ^ (e2 - e).toNat
    if v = 0 then (zero (neg d && n && isZero d && p == 0), false) else ofQ v 1 e

/-- a / b, with X. -/
def div (a b : Word) : Word × Bool :=
  let n := neg a != neg b
  if isNaN a || isNaN b then (nan, isSNaN a || isSNaN b)
  else if isInf a then (if isInf b then (nan, true) else (inf n, false))
  else if isInf b then (zero n, false)
  else if isZero b then (if isZero a then (nan, true) else (inf n, true))
  else pack n (mant a) (mant b) (ex a - ex b)

/-- Newton's descent to the integer square root, with fuel. -/
def isqrtGo (m : Nat) : Nat → Nat → Nat
  | 0, x => x
  | k + 1, x => let y := (x + m / x) / 2; if y < x then isqrtGo m k y else x

/-- The largest r with r² ≤ m. -/
def isqrt (m : Nat) : Nat := if m = 0 then 0 else isqrtGo m 200 (2 ^ (Nat.log2 m / 2 + 1))

/-- √a, with X. -/
def sqrt (a : Word) : Word × Bool :=
  if isNaN a then (nan, isSNaN a)
  else if isZero a then (zero (neg a), false)
  else if neg a then (nan, true)
  else if isInf a then (a, false)
  else
    let odd := ex a % 2 != 0
    let m := if odd then 2 * mant a else mant a
    let e := if odd then ex a - 1 else ex a
    let r := isqrt (m * 2 ^ 60)
    let sticky := if r * r = m * 2 ^ 60 then 0 else 1
    pack false (4 * r + sticky) 4 (e / 2 - 30)

/-- Ordered comparison of finite or infinite values: negative, zero or positive as a is below, equal
to or above b. -/
def cmp (a b : Word) : Int :=
  let key (w : Word) : Int := let m : Int := (w.toNat % 2 ^ 31 : Nat); let m := if isZero w then 0 else m
    if neg w then -m else m
  key a - key b

/-- a < b, false when unordered. -/
def lt (a b : Word) : Bool := !isNaN a && !isNaN b && decide (cmp a b < 0)
/-- a ≤ b, false when unordered. -/
def le (a b : Word) : Bool := !isNaN a && !isNaN b && decide (cmp a b ≤ 0)
/-- a = b as values, false when unordered. -/
def eq (a b : Word) : Bool := !isNaN a && !isNaN b && decide (cmp a b = 0)

/-- Minimum; a NaN operand yields the other operand (09 R250). Both NaN gives the NaN result. -/
def min (a b : Word) : Word :=
  if isNaN a then (if isNaN b then nan else flush b) else if isNaN b then flush a
  else if cmp b a < 0 then flush b else flush a

/-- Maximum; a NaN operand yields the other operand (09 R250). -/
def max (a b : Word) : Word :=
  if isNaN a then (if isNaN b then nan else flush b) else if isNaN b then flush a
  else if cmp a b < 0 then flush b else flush a

/-- `v` rounded to the nearest integer, ties to even: v = m·2^e. -/
def rne (m : Int) (e : Int) : Int :=
  if 0 ≤ e then m * 2 ^ e.toNat
  else
    let d : Int := 2 ^ (-e).toNat
    let q := m / d
    let r := m % d
    if d < 2 * r || (2 * r == d && q % 2 != 0) then q + 1 else q

/-- A finite value rounded to the nearest integer, ties to even. -/
def toInt (a : Word) : Int := rne (smant a) (ex a)

/-- int32 to binary32. -/
def ofInt (v : Int) : Word := (ofQ v 1 0).1

/-- An integer clipped to int32, and whether it was clipped. -/
def sat32 (v : Int) : Word × Bool :=
  if v < -2147483648 then (0x80000000#32, true)
  else if 2147483647 < v then (0x7FFFFFFF#32, true) else (BitVec.ofInt 32 v, false)

/-- binary32 to int32, saturating, NaN giving 0; X on NaN or saturation (09 R250). -/
def toI32 (a : Word) : Word × Bool :=
  if isNaN a then (0#32, true)
  else if isInf a then (if neg a then 0x80000000#32 else 0x7FFFFFFF#32, true)
  else sat32 (toInt a)

/-- binary32 to Q31, saturating; a NaN gives 0 (DEDUCED from FTOI, log entry 5). -/
def toQ31 (a : Word) : Word × Bool :=
  if isNaN a then (0#32, false)
  else if isInf a then (if neg a then 0x80000000#32 else 0x7FFFFFFF#32, true)
  else sat32 (rne (smant a) (ex a + 31))

/-- Q31 to binary32: a / 2^31. -/
def ofQ31 (a : Word) : Word := (ofQ a.toInt 1 (-31)).1

-- Values without their X condition, for the equations of the control chain.
def fadd (a b : Word) : Word := (add a b).1
def fsub (a b : Word) : Word := (sub a b).1
def fmul (a b : Word) : Word := (mul a b).1
def fdiv (a b : Word) : Word := (div a b).1
def fsqrt (a : Word) : Word := (sqrt a).1

/-- A rational constant as binary32. -/
def lit (n : Int) (d : Nat) : Word := (ofQ n d 0).1

-- Fixed point with 62 fractional bits, for the reference values of sine, cosine and arctangent.

/-- π with 62 fractional bits. -/
def piFix : Int := 14488038916154245684
/-- Product of two fixed-point values. -/
def fx (a b : Int) : Int := a * b / 2 ^ 62

/-- The sine series from the term `t` = ±x^(2k−1)/(2k−1)! on. -/
def sinSeries (x2 : Int) : Nat → Nat → Int → Int
  | 0, _, _ => 0
  | f + 1, k, t => t + sinSeries x2 f (k + 1) (-(fx t x2) / ((2 * k) * (2 * k + 1) : Nat))

/-- sin(2π·a/2^32) with 62 fractional bits, the error below 2^−50. -/
def sinRef (a : Nat) : Int :=
  let q : Nat := a % 2 ^ 32 / 2 ^ 30
  let r : Nat := a % 2 ^ 30
  let r : Nat := if q % 2 = 1 then 2 ^ 30 - r else r
  let x : Int := piFix * r / 2 ^ 31
  let v := sinSeries (fx x x) 14 1 x
  if 2 ≤ q then -v else v

/-- cos(2π·a/2^32), likewise. -/
def cosRef (a : Nat) : Int := sinRef (a + 2 ^ 30)

/-- The arctangent series Σ ±z^(2k+1)/(2k+1) from the power `t` on. -/
def atanSeries (z2 : Int) : Nat → Nat → Int → Int
  | 0, _, _ => 0
  | f + 1, k, t => t / ((2 * k + 1 : Nat) : Int) + atanSeries z2 f (k + 1) (-(fx t z2))

/-- One halving of the arctangent's argument: z / (1 + √(1 + z²)). -/
def atanHalf (z : Int) : Int :=
  let one : Int := 2 ^ 62
  z * one / (one + (isqrt ((one + fx z z).toNat * 2 ^ 62) : Nat))

/-- arctan of y/x for 0 ≤ y ≤ x, x > 0, in radians with 62 fractional bits. -/
def atanRef (y x : Nat) : Int :=
  let z : Int := ((y * 2 ^ 62 / x : Nat) : Int)
  let z := atanHalf (atanHalf z)
  4 * atanSeries (fx z z) 24 0 z

/-- atan2(y, x) of two magnitudes with signs, as turns with 40 fractional bits. -/
def atan2Ref (yn : Bool) (y : Nat) (xn : Bool) (x : Nat) : Int :=
  let one : Int := 1099511627776
  let t : Int := if y ≤ x then atanRef y x * 2 ^ 39 / piFix else one / 4 - atanRef x y * 2 ^ 39 / piFix
  let t := if xn then one / 2 - t else t
  let t := if yn then one - t else t
  t % one

/-- Whether the finite value `w` lies within 2^−22 of the reference with 62 fractional bits. -/
def near (w : Word) (ref : Int) : Bool :=
  isFinite w && decide (-96 ≤ ex w) &&
    decide ((at_ w (-96) - ref * 2 ^ 34).natAbs ≤ 2 ^ 74)

/-- Whether the value `w` is too small for `near` to see and the reference is near 0 as well. -/
def tiny (w : Word) (ref : Int) : Bool :=
  isFinite w && decide (ex w < -96) && decide (ref.natAbs ≤ 2 ^ 40)

/-- A result of TSIN or TCOS: the free value where the bound of R250 allows it, and the correctly
rounded reference where it does not. -/
def trig (free : Word) (ref : Int) : Word :=
  if near free ref || tiny free ref then free else (ofQ ref 1 (-62)).1

end Sys2Proof.Machine.F32
end

