-- ==== Sys2Proof/Machine/Sha.lean ====
section
/-! DEFINITION. SHA-384, which the spec names without defining it (16 R455, R456, R459, 17 R469, 18 R497): FIPS 180-4
(PRESUMED, log entry 166). -/

namespace Sys2Proof.Machine

/-- The constants of the 80 rounds: fractions of the cube roots of the first 80 primes. -/
def shaK : List Dword :=
  [0x428A2F98D728AE22#64, 0x7137449123EF65CD#64, 0xB5C0FBCFEC4D3B2F#64, 0xE9B5DBA58189DBBC#64,
   0x3956C25BF348B538#64, 0x59F111F1B605D019#64, 0x923F82A4AF194F9B#64, 0xAB1C5ED5DA6D8118#64,
   0xD807AA98A3030242#64, 0x12835B0145706FBE#64, 0x243185BE4EE4B28C#64, 0x550C7DC3D5FFB4E2#64,
   0x72BE5D74F27B896F#64, 0x80DEB1FE3B1696B1#64, 0x9BDC06A725C71235#64, 0xC19BF174CF692694#64,
   0xE49B69C19EF14AD2#64, 0xEFBE4786384F25E3#64, 0x0FC19DC68B8CD5B5#64, 0x240CA1CC77AC9C65#64,
   0x2DE92C6F592B0275#64, 0x4A7484AA6EA6E483#64, 0x5CB0A9DCBD41FBD4#64, 0x76F988DA831153B5#64,
   0x983E5152EE66DFAB#64, 0xA831C66D2DB43210#64, 0xB00327C898FB213F#64, 0xBF597FC7BEEF0EE4#64,
   0xC6E00BF33DA88FC2#64, 0xD5A79147930AA725#64, 0x06CA6351E003826F#64, 0x142929670A0E6E70#64,
   0x27B70A8546D22FFC#64, 0x2E1B21385C26C926#64, 0x4D2C6DFC5AC42AED#64, 0x53380D139D95B3DF#64,
   0x650A73548BAF63DE#64, 0x766A0ABB3C77B2A8#64, 0x81C2C92E47EDAEE6#64, 0x92722C851482353B#64] ++
  [0xA2BFE8A14CF10364#64, 0xA81A664BBC423001#64, 0xC24B8B70D0F89791#64, 0xC76C51A30654BE30#64,
   0xD192E819D6EF5218#64, 0xD69906245565A910#64, 0xF40E35855771202A#64, 0x106AA07032BBD1B8#64,
   0x19A4C116B8D2D0C8#64, 0x1E376C085141AB53#64, 0x2748774CDF8EEB99#64, 0x34B0BCB5E19B48A8#64,
   0x391C0CB3C5C95A63#64, 0x4ED8AA4AE3418ACB#64, 0x5B9CCA4F7763E373#64, 0x682E6FF3D6B2B8A3#64,
   0x748F82EE5DEFB2FC#64, 0x78A5636F43172F60#64, 0x84C87814A1F0AB72#64, 0x8CC702081A6439EC#64,
   0x90BEFFFA23631E28#64, 0xA4506CEBDE82BDE9#64, 0xBEF9A3F7B2C67915#64, 0xC67178F2E372532B#64,
   0xCA273ECEEA26619C#64, 0xD186B8C721C0C207#64, 0xEADA7DD6CDE0EB1E#64, 0xF57D4F7FEE6ED178#64,
   0x06F067AA72176FBA#64, 0x0A637DC5A2C898A6#64, 0x113F9804BEF90DAE#64, 0x1B710B35131C471B#64,
   0x28DB77F523047D84#64, 0x32CAAB7B40C72493#64, 0x3C9EBE0A15C9BEBC#64, 0x431D67C49C100D4C#64,
   0x4CC5D4BECB3E42B6#64, 0x597F299CFC657E2A#64, 0x5FCB6FAB3AD6FAEC#64, 0x6C44198C4A475817#64]

/-- The eight words of a hash in progress. -/
structure Sha where
  a : Dword
  b : Dword
  c : Dword
  d : Dword
  e : Dword
  f : Dword
  g : Dword
  h : Dword

/-- The initial words of SHA-384: fractions of the square roots of the ninth to sixteenth primes. -/
def shaInit : Sha :=
  ⟨0xCBBB9D5DC1059ED8#64, 0x629A292A367CD507#64, 0x9159015A3070DD17#64, 0x152FECD8F70E5939#64,
   0x67332667FFC00B31#64, 0x8EB44A8768581511#64, 0xDB0C2E0D64F98FA7#64, 0x47B5481DBEFA4FA4#64⟩

/-- Rotation to the right. -/
def rotr (x : Dword) (n : Nat) : Dword := (x >>> n) ||| (x <<< (64 - n))

/-- One round with its constant and message word. -/
def shaRound (v : Sha) (k w : Dword) : Sha :=
  let t1 := v.h + (rotr v.e 14 ^^^ rotr v.e 18 ^^^ rotr v.e 41) + ((v.e &&& v.f) ^^^ (~~~ v.e &&& v.g)) + k + w
  let t2 := (rotr v.a 28 ^^^ rotr v.a 34 ^^^ rotr v.a 39) + ((v.a &&& v.b) ^^^ (v.a &&& v.c) ^^^ (v.b &&& v.c))
  ⟨t1 + t2, v.a, v.b, v.c, v.d + t1, v.e, v.f, v.g⟩

/-- The message word after the 16 words of a window, oldest first. -/
def shaNext (w : List Dword) : Dword :=
  let x := w.getD 14 0#64
  let y := w.getD 1 0#64
  (rotr x 19 ^^^ rotr x 61 ^^^ (x >>> 6)) + w.getD 9 0#64 + (rotr y 1 ^^^ rotr y 8 ^^^ (y >>> 7)) + w.headD 0#64

/-- The rounds of one block. -/
def shaRounds : List Dword → List Dword → Sha → Sha
  | [], _, v => v
  | k :: ks, w, v => shaRounds ks (w.drop 1 ++ [shaNext w]) (shaRound v k (w.headD 0#64))

/-- A block of 16 words joins the hash. -/
def shaBlock (v : Sha) (w : List Dword) : Sha :=
  let r := shaRounds shaK w v
  ⟨v.a + r.a, v.b + r.b, v.c + r.c, v.d + r.d, v.e + r.e, v.f + r.f, v.g + r.g, v.h + r.h⟩

/-- Eight bytes as a word, the most significant first. -/
def beWord (l : List Byte) : Dword := BitVec.ofNat 64 (l.foldl (fun v b => 256 * v + b.toNat) 0)

/-- The 64-bit words of a block of bytes. -/
def beWords (l : List Byte) : List Dword := (List.range 16).map fun i => beWord ((l.drop (8 * i)).take 8)

/-- A message with a 1 bit, zeros and its length in bits, up to a whole number of 128-byte blocks. -/
def shaPad (m : List Byte) : List Byte :=
  let n := (m.length + 17 + 127) / 128 * 128
  let len := 8 * m.length
  m ++ [0x80#8] ++ List.replicate (n - m.length - 17) 0#8 ++ (List.range 16).map fun i => BitVec.ofNat 8 (len / 256 ^ (15 - i))

/-- The bytes of a word, the most significant first. -/
def beBytes (w : Dword) : List Byte := (List.range 8).map fun i => (w >>> (56 - 8 * i)).setWidth 8

/-- SHA-384 of a byte string. -/
def sha384 (m : List Byte) : List Byte :=
  let p := shaPad m
  let v := (List.range (p.length / 128)).foldl (fun v i => shaBlock v (beWords ((p.drop (128 * i)).take 128))) shaInit
  [v.a, v.b, v.c, v.d, v.e, v.f].flatMap beBytes

end Sys2Proof.Machine
end

