-- ==== Sys2Proof/Machine/State.lean ====
section
/-! DEFINITION. The state of the module as plain data, the reasons a step can stop, and the state
of a powered-off module with every register at its reset word. Each field's comment names what
the spec calls it, then in brackets the file and rule that name it and where its reset value
comes from: a rule, or DESIGN CHOICE with the number of its log entry. -/

namespace Sys2Proof.Machine

/-- Sparse storage: addresses strictly rising, and no entry equal to what an unlisted address reads
as (Machine/Ops.lean gives the reading and the writing, and `Mem.wf` the form). -/
abbrev Mem (w : Nat) := List (Nat × BitVec w)

/-- The part of the family that this module is (00 R1). -/
inductive Variant where
  | cya6411 | cya6400 | cya3211 | cya1601
  deriving DecidableEq, Repr

/-- Where the module stands between no power and every power state (14 R402, R404). -/
inductive PwrMode where
  /-- No power: VIN below 12 V, the rails down. -/
  | off
  /-- Thimble runs; the rails are not yet good, or RESET_N or a low VCORE holds the module. -/
  | start
  /-- Rails good: RUN or HOLD. -/
  | active
  | enteringDoze
  | doze
  | waking
  | enteringSleep
  | sleep
  deriving DecidableEq, Repr

/-- What the supervisor is doing (14 R402, 15 R430, 17 R473). -/
inductive SupMode where
  /-- Held in reset. -/
  | held
  /-- The boot ROM or the image runs, and READY reads 0. -/
  | boot
  | ready
  /-- SERVICE mode. -/
  | service
  deriving DecidableEq, Repr

/-- What the boot ROM does at the flash port (13 R374): the level of FRST_N, a wait in ns, SCK = 100 MHz / (DIV + 1), a
command at 1-1-1 by its opcode, and the setting of the quad-enable bit by the method that the table declares. -/
inductive FlashStep where
  | frstN (level : Bool)
  | wait (ns : Nat)
  | sck (div : Nat)
  | send (opcode : Byte)
  | quadEnable
  deriving DecidableEq, Repr

/-- Something the module sends to the world outside it. -/
inductive Output where
  /-- A posted write of the host link into host memory. -/
  | hostWrite (addr : Dword) (bytes : List Byte)
  /-- An MSI-X interrupt message. -/
  | msix (vector : BitVec 6) (addr : Dword) (data : Word)
  /-- A frame handed to a CAN bus without error, with the identifier its buffer has. -/
  | canFrame (c : CanId) (f : CanFrame)
  /-- A pulse at SYNCOUT begins (true) or ends. -/
  | syncout (level : Bool)
  /-- A transfer of a serial port: its select, the mode of its clock, and the bits shifted out, first bit first. -/
  | spTx (port : Fin 8) (sel mode : BitVec 2) (bits : List Bool)
  /-- A step of the boot ROM at the flash port (13 R374). -/
  | flash (step : FlashStep)
  /-- Words shifted out of SPS. -/
  | spsTx (words : List Word)
  /-- The answer to a read of configuration space (11 R305). -/
  | cfgData (offset : BitVec 12) (value : Word)
  /-- An interrupt to the supervisor from axis n: a generator event of IRQ_SEL by its number 0 to 6 (04 R129), or 7, a
  change of DIR under DIR_IRQ_EN (05 R150). -/
  | supIrq (n : AxisId) (k : Nat)
  deriving DecidableEq, Repr

/-- The clock sources as CLK_STATUS shows them. -/
structure Clocks where
  /-- CLK_STATUS XTAL_OK [01 R17; R538] -/
  xtal : Bool := false
  /-- CLK_STATUS PLLE_LOCK [01 R17; R538] -/
  plle : Bool := false
  /-- CLK_STATUS PLLP_LOCK [01 R17; R538] -/
  pllp : Bool := false
  /-- CLK_STATUS PLLN_LOCK [01 R17; R538] -/
  plln : Bool := false
  /-- CLK_STATUS DLL_LOCK [01 R17; R538] -/
  dll : Bool := false
  /-- CLK_STATUS CKH_PRESENT [01 R17; R538] -/
  ckh : Bool := false
  /-- CLK_STATUS CKL_LOCK, before the masking of absent banks [01 R17; R538] -/
  ckl : BitVec 8 := 0#8
  deriving DecidableEq, Repr

/-- Where the fan check stands (14 R417). -/
inductive FanSeq where
  | idle
  | window
  | kick
  deriving DecidableEq, Repr

/-- The supply, the power states, the domains and the fan. -/
structure Power where
  /-- Power state, with the steps between states [14 R404; DESIGN CHOICE 1] -/
  mode : PwrMode := .off
  /-- PWR_STATE REQ_REJECT [14 R419; R538] -/
  reqReject : Bool := false
  /-- A REQ write deferred by a debug halt; 0 none [16 R460; DESIGN CHOICE 1] -/
  reqDeferred : List (BitVec 2) := []
  /-- REQ RUN held until entry into DOZE completes [14 R408; DESIGN CHOICE 1] -/
  runHeld : Bool := false
  /-- PWR_SUPPLY UV [14 R419; R538] -/
  uv : Bool := false
  /-- PWR_SUPPLY OV_WARN [14 R419; R538] -/
  ovWarn : Bool := false
  /-- The five rails, each in its window: bit 0 12 V, 1 V5, 2 V3, 3 V1P8, 4 VCORE; RAILS_OK is their AND [14 R401; R538] -/
  rails : BitVec 5 := 0#5
  /-- VCORE below 0.68 V holds the control die in reset [14 R401; DESIGN CHOICE 1] -/
  vcoreLow : Bool := false
  /-- PWR_SUPPLY RB_ON [14 R419; R538] -/
  rbOn : Bool := false
  /-- PWR_SUPPLY RB_REV_CNT [14 R419; R538] -/
  rbRevCnt : BitVec 8 := 0#8
  /-- PWR_SUPPLY VINS_LEVEL [14 R419; R538] -/
  vinsLevel : BitVec 12 := 0#12
  /-- The 12 V gate-drive buck runs [14 R397; DESIGN CHOICE 1] -/
  buckOn : Bool := false
  /-- PWR_PD_REQ_LO, _HI and _SYS, bit k for PD(k) [14 R419; R538] -/
  pdReq : BitVec 80 := 0#80
  /-- PWR_PD_STATUS_LO, _HI and _SYS, bit k for PD(k) [14 R419; R538] -/
  pdOn : BitVec 80 := 0#80
  /-- CREF at which PD78 has powered up for the latest OTP access, and at which that access is over; 0 where there was
  none [14 R411, 16 R446; DESIGN CHOICE 1] -/
  otpOnAt : Nat := 0
  otpOffAt : Nat := 0
  /-- Domains that are powering up and being zeroed [14 R412; DESIGN CHOICE 1] -/
  pdRamp : BitVec 80 := 0#80
  /-- Domains whose power-up waits its turn [14 R412; DESIGN CHOICE 1] -/
  pdWait : BitVec 80 := 0#80
  /-- CREF at which each domain that powers up began to do so [14 R411; DESIGN CHOICE 1] -/
  pdFrom : List (Nat × Nat) := []
  /-- PWR_DOZE_KEEP_LO, _HI [14 R419; R538] -/
  dozeKeep : Dword := 0#64
  /-- Axis domains that DOZE gated, to be powered again on the way to RUN [14 R407; DESIGN CHOICE 1] -/
  dozeGated : BitVec 80 := 0#80
  /-- PWR_WAKE_CFG [14 R419; R538] -/
  wakeCfg : Word := 0x00000010#32
  /-- PWR_WAKE_TIMER [14 R419; R538] -/
  wakeTimer : Word := 0#32
  /-- PWR_WAKE_CAUSE [14 R419; R538] -/
  wakeCause : BitVec 7 := 0#7
  /-- Wake sources held while entry into SLEEP runs [14 R410; DESIGN CHOICE 1] -/
  wakeHeld : BitVec 7 := 0#7
  /-- WAKE_N is driven low by the module [14 R410; DESIGN CHOICE 1] -/
  wakeDrive : Bool := false
  /-- CREF at which the module began to drive WAKE_N [14 R410; DESIGN CHOICE 1] -/
  wakeAt : Nat := 0
  /-- CANSTBc levels, bit c [12 R350; DESIGN CHOICE 1] -/
  canStb : BitVec 4 := 0xF#4
  /-- PWR_FAN_CFG [14 R419; R538] -/
  fanCfg : Word := 0x6E641E02#32
  /-- PWR_FAN_CURVE [14 R419; R538] -/
  fanCurve : Word := 0x00005A32#32
  /-- PWR_FAN_STATUS FAN_FAIL [14 R419; R538] -/
  fanFail : Bool := false
  /-- PWR_FAN_STATUS RUNNING [14 R419; R538] -/
  fanRunning : Bool := false
  /-- PWR_FAN_STATUS KICKS [14 R419; R538] -/
  fanKicks : BitVec 2 := 0#2
  /-- PWR_FAN_STATUS RPM [14 R419; R538] -/
  fanRpm : BitVec 16 := 0#16
  /-- The step of the fan check sequence [14 R417; DESIGN CHOICE 1] -/
  fanSeq : FanSeq := .idle
  /-- CREF at which the present window or kick began [14 R417; DESIGN CHOICE 1] -/
  fanSeqAt : Nat := 0
  /-- CREF of the latest tach edge, when there has been one [14 R416; DESIGN CHOICE 1] -/
  fanEdge : Option Nat := none
  /-- CREF from which the tach has had no gap longer than 2 s [14 R418; DESIGN CHOICE 1] -/
  fanGoodSince : Nat := 0
  /-- The fan is stopped for SLEEP [14 R409; DESIGN CHOICE 1] -/
  fanStopped : Bool := true
  /-- PWR_CTRL_TEMP T0 [14 R419; R538] -/
  ctrlT0 : BitVec 16 := 0#16
  /-- PWR_CTRL_TEMP T1 [14 R419; R538] -/
  ctrlT1 : BitVec 16 := 0#16
  /-- PWR_NTC_T(i) [14 R419; R538] -/
  ntcT : Vector Word 16 := Vector.replicate 16 0#32
  deriving DecidableEq, Repr

/-- One open escalation window (15 R432). -/
structure EscWin where
  /-- The source whose window it is [15 R432; DESIGN CHOICE 1] -/
  src : Nat
  /-- FLT_ESC COUNT [15 R441; R538] -/
  count : BitVec 8
  /-- CREF at which the window opened [15 R432; DESIGN CHOICE 1] -/
  opened : Nat
  deriving DecidableEq, Repr

/-- A scope of reactions (15 R423, R425). -/
inductive Scope where
  | axis (n : AxisId)
  | bank (b : BankId)
  | device
  deriving DecidableEq, Repr

/-- The merge window of a reaction (15 R433). -/
structure MergeWin where
  /-- The reaction's scope, as widened [15 R433; DESIGN CHOICE 1] -/
  scope : Scope
  /-- The reaction's class, as raised [15 R433; DESIGN CHOICE 1] -/
  cls : BitVec 3
  /-- CREF at which the reaction started [15 R433; DESIGN CHOICE 1] -/
  start : Nat
  deriving DecidableEq, Repr

/-- The fault collector and Thimble. -/
structure Flt where
  /-- FLT_CTRL [15 R441; R538] -/
  ctrl : Word := 0x00000003#32
  /-- The GRAVE latch, FLT_STATUS GRAVE [15 R426; R538] -/
  grave : Bool := false
  /-- FLT_STATUS DEVICE_OUT [15 R441; R538] -/
  deviceOut : Bool := false
  /-- FLT_STATUS BANK_OUT [15 R441; R538] -/
  bankOut : BitVec 8 := 0#8
  /-- FLT_STATUS MERGE_CNT [15 R441; R538] -/
  mergeCnt : BitVec 16 := 0#16
  /-- FLT_AXIS_OUT_LO, _HI [15 R441; R538] -/
  axisOut : Dword := 0#64
  /-- FLT_LOCK [15 R441; R538] -/
  lock : Bool := false
  /-- FLT_INJ [15 R441; R538] -/
  inj : Word := 0#32
  /-- CREF at which bank b last passed every HOLD-only test, for FLT_ST_AGE(b) [15 R441; R538] -/
  stAt : Vector (Option Nat) 8 := Vector.replicate 8 none
  /-- FLT_STICKY, source k at bit k [15 R441; R538] -/
  sticky : BitVec 1536 := 0#1536
  /-- FLT_CLASS by source; unlisted reads the default class [15 R441; R538] -/
  cls : Mem 3 := []
  /-- FLT_ESC bits 23:0 by source; unlisted reads the reset word [15 R441; R538] -/
  esc : Mem 24 := []
  /-- The escalation windows that are open [15 R432; DESIGN CHOICE 1] -/
  escWin : List EscWin := []
  /-- Sources raised and on their way through the collector, oldest first [15 R436; DESIGN CHOICE 1] -/
  raised : List Nat := []
  /-- Sources whose condition stands, so that they are not raised again [15 R541; DESIGN CHOICE 1] -/
  met : BitVec 1536 := 0#1536
  /-- Sources whose cause stands, for FAULT_CLEAR [15 R427; DESIGN CHOICE 1] -/
  cause : BitVec 1536 := 0#1536
  /-- The sources that have reacted on each outstanding scope [15 R427; DESIGN CHOICE 1] -/
  reacted : List (Scope × Nat) := []
  /-- The merge windows that are open [15 R433; DESIGN CHOICE 1] -/
  merge : List MergeWin := []
  /-- The highest class outstanding for each scope, for FAULT_N [15 R430; DESIGN CHOICE 1] -/
  outCls : List (Scope × BitVec 3) := []
  /-- CREF of the latest device vector [15 R425; DESIGN CHOICE 1] -/
  devVecAt : Option Nat := none
  /-- CREF of the latest LOCKSTEP_MISMATCH [15 R430; DESIGN CHOICE 1] -/
  lockstepAt : Option Nat := none
  /-- CREF of the latest online self-tests [15 R428; DESIGN CHOICE 1] -/
  onlineAt : Option Nat := none
  /-- CREF of the latest HOLD-only tests of bank b [15 R428; DESIGN CHOICE 1] -/
  holdTestAt : Vector (Option Nat) 8 := Vector.replicate 8 none
  /-- CREF at which Thimble began to hold the supervisor in reset [15 R430; DESIGN CHOICE 1] -/
  supHeldAt : Nat := 0
  /-- Thimble runs and has passed its self-test [14 R402; DESIGN CHOICE 1] -/
  thimble : Bool := false
  /-- PLL-E or PLL-P lost: Thimble withdraws every gate enable [15 R429; DESIGN CHOICE 1] -/
  clockCut : Bool := false
  deriving DecidableEq, Repr

/-- A submission ring (11 R340). -/
structure Sq where
  /-- HST_SQ_BASE_LO [11 R340; R538] -/
  baseLo : Word := 0#32
  /-- HST_SQ_BASE_HI [11 R340; R538] -/
  baseHi : Word := 0#32
  /-- HST_SQ_CFG CLASS, CQ and SIZE; EN is `en` [11 R340; R538] -/
  cfg : Word := 0x20000004#32
  /-- HST_SQ_CFG EN [11 R340; R538] -/
  en : Bool := false
  /-- HST_SQ_STATUS HALTED [11 R340; R538] -/
  halted : Bool := false
  /-- HST_SQ_STATUS ERR_CODE [11 R340; R538] -/
  err : BitVec 3 := 0#3
  /-- HST_SQ_STATUS TAIL [11 R340; R538] -/
  tail : BitVec 12 := 0#12
  /-- HST_SQ_STATUS HEAD [11 R340; R538] -/
  head : BitVec 12 := 0#12
  /-- The latest descriptor of the ring had CHAIN and ended other than OK [11 R316; DESIGN CHOICE 1] -/
  chainFail : Bool := false
  deriving DecidableEq, Repr

/-- A completion ring (11 R340). -/
structure Cq where
  /-- HST_CQ_BASE_LO [11 R340; R538] -/
  baseLo : Word := 0#32
  /-- HST_CQ_BASE_HI [11 R340; R538] -/
  baseHi : Word := 0#32
  /-- HST_CQ_CFG [11 R340; R538] -/
  cfg : Word := 0x00000004#32
  /-- HST_CQ_STATUS HEAD_BAD [11 R340; R538] -/
  headBad : Bool := false
  /-- HST_CQ_STATUS TAIL [11 R340; R538] -/
  tail : BitVec 12 := 0#12
  /-- HST_CQ_STATUS HEAD [11 R340; R538] -/
  head : BitVec 12 := 0#12
  /-- The PHASE bit of the present pass [11 R313; DESIGN CHOICE 1] -/
  phase : Bool := true
  deriving DecidableEq, Repr

/-- Completion status codes (11 R320). -/
inductive Status where
  | ok | aborted | timeout | lateSent | halted | absent | badArg | badWindow | conflict | faulted
  | denied | crc | sig | reset | noSpace | partialRes
  deriving DecidableEq, Repr

/-- A completion that waits to be written (11 R318). -/
structure Completion where
  /-- Where the descriptor came from [11 R318; DESIGN CHOICE 1] -/
  src : RingSrc
  /-- Bytes 0 and 1 [11 R318; DESIGN CHOICE 1] -/
  tag : BitVec 16
  /-- Byte 2 [11 R318; DESIGN CHOICE 1] -/
  status : Status
  /-- Bytes 4 to 7 [11 R318; DESIGN CHOICE 1] -/
  info : Word := 0#32
  /-- Bytes 8 to 15, where a chapter sets another time than the writing [11 R318; DESIGN CHOICE 1] -/
  time : Option Dword := none
  /-- The descriptor carried IRQ [11 R314; DESIGN CHOICE 1] -/
  irq : Bool := false
  deriving DecidableEq, Repr

/-- What an in-flight descriptor is doing. -/
inductive Act where
  /-- Fetched, not decoded. -/
  | fetched
  /-- TIMED: waits for its start edge, then acts as the command says (11 R322). -/
  | timed (i : Instr)
  /-- AXIS_STATE RUN: waits until every axis has left charging (11 R326). -/
  | axisRun (axes : Dword) (failed : Option AxisId)
  /-- AXIS_MODE: waits until every E12 has taken its request (11 R327). -/
  | axisMode (axes : Dword) (refused : Dword)
  /-- SIGNAL_WRITE or AXIS_MODE past its start edge, at this CREF: its words take effect 4 ce later (11 R322). -/
  | begun (i : Instr) (edge : Nat)
  /-- SIGNAL_PULSE past its start edge: VALUE_ON with the CREF of that edge until it is written, VALUE_OFF, STOP, and
  the CREF of the stop edge once it has come (11 R322, R324). -/
  | pulse (addr : Word) (on : Option (Word × Nat)) (off : Word) (stop : Dword) (offAt : Option Nat)
  /-- SEAM_OPEN that waits for a retiring slot (10 R281). -/
  | seamOpen (axes : Dword) (segGo : Bool)
  /-- SEAM_ARM of a slot (10 R286). -/
  | seam (slot : Fin 64)
  /-- SNAPSHOT waiting for its trigger (10 R297). -/
  | snapshot
  /-- FITTING (08 R219). -/
  | fitting (kind : FitKind)
  /-- LENS_MAP for cluster n, FORMAT written 0: waits for the activations, engine and number, that began before, then
  writes the table (08 R244). -/
  | lensMap (n : AxisId) (waits : List (EngId × Word)) (table : List Byte)
  /-- CAN_SEND with its frame in a buffer of controller c (12 R352). -/
  | canSend (c : CanId) (id : Nat) (late : Bool)
  /-- SP_TRANSFER on a port (13 R382). -/
  | spTransfer (port : Fin 8)
  /-- The completion waits to be written (11 R313). -/
  | done
  deriving DecidableEq, Repr

/-- A descriptor in flight (11 R315). -/
structure InFlight where
  /-- Where it came from [11 R315; DESIGN CHOICE 1] -/
  src : RingSrc
  /-- Its TAG [11 R317; DESIGN CHOICE 1] -/
  tag : BitVec 16
  /-- Its FLAGS [11 R317; DESIGN CHOICE 1] -/
  flags : BitVec 8
  /-- Its class [11 R315; DESIGN CHOICE 1] -/
  cls : BitVec 2
  /-- CREF at which its timeout began to count [11 R319; DESIGN CHOICE 1] -/
  since : Nat
  /-- Its timeout in µs, the class default filled in [11 R319; DESIGN CHOICE 1] -/
  timeoutUs : Nat
  /-- What it is doing [11 R315; DESIGN CHOICE 1] -/
  act : Act
  /-- Its 64 bytes [11 R317; DESIGN CHOICE 1] -/
  desc : List Byte := []
  /-- A tunnelled one that came next after one refused NO_SPACE with CHAIN [11 R316, 12 R356; DESIGN CHOICE 1] -/
  follows : Bool := false
  /-- Its completion is discarded: a reset of the host link came between [11 R309; DESIGN CHOICE 1] -/
  mute : Bool := false
  deriving DecidableEq, Repr

/-- A telemetry stream (11 R335, R343). -/
structure Stream where
  /-- TEL_STATUS OPEN [11 R343; R538] -/
  isOpen : Bool := false
  /-- The signal addresses sampled [11 R335; DESIGN CHOICE 1] -/
  list : List Word := []
  /-- EVENT [11 R335; DESIGN CHOICE 1] -/
  event : BitVec 8 := 0#8
  /-- REF [11 R335; DESIGN CHOICE 1] -/
  ref : BitVec 8 := 0#8
  /-- DECIM, 0 as 1 [11 R335; DESIGN CHOICE 1] -/
  decim : Nat := 1
  /-- VECTOR [11 R335; DESIGN CHOICE 1] -/
  vector : BitVec 8 := 0xFF#8
  /-- RING_ADDR [11 R335; DESIGN CHOICE 1] -/
  ringAddr : Dword := 0#64
  /-- RING_SIZE [11 R335; DESIGN CHOICE 1] -/
  ringSize : Nat := 4096
  /-- Events counted towards the next sample [11 R335; DESIGN CHOICE 1] -/
  evCnt : Nat := 0
  /-- CREF of each selected event whose sample has not been taken, oldest first [11 R335; DESIGN CHOICE 1] -/
  due : List Nat := []
  /-- CREF / 4,000 at the opening of the stream or at its latest TICK sample [11 R335; DESIGN CHOICE 1] -/
  tickAt : Nat := 0
  /-- WATERMARK [11 R335; DESIGN CHOICE 1] -/
  watermark : Nat := 0
  /-- TEL_WP [11 R343; R538] -/
  wp : Word := 0#32
  /-- TEL_RP [11 R343; R538] -/
  rp : Word := 0#32
  /-- TEL_DROP [11 R343; R538] -/
  drop : Word := 0#32
  /-- TEL_SEQ [11 R343; R538] -/
  seq : Word := 0#32
  /-- Samples dropped since the last record, for the GAP record [11 R338; DESIGN CHOICE 1] -/
  gapDrops : Nat := 0
  /-- CREF of the first of them [11 R337; DESIGN CHOICE 1] -/
  gapCref : Dword := 0#64
  deriving DecidableEq, Repr

/-- The host link. -/
structure Hst where
  /-- The submission rings -/
  sq : Vector Sq 64 := Vector.replicate 64 {}
  /-- The completion rings -/
  cq : Vector Cq 16 := Vector.replicate 16 {}
  /-- HST_STATUS READY [11 R341; R538] -/
  ready : Bool := false
  /-- HST_STATUS HOST_LOST [11 R341; R538] -/
  hostLost : Bool := false
  /-- HST_STATUS HB_ARMED [11 R341; R538] -/
  hbArmed : Bool := false
  /-- CREF of the latest heartbeat [11 R332; DESIGN CHOICE 1] -/
  hbAt : Nat := 0
  /-- HST_STATUS BAR2_WR_CNT [11 R341; R538] -/
  bar2Cnt : BitVec 16 := 0#16
  /-- HST_HB_CFG [11 R341; R538] -/
  hbCfg : Word := 0x00000032#32
  /-- HST_URG_STATUS LAST_CODE [11 R341; R538] -/
  urgLast : BitVec 8 := 0#8
  /-- HST_URG_STATUS BAD_CNT [11 R341; R538] -/
  urgBad : BitVec 8 := 0#8
  /-- HST_URG_STATUS CMD_CNT [11 R341; R538] -/
  urgCnt : BitVec 16 := 0#16
  /-- HST_HALTED_LO, _HI [11 R341; R538] -/
  halted : Dword := 0#64
  /-- The link answers: PERST_N high and trained [11 R308; DESIGN CHOICE 1] -/
  linkUp : Bool := false
  /-- The function is in D3hot [11 R308; DESIGN CHOICE 1] -/
  d3hot : Bool := false
  /-- PERST_N is low [11 R308; DESIGN CHOICE 1] -/
  perstLow : Bool := true
  /-- The last answer to a configuration request was a retry status [11 R307; DESIGN CHOICE 1] -/
  cfgRetry : Bool := false
  /-- MSI-X Enable of the MSI-X capability [11 R314; PRESUMED 71] -/
  msixEn : Bool := false
  /-- Function Mask of the MSI-X capability [11 R314; PRESUMED 71] -/
  msixMask : Bool := false
  /-- What the host has written to the base address registers 0 to 3 [11 R305; PRESUMED 165] -/
  bars : Vector Word 4 := Vector.replicate 4 0#32
  /-- The MSI-X table, by dword; unlisted reads its reset word [11 R314; R538] -/
  msix : Mem 32 := []
  /-- The MSI-X Pending Bit Array [11 R314; R538] -/
  pba : Dword := 0#64
  /-- Descriptors in flight [11 R315; R538] -/
  inflight : List InFlight := []
  /-- Completions that wait to be written, oldest first [11 R313; DESIGN CHOICE 1] -/
  cplWait : List Completion := []
  /-- The ring of each class fetched from last, for the round robin [11 R315; DESIGN CHOICE 1] -/
  rr : Vector (Fin 64) 4 := Vector.replicate 4 0
  /-- TEL_RP_BAD [11 R343; R538] -/
  rpBad : Word := 0#32
  /-- The telemetry streams -/
  tel : Vector Stream 32 := Vector.replicate 32 {}
  deriving DecidableEq, Repr

/-- One gate of an axis, as the driver die holds it (02). -/
structure GateSt where
  /-- Level of the gate command line [02 R543; DESIGN CHOICE 1] -/
  cmd : Bool := false
  /-- The driver sources into the gate [02 R32; DESIGN CHOICE 1] -/
  on : Bool := false
  /-- The gate was turned on in answer to the present command, which has not fallen: its detectors can be active [02 R40; DESIGN CHOICE 1] -/
  turned : Bool := false
  /-- CREF of that turn-on [02 R40; DESIGN CHOICE 1] -/
  onAt : Nat := 0
  /-- The gate waited for its complement when a fault latched [02 R35; DESIGN CHOICE 1] -/
  waited : Bool := false
  /-- The gate sinks at the soft strength of a two-step turn-off [02 R43; DESIGN CHOICE 1] -/
  soft : Bool := false
  /-- A turn-on waits for its guards [02 R543; DESIGN CHOICE 1] -/
  pendingOn : Bool := false
  /-- CREF of the latest turn-off command [02 R34; DESIGN CHOICE 1] -/
  offAt : Option Nat := none
  /-- The gate-level comparator reads above 1.8 V [02 R34; DESIGN CHOICE 1] -/
  high : Bool := false
  /-- Blanking has ended: the Vds comparison is active [02 R40; DESIGN CHOICE 1] -/
  vdsActive : Bool := false
  /-- Threshold code taken at turn-on [02 R41; DESIGN CHOICE 1] -/
  thr : BitVec 6 := 18#6
  /-- Blanking code taken at turn-on [02 R41; DESIGN CHOICE 1] -/
  blank : BitVec 6 := 10#6
  deriving DecidableEq, Repr

/-- The GDR registers of an axis and the power-stage part of its driver (02). -/
structure Gdr where
  /-- GDR_CTRL as written [02 R53; R538] -/
  ctrl : Word := 0x00000002#32
  /-- GDR_VDS_CFG as written [02 R54; R538] -/
  vdsCfg : Word := 0x0A0A1212#32
  /-- GDR_SOFT_CFG as written [02 R55; R538] -/
  softCfg : Word := 0x00000005#32
  /-- GDR_CTRL as the driver die has it [02 R52; R538] -/
  ctrlIn : Word := 0x00000002#32
  /-- GDR_VDS_CFG as the driver die has it [02 R52; R538] -/
  vdsIn : Word := 0x0A0A1212#32
  /-- GDR_SOFT_CFG as the driver die has it [02 R52; R538] -/
  softIn : Word := 0x00000005#32
  /-- The latch bits, at their places 15:0 in GDR_STATUS [02 R56; R538] -/
  latches : BitVec 16 := 0#16
  /-- A two-step turn-off is in its soft step [02 R43; DESIGN CHOICE 1] -/
  softRun : Bool := false
  /-- T_SOFT code of the running turn-off [02 R55; DESIGN CHOICE 1] -/
  softCode : BitVec 4 := 5#4
  /-- CREF at which it began [02 R43; DESIGN CHOICE 1] -/
  softAt : Nat := 0
  /-- The six gates, in the order of HSK [02 R56; DESIGN CHOICE 1] -/
  gates : Vector GateSt 6 := Vector.replicate 6 {}
  /-- BST_OK per phase, on the driver die [02 R36; DESIGN CHOICE 1] -/
  bstOk : BitVec 3 := 0#3
  /-- Bootstrap voltage below 8.2 V per phase, on the driver die [02 R57; DESIGN CHOICE 1] -/
  bstEw : BitVec 3 := 0#3
  /-- GDR_LIVE as the latest STATUS frame left it [02 R57; R538] -/
  live : Word := 0x00002000#32
  deriving DecidableEq, Repr

/-- A bank (02, 03). -/
structure Bank where
  /-- BNK_CTRL GATE_ALLOW [02 R58; R538] -/
  allow : Bool := false
  /-- BNK_STATUS VDRV_LEVEL [02 R59; R538] -/
  vdrvLevel : BitVec 8 := 0#8
  /-- BNK_STATUS CLEAR_CNT [02 R59; R538] -/
  clearCnt : BitVec 8 := 0#8
  /-- BNK_STATUS TRIP_LEVEL [02 R59; R538] -/
  trip : Bool := false
  /-- VDRVb is above its undervoltage threshold [02 R32; DESIGN CHOICE 1] -/
  vdrvOk : Bool := false
  /-- BNK_STATUS EN_LEVEL, the filtered ENb [02 R59; R538] -/
  en : Bool := false
  /-- The filtered level at the ENb terminal, also while SERVICE mode ignores it [02 R49; DESIGN CHOICE 1] -/
  enPin : Bool := false
  /-- BNK_STATUS GATE_ENABLE, the line of R9 released [02 R59; R538] -/
  gateEn : Bool := false
  /-- BNK_STO STOA_LEVEL, filtered [02 R60; R538] -/
  stoA : Bool := false
  /-- BNK_STO STOB_LEVEL, filtered [02 R60; R538] -/
  stoB : Bool := false
  /-- BNK_STO DISC_RUN [02 R60; R538] -/
  discRun : Bool := false
  /-- CREF since which the STO inputs have differed [15 R431; DESIGN CHOICE 1] -/
  discAt : Nat := 0
  /-- Both inputs have been low together since STO_DISCREPANCY was raised [15 R431; DESIGN CHOICE 1] -/
  bothLow : Bool := false
  /-- BNK_BRK_CFG as written [02 R61; R538] -/
  brkCfg : Word := 0x0A0A6400#32
  /-- BNK_BRK_CFG as the driver die has it [02 R52; R538] -/
  brkIn : Word := 0x0A0A6400#32
  /-- BNK_BRK_STATUS BRK_ON [02 R62; R538] -/
  brkOn : Bool := false
  /-- CREF of the latest turn-on of BRKGb [02 R50; DESIGN CHOICE 1] -/
  brkOnAt : Nat := 0
  /-- BNK_BRK_STATUS MAXON_CNT [02 R62; R538] -/
  maxonCnt : BitVec 16 := 0#16
  /-- The minimum off-time after a cut-off runs [02 R50; DESIGN CHOICE 1] -/
  minoff : Bool := false
  /-- CREF of that cut-off [02 R50; DESIGN CHOICE 1] -/
  minoffAt : Nat := 0
  /-- A test pulse runs [02 R51; DESIGN CHOICE 1] -/
  testRun : Bool := false
  /-- What the governor's thresholds ask of BRKGb [07 R211; DESIGN CHOICE 1] -/
  brkAsk : Bool := false
  /-- BNK_BRK_LVL as written [07 R217; R538] -/
  brkLvl : Word := 0x0C800CE4#32
  /-- BNK_BRK_LVL as the driver die has it [07 R217; R538] -/
  brkLvlIn : Word := 0x0C800CE4#32
  /-- BNK_LOCK GDR_LOCK [02 R63; R538] -/
  lock : Bool := false
  /-- BNK_VIN VIN_RAW [03 R91; R538] -/
  vinRaw : BitVec 12 := 0#12
  /-- BNK_VIN VIN_AVG [03 R91; R538] -/
  vinAvg : BitVec 12 := 0#12
  /-- The latest 16 VIN samples on the driver die, newest first [03 R76; DESIGN CHOICE 1] -/
  vinWin : List (BitVec 12) := []
  /-- BNK_TEMP01 and BNK_TEMP23, sensors 0 to 3 [03 R91; R538] -/
  temps : Vector (BitVec 16) 4 := Vector.replicate 4 0#16
  /-- The latest readings on the driver die [03 R77; DESIGN CHOICE 1] -/
  tempsIn : Vector (BitVec 16) 4 := Vector.replicate 4 0#16
  /-- Overtemperature holds the gate enable withdrawn [14 R414; DESIGN CHOICE 1] -/
  hot : Bool := false
  /-- Writes on their way down the bank link: target (axis in bank or 8 for the bank), register offset and value, oldest first [02 R52; DESIGN CHOICE 1] -/
  down : List (Nat × Nat × Word) := []
  /-- The trims of the bank are written, SNS_STATUS TRIM_OK of its axes [03 R79; R538] -/
  trimOk : Bool := false
  /-- Frames of the bank that failed their CRC within the present 1 ms, with the CREF of each [15 R422; DESIGN CHOICE 1] -/
  crcFails : List Nat := []
  /-- CREF of the latest failed frame or link fault of the bank [15 R422; DESIGN CHOICE 1] -/
  linkAt : Nat := 0
  deriving DecidableEq, Repr

/-- Three phase values of one width. -/
structure Tri3 (w : Nat) where
  a : BitVec w := 0
  b : BitVec w := 0
  c : BitVec w := 0
  deriving DecidableEq, Repr

/-- A frame of the bank link on the two lanes of an axis (03 R73, R74). -/
structure LaneFrame where
  /-- VS_OVF [03 R73; DESIGN CHOICE 1] -/
  vsOvf : Bool := false
  /-- CAL [03 R73; DESIGN CHOICE 1] -/
  cal : Bool := false
  /-- BOUNDARY in a SAMPLE frame, the alternating bit in an INTEGRAL frame [03 R73; DESIGN CHOICE 1] -/
  boundary : Bool := false
  /-- SAT [03 R73; DESIGN CHOICE 1] -/
  sat : Bool := false
  /-- VS_A to VS_C [03 R73; DESIGN CHOICE 1] -/
  vs : Tri3 24 := {}
  /-- I_A to I_C of a SAMPLE frame [03 R73; DESIGN CHOICE 1] -/
  i : Tri3 14 := {}
  /-- VPH_A to VPH_C of an INTEGRAL frame [03 R74; DESIGN CHOICE 1] -/
  vph : Tri3 12 := {}
  /-- CREF of the hold or closing, by which the control die finds its window word [04 R111; DESIGN CHOICE 1] -/
  at_ : Nat := 0
  /-- CREF at which the frame ends on the lanes, once it has started [03 R72; DESIGN CHOICE 1] -/
  ends : Option Nat := none
  deriving DecidableEq, Repr

/-- A conversion that is running (03 R66). -/
structure Conv where
  /-- CREF of the hold [03 R66; DESIGN CHOICE 1] -/
  at_ : Nat
  /-- The hold closed the integrators [03 R67; DESIGN CHOICE 1] -/
  boundary : Bool
  /-- The inputs are shorted for calibration [03 R81; DESIGN CHOICE 1] -/
  cal : Bool
  deriving DecidableEq, Repr

/-- A boundary pulse in the control die's record (03 R544). -/
structure Boundary where
  /-- Kind: peak, else zero [03 R544; DESIGN CHOICE 1] -/
  peak : Bool
  /-- PCOUNT [03 R544; DESIGN CHOICE 1] -/
  pcount : Word
  /-- CREF of its falling edge [03 R544; DESIGN CHOICE 1] -/
  at_ : Nat
  /-- The compares in force for the half period that it closes [06 R174; DESIGN CHOICE 1] -/
  cmp : Vector Word 3 := Vector.replicate 3 0#32
  /-- PER of that half [06 R174; DESIGN CHOICE 1] -/
  per : Nat := 4000
  deriving DecidableEq, Repr

/-- What a STATUS frame carries (03 R75): the values of its due time. -/
structure StatusRec where
  /-- GDR_LIVE [02 R57; DESIGN CHOICE 1] -/
  live : Word := 0#32
  /-- Instantaneous phase voltages [03 R70; DESIGN CHOICE 1] -/
  vph : Tri3 12 := {}
  /-- The offsets [03 R86; DESIGN CHOICE 1] -/
  ofs : Tri3 10 := {}
  /-- OFS_BAD [03 R87; DESIGN CHOICE 1] -/
  ofsBad : BitVec 3 := 0#3
  /-- Samples dropped so far, by which the control die sees a new one [03 R66; DESIGN CHOICE 1] -/
  drops : Nat := 0
  /-- A calibration runs [03 R87; DESIGN CHOICE 1] -/
  calRun : Bool := false
  /-- The bank's latest VIN sample [03 R76; DESIGN CHOICE 1] -/
  vinRaw : BitVec 12 := 0#12
  /-- The mean of its latest 16 [03 R76; DESIGN CHOICE 1] -/
  vinAvg : BitVec 12 := 0#12
  /-- The bank's temperatures [03 R77; DESIGN CHOICE 1] -/
  temps : Vector (BitVec 16) 4 := Vector.replicate 4 0#16
  /-- VDRVb in units of 50 mV [02 R59; DESIGN CHOICE 1] -/
  vdrv : BitVec 8 := 0#8
  deriving DecidableEq, Repr

/-- The sensing of one axis (03). -/
structure Sns where
  /-- SNS_CFG as written [03 R84; R538] -/
  cfg : Word := 0x00000819#32
  /-- SNS_CFG as the driver die has it [03 R83; R538] -/
  cfgIn : Word := 0x00000819#32
  /-- SNS_CMP HEM_EN, OCH_THR and HEM_THR as written [03 R85; R538] -/
  cmp : Word := 0x0000FFFF#32
  /-- SNS_CMP as the driver die has it [03 R83; R538] -/
  cmpIn : Word := 0x0000FFFF#32
  /-- SNS_CMP CMP_LOCK [03 R85; R538] -/
  lock : Bool := false
  /-- The offsets on the driver die [03 R86; R538] -/
  ofsIn : Tri3 10 := {}
  /-- SNS_OFFSET [03 R86; R538] -/
  ofs : Tri3 10 := {}
  /-- OFS_BAD on the driver die [03 R87; R538] -/
  ofsBadIn : BitVec 3 := 0#3
  /-- SNS_STATUS OFS_BAD [03 R87; R538] -/
  ofsBad : BitVec 3 := 0#3
  /-- SNS_STATUS bits 24 to 21, in place [03 R87; R538] -/
  sticky : Word := 0#32
  /-- CREF of the latest completed calibration, for OFS_AGE [03 R87; R538] -/
  calAt : Option Nat := none
  /-- A calibration runs on the driver die [03 R81; DESIGN CHOICE 1] -/
  calRun : Bool := false
  /-- SNS_STATUS CAL_RUN, as the latest STATUS frame brought it [03 R87; R538] -/
  calShow : Bool := false
  /-- CREF of the latest tick taken of the series of automatic calibrations [03 R80; DESIGN CHOICE 1] -/
  calTickAt : Option Nat := none
  /-- Samples that the driver die has dropped [03 R66; DESIGN CHOICE 1] -/
  drops : Nat := 0
  /-- That number as the latest STATUS frame brought it [03 R75; DESIGN CHOICE 1] -/
  dropsSeen : Nat := 0
  /-- SNS_CAL CAL_REQ [03 R90; R538] -/
  calReq : Bool := false
  /-- CREF of the latest CAL_REQ made while a calibration ran [03 R80; DESIGN CHOICE 1] -/
  calReqAt : Nat := 0
  /-- CREF at which the running calibration began [03 R81; DESIGN CHOICE 1] -/
  calStart : Nat := 0
  /-- Calibration conversions counted [03 R81; DESIGN CHOICE 1] -/
  calCount : Nat := 0
  /-- Sums of their codes [03 R81; DESIGN CHOICE 1] -/
  calSum : Tri := {}
  /-- SNS_CUR_AB, SNS_CUR_C [03 R88; R538] -/
  cur : Tri3 14 := {}
  /-- SNS_VPH_AB, SNS_VPH_C [03 R88; R538] -/
  vph : Tri3 12 := {}
  /-- SNS_LINK SAMPLE_CNT [03 R89; R538] -/
  sampleCnt : BitVec 16 := 0#16
  /-- SNS_LINK CRC_CNT [03 R89; R538] -/
  crcCnt : BitVec 16 := 0#16
  /-- The running conversion [03 R66; DESIGN CHOICE 1] -/
  conv : Option Conv := none
  /-- CREF of the latest converted hold [03 R66; DESIGN CHOICE 1] -/
  holdAt : Option Nat := none
  /-- The latched integrals [03 R71; DESIGN CHOICE 1] -/
  vs : Tri3 24 := {}
  /-- One of them saturated [03 R71; DESIGN CHOICE 1] -/
  vsOvf : Bool := false
  /-- The alternating bit of INTEGRAL frames [03 R74; DESIGN CHOICE 1] -/
  alt : Bool := false
  /-- The phase voltages sampled at the latest closing [03 R74; DESIGN CHOICE 1] -/
  vphIn : Tri3 12 := {}
  /-- SAMPLE frames on the lanes, oldest first [03 R72; DESIGN CHOICE 1] -/
  laneS : List LaneFrame := []
  /-- INTEGRAL frames waiting or on the lanes, oldest first [03 R72; DESIGN CHOICE 1] -/
  laneI : List LaneFrame := []
  /-- The STATUS frame that waits for the lanes, with its due time [03 R75; DESIGN CHOICE 1] -/
  statusWait : Option (StatusRec × Nat) := none
  /-- The STATUS frame on the lanes, with the CREF of its end [03 R75; DESIGN CHOICE 1] -/
  statusSent : Option (StatusRec × Nat) := none
  /-- CREF of the latest due time of the STATUS grid [03 R75; DESIGN CHOICE 1] -/
  statusAt : Option Nat := none
  /-- CREF from which the lanes are free [03 R72; DESIGN CHOICE 1] -/
  laneEnd : Nat := 0
  /-- The control die's record of boundary pulses, oldest first [03 R544; DESIGN CHOICE 1] -/
  record : List Boundary := []
  /-- Holds whose frames have not arrived: the CREF of the hold, its window word and its feedback words [04 R111; DESIGN CHOICE 1] -/
  wins : List (Nat × Word × Vector Word 6) := []
  /-- Comparators active per phase [03 R68; DESIGN CHOICE 1] -/
  cmpActive : BitVec 3 := 0#3
  /-- HEM_THR taken at the low-side turn-on, per phase [03 R69; DESIGN CHOICE 1] -/
  hemThr : Tri3 8 := ⟨255#8, 255#8, 255#8⟩
  /-- OCH_THR taken at the low-side turn-on, per phase [03 R69; DESIGN CHOICE 1] -/
  ochThr : Tri3 8 := ⟨255#8, 255#8, 255#8⟩
  /-- CMP_BLANK taken at the low-side turn-on, per phase [03 R69; DESIGN CHOICE 1] -/
  cmpBlank : Tri3 6 := ⟨8#6, 8#6, 8#6⟩
  /-- The Hem comparator of a phase stands [03 R68; DESIGN CHOICE 1] -/
  hemNow : Bool := false
  /-- CREF of the latest frame of any type [15 R422; DESIGN CHOICE 1] -/
  frameAt : Nat := 0
  /-- Sample pulses scheduled or high on the trigger line: kind and CREF of the rise [04 R107; DESIGN CHOICE 1] -/
  trigHigh : Option (PulseKind × Nat) := none
  deriving DecidableEq, Repr

/-- The shadow group of a generator (04 R102). -/
structure PwmGroup where
  /-- PWM_PER [04 R121; R538] -/
  per : BitVec 16 := 4000#16
  /-- PWM_CMPA [04 R122; R538] -/
  cmpA : Word := 0x001FFFFF#32
  /-- PWM_CMPB [04 R122; R538] -/
  cmpB : Word := 0x001FFFFF#32
  /-- PWM_CMPC [04 R122; R538] -/
  cmpC : Word := 0x001FFFFF#32
  /-- PWM_DTA [04 R123; R538] -/
  dtA : Word := 0x05000500#32
  /-- PWM_DTB [04 R123; R538] -/
  dtB : Word := 0x05000500#32
  /-- PWM_DTC [04 R123; R538] -/
  dtC : Word := 0x05000500#32
  /-- PWM_PHASE [04 R124; R538] -/
  phase : BitVec 17 := 0#17
  /-- PWM_TRG [04 R124; R538] -/
  trg : Word := 0#32
  deriving DecidableEq, Repr

/-- The set-up registers of a generator outside the shadow group (04 R103). -/
structure PwmSetup where
  /-- PWM_CTRL [04 R120; R538] -/
  ctrl : Word := 0x00000111#32
  /-- PWM_TRG_CFG [04 R125; R538] -/
  trgCfg : Word := 0#32
  /-- PWM_WIN [04 R126; R538] -/
  win : Word := 0x00003C08#32
  /-- PWM_BST [04 R127; R538] -/
  bst : Word := 0x0008141E#32
  /-- PWM_HEM [04 R128; R538] -/
  hem : Word := 0x00001408#32
  /-- PWM_EVT [04 R129; R538] -/
  evt : Word := 0#32
  /-- PWM_DBG [04 R130; R538] -/
  dbg : Word := 0x00000100#32
  deriving DecidableEq, Repr

/-- Where the carrier counter stands (04 R93, R94). -/
inductive CntMode where
  /-- Not running: the domain is off or the delay lines are unlocked. -/
  | stopped
  /-- Holds at 0 for the first target zero, from a start. -/
  | waiting
  /-- Holds at 0 for the first target zero after a debug halt. -/
  | restarting
  | counting
  /-- Slips at a zero (R95). -/
  | slipping
  /-- Frozen by a debug halt (R119). -/
  | frozen
  deriving DecidableEq, Repr

/-- One phase of a generator. Times are in taps of CREF: 32 per cp. -/
structure PwmPhase where
  /-- High-side gate command [04 R98; DESIGN CHOICE 1] -/
  hi : Bool := false
  /-- Low-side gate command [04 R98; DESIGN CHOICE 1] -/
  lo : Bool := false
  /-- Turn-on of the present high pulse [04 R100; DESIGN CHOICE 1] -/
  hiAt : Int := 0
  /-- Turn-on of the present low pulse [04 R100; DESIGN CHOICE 1] -/
  loAt : Int := 0
  /-- A rise of the high command scheduled after a dead time [04 R98; DESIGN CHOICE 1] -/
  hiDue : Option Int := none
  /-- A rise of the low command scheduled after a dead time [04 R98; DESIGN CHOICE 1] -/
  loDue : Option Int := none
  /-- A fall of the high command delayed by R100 or R113 [04 R100; DESIGN CHOICE 1] -/
  hiFall : Option Int := none
  /-- A fall of the low command delayed by R100 or R113 [04 R100; DESIGN CHOICE 1] -/
  loFall : Option Int := none
  /-- A Gusset shift of the next down switching point, in taps [04 R109; DESIGN CHOICE 1] -/
  shiftDn : Int := 0
  /-- The compensating shift of the next up switching point [04 R109; DESIGN CHOICE 1] -/
  shiftUp : Int := 0
  /-- A refresh runs at this zero [04 R113; DESIGN CHOICE 1] -/
  refresh : Bool := false
  /-- End of the refresh on-time, once the low side is on [04 R113; DESIGN CHOICE 1] -/
  refreshEnd : Option Int := none
  /-- Consecutive zeros with a short or absent low pulse [04 R112; DESIGN CHOICE 1] -/
  shortRun : Nat := 0
  /-- That count before the latest zero, from which a cut within the pulse of that zero counts it anew [04 R112; DESIGN CHOICE 1] -/
  shortPrev : Nat := 0
  /-- CREF of a refresh request of the bootstrap early warning [04 R112; DESIGN CHOICE 1] -/
  request : Option Nat := none
  deriving DecidableEq, Repr

/-- The pulse-width generator of one axis (04). -/
structure Pwm where
  /-- The shadows of the group -/
  shadow : PwmGroup := {}
  /-- The group in force -/
  act : PwmGroup := {}
  /-- Set-up registers as written -/
  setup : PwmSetup := {}
  /-- Set-up registers in force -/
  now : PwmSetup := {}
  /-- The duty words E6 has stored since its last group, by phase [04 R104; DESIGN CHOICE 1] -/
  dutyHold : Vector (Option Word) 3 := Vector.replicate 3 none
  /-- A released duty group on its way to the shadows [01 R19; DESIGN CHOICE 1] -/
  dutyWait : Option (Word × Word × Word) := none
  /-- CREF at which that group is in the shadows [01 R22; DESIGN CHOICE 1] -/
  dutyAt : Nat := 0
  /-- The counter's mode [04 R94; DESIGN CHOICE 1] -/
  mode : CntMode := .stopped
  /-- PWM_CNT COUNT [04 R132; R538] -/
  count : Nat := 0
  /-- PWM_CNT DIR, down [04 R132; R538] -/
  down : Bool := false
  /-- PER of the half in progress [04 R93; DESIGN CHOICE 1] -/
  half : Nat := 4000
  /-- CREF at which the counter starts or leaves a slip [04 R94; DESIGN CHOICE 1] -/
  goAt : Nat := 0
  /-- Length in cp of the slip at the latest zero [04 R95; DESIGN CHOICE 1] -/
  slip : Nat := 0
  /-- Events of the half in progress already issued: bits 0 to 2 up switching points, 3 to 5 down, 6 and 7 TRG0 and TRG1 [04 R105; DESIGN CHOICE 1] -/
  issued : BitVec 8 := 0#8
  /-- PWM_PCOUNT [04 R132; R538] -/
  pcount : Word := 0#32
  /-- The three phases -/
  ph : Vector PwmPhase 3 := Vector.replicate 3 {}
  /-- A Hem cut is in force [04 R115; DESIGN CHOICE 1] -/
  hem : Bool := false
  /-- The cut holds the low sides off as well [04 R115; DESIGN CHOICE 1] -/
  hemLow : Bool := false
  /-- This period has had a Hem cut while switching [04 R117; DESIGN CHOICE 1] -/
  hemPeriod : Bool := false
  /-- PWM_STATUS HEM_RUN [04 R131; R538] -/
  hemRun : BitVec 8 := 0#8
  /-- PWM_STATUS bits 29 to 19, in place [04 R131; R538] -/
  sticky : Word := 0#32
  /-- PWM_STATUS GUS_CNT [04 R131; R538] -/
  gusCnt : BitVec 8 := 0#8
  /-- A Gusset shift was made for the coming zero [04 R109; DESIGN CHOICE 1] -/
  gusset : Bool := false
  /-- Phases marked narrow for the coming zero [04 R108; DESIGN CHOICE 1] -/
  narrow : BitVec 3 := 0#3
  /-- PWM_STATUS CHARGING [04 R131; R538] -/
  charging : Bool := false
  /-- Charging zeros so far [04 R114; DESIGN CHOICE 1] -/
  chargeZeros : Nat := 0
  /-- BST_OK is set on all phases: the axis leaves HOLD at the next update point [04 R114; DESIGN CHOICE 1] -/
  leaveHold : Bool := false
  /-- PWM_STATUS DBG_HALTED [04 R131; R538] -/
  dbgHalted : Bool := false
  /-- The output hold of a debug halt runs [04 R119; DESIGN CHOICE 1] -/
  dbgHold : Bool := false
  /-- CREF of the freeze [04 R119; DESIGN CHOICE 1] -/
  dbgAt : Nat := 0
  /-- The next SAMPLE frame is the first after a debug resume [04 R111; DESIGN CHOICE 1] -/
  resumed : Bool := false
  deriving DecidableEq, Repr

/-- What an action of the feedback interface may have to be done over from, when a command for the same
CKP edge comes that R146 puts before it (05 R146). -/
structure FbkBase where
  count : Nat := 0
  rev : Word := 0#32
  sticky : BitVec 8 := 0#8
  idxArm : Bool := false
  since : BitVec 8 := 0#8
  refAt : Option Nat := none
  n : Int := 0
  deriving DecidableEq, Repr

/-- The actions of one CKP edge after its counting edges (05 R146). -/
structure FbkEdge where
  /-- CREF of the edge [05 R146; DESIGN CHOICE 1] -/
  at_ : Nat
  /-- The interface after the edge's counts and before what follows [05 R146; DESIGN CHOICE 1] -/
  base : FbkBase
  /-- An index event [05 R144; DESIGN CHOICE 1] -/
  idx : Bool := false
  /-- The engines in which that event became pending [05 R146; DESIGN CHOICE 1] -/
  idxEv : BitVec 16 := 0#16
  /-- The engines in which it set EV_MERGE [05 R146; DESIGN CHOICE 1] -/
  idxMerge : BitVec 16 := 0#16
  /-- An auxiliary capture [05 R145; DESIGN CHOICE 1] -/
  aux : Bool := false
  /-- A preset, with the COUNT and REV it loads [05 R143; DESIGN CHOICE 1] -/
  preset : Option (Nat × Word) := none
  /-- A sample hold [05 R151; DESIGN CHOICE 1] -/
  hold : Bool := false
  deriving DecidableEq, Repr

/-- The feedback interface of one axis (05). -/
structure Fbk where
  /-- FBK_CTRL [05 R154; R538] -/
  ctrl : Word := 0#32
  /-- FBK_FILT [05 R155; R538] -/
  filt : Word := 0x00140404#32
  /-- FBK_CPR [05 R156; R538] -/
  cpr : Word := 0x00001000#32
  /-- FBK_IDX_CFG [05 R156; R538] -/
  idxCfg : Word := 0x04000000#32
  /-- FBK_SSI_CFG [05 R157; R538] -/
  ssiCfg : Word := 0x031400C7#32
  /-- FBK_SSI_FMT [05 R157; R538] -/
  ssiFmt : Word := 0x000D008D#32
  /-- FBK_LOSS_CFG [05 R156; R538] -/
  lossCfg : Word := 0x00000A04#32
  /-- FBK_CMD IDX_ARM [05 R158; R538] -/
  idxArm : Bool := false
  /-- FBK_PRESET_LO [05 R158; R538] -/
  presetLo : Word := 0#32
  /-- FBK_PRESET_HI [05 R158; R538] -/
  presetHi : Word := 0#32
  /-- FBK_POS_LO COUNT [05 R158; R538] -/
  count : Nat := 0
  /-- FBK_POS_HI REV [05 R158; R538] -/
  rev : Word := 0#32
  /-- FBK_IDX_LO [05 R158; R538] -/
  idxLo : Word := 0#32
  /-- FBK_IDX_HI [05 R158; R538] -/
  idxHi : Word := 0#32
  /-- FBK_AUX_LO [05 R158; R538] -/
  auxLo : Word := 0#32
  /-- FBK_AUX_HI [05 R158; R538] -/
  auxHi : Word := 0#32
  /-- FBK_IDX_ERR [05 R158; R538] -/
  idxErr : Word := 0#32
  /-- FBK_SPAN_N, FB_N at the latest hold [05 R158; R538] -/
  spanN : Word := 0#32
  /-- FBK_SPAN_T, FB_T at the latest hold [05 R158; R538] -/
  spanT : Word := 0#32
  /-- FBK_AGE, FB_AGE at the latest hold [05 R158; R538] -/
  age : Word := 0#32
  /-- FBK_SSI_RAW_LO, _HI [05 R158; R538] -/
  ssiRaw : Dword := 0#64
  /-- FBK_STATUS LOSS by illegal transitions or SSI misses [05 R159; R538] -/
  lossIll : Bool := false
  /-- FBK_STATUS LOSS by an invalid Hall code [05 R159; R538] -/
  lossHall : Bool := false
  /-- FBK_STATUS DIR, 1 backward [05 R159; R538] -/
  dir : Bool := false
  /-- FBK_STATUS LEVEL, accepted levels QA, QB, QI, QX at bits 0 to 3 [05 R159; R538] -/
  levels : BitVec 4 := 0#4
  /-- FBK_STATUS ILL_LEAK [05 R159; R538] -/
  leak : BitVec 8 := 0#8
  /-- FBK_STATUS bits 7 to 0 [05 R159; R538] -/
  sticky : BitVec 8 := 0#8
  /-- QI was high with its gate levels at the latest edge [05 R144; DESIGN CHOICE 1] -/
  idxHeld : Bool := false
  /-- The actions of the latest CKP edge that had one [05 R146; DESIGN CHOICE 1] -/
  edge : Option FbkEdge := none
  /-- CREF of the latest leak tick taken [05 R152; DESIGN CHOICE 1] -/
  leakAt : Option Nat := none
  /-- CREF of the latest accepted edge on a counting input [05 R135; DESIGN CHOICE 1] -/
  edgeAt : Option Nat := none
  /-- Last valid Hall sector, none after entry or a base change [05 R138; DESIGN CHOICE 1] -/
  sector : Option (Fin 6) := none
  /-- The Hall code is invalid [05 R138; DESIGN CHOICE 1] -/
  hallInvalid : Bool := false
  /-- CREF since which it has been invalid [05 R152; DESIGN CHOICE 1] -/
  hallInvAt : Nat := 0
  /-- Direction of the previous counted edge, backward true [05 R149; DESIGN CHOICE 1] -/
  lastDir : Option Bool := none
  /-- Counted edges in a row against DIR [05 R150; DESIGN CHOICE 1] -/
  dirRun : Nat := 0
  /-- CREF of the reference edge of the span [05 R148; DESIGN CHOICE 1] -/
  refAt : Option Nat := none
  /-- N of the span in progress [05 R148; DESIGN CHOICE 1] -/
  n : Int := 0
  /-- CREF of the last counted edge, or of the restart [05 R148; DESIGN CHOICE 1] -/
  lastAt : Nat := 0
  /-- FB_STAT bits since the previous hold: 7 PRESET, 4 INDEX, 3 ILLEGAL, 2 REVERSAL [05 R151; DESIGN CHOICE 1] -/
  since : BitVec 8 := 0#8
  /-- The SSI frame in flight, as the CREF of its trigger [05 R139; DESIGN CHOICE 1] -/
  ssi : Option Nat := none
  /-- CREF of the last rising clock edge of the previous frame [05 R140; DESIGN CHOICE 1] -/
  ssiLastRise : Option Nat := none
  /-- Field of the latest valid SSI frame [05 R141; DESIGN CHOICE 1] -/
  ssiField : Option Nat := none
  /-- CREF of the trigger of the latest valid frame [05 R148; DESIGN CHOICE 1] -/
  ssiTrigAt : Nat := 0
  /-- N of SSI: change of L between the two latest valid frames [05 R148; DESIGN CHOICE 1] -/
  ssiN : Int := 0
  /-- T of SSI: cp between their triggers [05 R148; DESIGN CHOICE 1] -/
  ssiT : Nat := 0
  /-- The latest frame was invalid [05 R151; DESIGN CHOICE 1] -/
  ssiLastBad : Bool := false
  /-- Consecutive invalid or skipped frames [05 R152; DESIGN CHOICE 1] -/
  ssiMiss : Nat := 0
  /-- The six feedback words latched at the latest hold [05 R151; DESIGN CHOICE 1] -/
  words : Vector Word 6 := Vector.replicate 6 0#32
  deriving DecidableEq, Repr

/-- STATE of the axis state word (06 R165). -/
inductive AxState where
  | hold | charging | starting | run | stopping | safe
  deriving DecidableEq, Repr

/-- MODE of the axis state word (06 R165). -/
inductive AxMode where
  | torque | speed | position | fan
  deriving DecidableEq, Repr

/-- Step of a Basting attempt (07 R202, R205). -/
inductive StartStep where
  | none | align | ramp | wait
  deriving DecidableEq, Repr

/-- A segment that runs or whose end E10 holds (06 R188). -/
structure SegRun where
  /-- The 40 bytes of the segment [06 R188; DESIGN CHOICE 1] -/
  seg : List Byte
  /-- CREF at which it began [06 R188; DESIGN CHOICE 1] -/
  beganAt : Nat
  /-- It has ended and E10 holds p(D), rounded [06 R189; DESIGN CHOICE 1] -/
  ended : Option Int
  deriving DecidableEq, Repr

/-- What a RIPPLE sweep has gathered in one bin (08 R224). -/
structure RipBin where
  /-- Sum of E1.1 over the forward steps, in units of 2^−149 A [08 R224; DESIGN CHOICE 1] -/
  fwd : Int := 0
  /-- Forward steps [08 R224; DESIGN CHOICE 1] -/
  nFwd : Nat := 0
  /-- Sum over the backward steps [08 R224; DESIGN CHOICE 1] -/
  bwd : Int := 0
  /-- Backward steps [08 R224; DESIGN CHOICE 1] -/
  nBwd : Nat := 0
  /-- Times that it has been passed forward [08 R224; DESIGN CHOICE 1] -/
  passF : Nat := 0
  /-- Times that it has been passed backward [08 R224; DESIGN CHOICE 1] -/
  passB : Nat := 0
  deriving DecidableEq, Repr

/-- A running sum in units of 2^−149, and the number of its terms. -/
structure Mean where
  sum : Int := 0
  cnt : Nat := 0
  deriving DecidableEq, Repr

/-- The sweep of a Fitting on one axis (08 R223 to R225). -/
structure Sweep where
  /-- KIND [08 R219; DESIGN CHOICE 1] -/
  kind : FitKind
  /-- The operands of the Fitting [08 R219; DESIGN CHOICE 1] -/
  op : FitOp
  /-- Number of the step of the sweep [08 R223; DESIGN CHOICE 1] -/
  step : Nat := 0
  /-- CREF at which that step began [08 R223; DESIGN CHOICE 1] -/
  at_ : Nat
  /-- The sweep is over [08 R223; DESIGN CHOICE 1] -/
  over_ : Bool := false
  /-- L at the start [08 R221; DESIGN CHOICE 1] -/
  startL : Int
  /-- Current steps taken in a square wave [08 R223; DESIGN CHOICE 1] -/
  cnt : Nat := 0
  /-- Current or speed at the beginning of the half wave [08 R223; DESIGN CHOICE 1] -/
  mark : Word := 0#32
  /-- CREF of that beginning [08 R223; DESIGN CHOICE 1] -/
  markAt : Nat := 0
  /-- The forced angle of MOTOR_ID [08 R223; DESIGN CHOICE 1] -/
  theta : Word := 0#32
  /-- Its speed [08 R223; DESIGN CHOICE 1] -/
  omega : Word := 0#32
  /-- The means of MOTOR_ID and INERTIA [08 R223; DESIGN CHOICE 1] -/
  mean : Vector Mean 8 := Vector.replicate 8 {}
  /-- RIPPLE turns backward [08 R224; DESIGN CHOICE 1] -/
  back : Bool := false
  /-- L at which it took that direction [08 R224; DESIGN CHOICE 1] -/
  legL : Int := 0
  /-- The bin of the latest step, not wrapped [08 R224; DESIGN CHOICE 1] -/
  lastBin : Option Int := none
  /-- The bins that a step has fallen into or passed [08 R224; DESIGN CHOICE 1] -/
  bins : List (Nat × RipBin) := []
  /-- f_top of RESONANCE [08 R223; DESIGN CHOICE 1] -/
  fTop : Word := 0#32
  /-- Correlations of E4.3 and i_q with cosine and sine at each frequency, in units of 2^−211 [08 R223; DESIGN CHOICE 1] -/
  corr : List (Int × Int × Int × Int) := []
  deriving DecidableEq, Repr

/-- A half period of the carrier whose closing has arrived, or is known to be missing, since the latest
current step (06 R173, R174). -/
structure Half where
  /-- Its integrals [06 R173; DESIGN CHOICE 1] -/
  vs : Tri3 24 := {}
  /-- They did not arrive, or arrived with VS_OVF [06 R174; DESIGN CHOICE 1] -/
  bad : Bool := false
  /-- It closed at a peak [03 R544; DESIGN CHOICE 1] -/
  peak : Bool := false
  /-- The compares that commanded it [06 R174; DESIGN CHOICE 1] -/
  cmp : Vector Word 3 := Vector.replicate 3 0#32
  /-- Its PER [06 R174; DESIGN CHOICE 1] -/
  per : Nat := 4000
  /-- They carry RESUMED [06 R174; DESIGN CHOICE 1] -/
  resumed : Bool := false
  deriving DecidableEq, Repr

/-- What the vendor chain of one axis keeps between steps, beside its public words (06). Float
values are binary32. -/
structure Chain where
  /-- STATE of E12.2 [06 R165; DESIGN CHOICE 1] -/
  st : AxState := .hold
  /-- MODE of E12.2 [06 R165; DESIGN CHOICE 1] -/
  mode : AxMode := .torque
  /-- REDUCED of E12.2 [06 R165; DESIGN CHOICE 1] -/
  reduced : Bool := false
  /-- REFUSE of E12.2 [06 R165; DESIGN CHOICE 1] -/
  refuse : BitVec 8 := 0#8
  /-- FALLBACK of E12.2 [06 R165; DESIGN CHOICE 1] -/
  fallback : Bool := false
  /-- LIMITED of E12.2 [06 R165; DESIGN CHOICE 1] -/
  limited : Bool := false
  /-- REGEN_LIMITED of E12.2 [06 R165; DESIGN CHOICE 1] -/
  regenLimited : Bool := false
  /-- DERATED of E12.2 [06 R165; DESIGN CHOICE 1] -/
  derated : Bool := false
  /-- Last good value of each parameter and reference, by signal word [06 R162; DESIGN CHOICE 1] -/
  good : Mem 32 := []
  /-- The stages' own values of the outputs that they take on from one activation to the next, by signal word [06 R161; DESIGN CHOICE 1] -/
  own : Mem 32 := []
  /-- The requests of E12 that were last good, i_d and i_q [06 R191; DESIGN CHOICE 1] -/
  goodReq : Vector Word 2 := Vector.replicate 2 0#32
  /-- A SAMPLE frame waits for a current step at this axis: it was a boundary sample at a zero, or at a peak in BOTH [06 R164; DESIGN CHOICE 1] -/
  curDue : Bool := false
  /-- A speed step is due [06 R164; DESIGN CHOICE 1] -/
  spdDue : Bool := false
  /-- A position step is due [06 R164; DESIGN CHOICE 1] -/
  posDue : Bool := false
  /-- Number of the latest sampling step by its PCOUNT, when one has come since the last restart [06 R169; DESIGN CHOICE 1] -/
  lastPc : Option Nat := none
  /-- PCOUNT of the sample being conditioned [06 R164; DESIGN CHOICE 1] -/
  thisPc : Word := 0#32
  /-- That sample is at a peak [06 R164; DESIGN CHOICE 1] -/
  thisPeak : Bool := false
  /-- CREF of the hold of the latest current step [06 R164; DESIGN CHOICE 1] -/
  lastHold : Option Nat := none
  /-- CREF of the hold of the sample being conditioned [06 R164; DESIGN CHOICE 1] -/
  thisHold : Nat := 0
  /-- Consecutive failed current steps [06 R170; DESIGN CHOICE 1] -/
  failRun : Nat := 0
  /-- Consecutive UNUSABLE steps at zeros [06 R170; DESIGN CHOICE 1] -/
  unusRun : Nat := 0
  /-- That run has passed UNUS_LIMIT, and CURRENT_SUM has been raised for it [06 R170; DESIGN CHOICE 1] -/
  unusMet : Bool := false
  /-- E13's run of violating steps has reached TQ_N, and TORQUE_CHECK has been raised for it [06 R193; DESIGN CHOICE 1] -/
  tqMet : Bool := false
  /-- Half periods closed since the previous current step, oldest first [06 R173; DESIGN CHOICE 1] -/
  halves : List Half := []
  /-- Current steps for which c may not rise [06 R176; DESIGN CHOICE 1] -/
  confHold : Nat := 0
  /-- ψ_s α and β, i α and β, corr α and β of the previous step [06 R175; DESIGN CHOICE 1] -/
  psi : Vector Word 6 := Vector.replicate 6 0#32
  /-- CREF from which the plausibility conditions have held [06 R179; DESIGN CHOICE 1] -/
  plausFrom : Option Nat := none
  /-- CREF of the latest SP_DONE in E4 [06 R180; DESIGN CHOICE 1] -/
  spDoneAt : Option Nat := none
  /-- A new SP_DONE has come since the WORD source became invalid [06 R180; DESIGN CHOICE 1] -/
  wordValid : Bool := false
  /-- Previous mechanical angle of the WORD source, for the unwrapping of L [06 R178; DESIGN CHOICE 1] -/
  wordPrev : Option Word := none
  /-- u[k−1], d and q [06 R181; DESIGN CHOICE 1] -/
  u : Vector Word 2 := Vector.replicate 2 0#32
  /-- î predicted for this step, d and q [06 R181; DESIGN CHOICE 1] -/
  ihat : Vector Word 2 := Vector.replicate 2 0#32
  /-- E8's integral xi [06 R186; DESIGN CHOICE 1] -/
  xi : Word := 0#32
  /-- ω_m of the previous speed step [06 R186; DESIGN CHOICE 1] -/
  wmPrev : Word := 0#32
  /-- i_q reference of the previous speed step [06 R186; DESIGN CHOICE 1] -/
  iqPrev : Word := 0#32
  /-- CREF of the latest speed step [06 R186; DESIGN CHOICE 1] -/
  lastSpd : Option Nat := none
  /-- E11's filter memories: two inputs and two outputs for each of five sections [06 R190; DESIGN CHOICE 1] -/
  e11 : Vector Word 20 := Vector.replicate 20 0#32
  /-- E10's running segment [06 R188; DESIGN CHOICE 1] -/
  seg : Option SegRun := none
  /-- What a write from outside left in E12.2, with E12's own word at that time [06 R161, 10 R285; DESIGN CHOICE 1] -/
  put122 : Option (Word × Word) := none
  /-- E13's own copy of R_SHUNT [06 R193; DESIGN CHOICE 1] -/
  rShunt13 : Word := 0x3B03126F#32
  /-- E13's own copy of the gain code [06 R193; DESIGN CHOICE 1] -/
  gain13 : BitVec 2 := 1#2
  /-- The step of the start attempt [07 R202; DESIGN CHOICE 1] -/
  start : StartStep := .none
  /-- Attempt number a [07 R202; DESIGN CHOICE 1] -/
  attempt : Nat := 0
  /-- START_FAIL has been raised in this start of a FAN axis [07 R215; DESIGN CHOICE 1] -/
  failRaised : Bool := false
  /-- CREF at which the attempt, the alignment or the wait began [07 R205; DESIGN CHOICE 1] -/
  startAt : Nat := 0
  /-- θ_f [07 R202; DESIGN CHOICE 1] -/
  thetaF : Word := 0#32
  /-- ω_f [07 R202; DESIGN CHOICE 1] -/
  omegaF : Word := 0#32
  /-- E4.0 held when the axis last left RUN or STOPPING [07 R202; DESIGN CHOICE 1] -/
  carry : Option Word := none
  /-- Travel of the attempt, degrees, once it counts [07 R204; DESIGN CHOICE 1] -/
  travel : Option Word := none
  /-- Backward travel [07 R204; DESIGN CHOICE 1] -/
  back : Word := 0#32
  /-- Consecutive qualifying steps [07 R203; DESIGN CHOICE 1] -/
  hoRun : Nat := 0
  /-- A current step found that the attempt has failed [07 R205; DESIGN CHOICE 1] -/
  failDue : Bool := false
  /-- The start record in force: 48 bytes as read at the attempt [07 R198; DESIGN CHOICE 1] -/
  startRec : List Byte := []
  /-- The stop record in force, as read at the stop [07 R198; DESIGN CHOICE 1] -/
  stopRec : List Byte := []
  /-- CREF at which the stop began [07 R209; DESIGN CHOICE 1] -/
  stopAt : Nat := 0
  /-- ω_m at the start of the stop [07 R208; DESIGN CHOICE 1] -/
  wStart : Word := 0#32
  /-- w_r of the stop ramp [07 R208; DESIGN CHOICE 1] -/
  wr : Word := 0#32
  /-- Consecutive speed steps at low speed [07 R209; DESIGN CHOICE 1] -/
  lowRun : Nat := 0
  /-- The stop is in short brake [07 R209; DESIGN CHOICE 1] -/
  shortBrake : Bool := false
  /-- CREF from which the stall conditions have held [07 R206; DESIGN CHOICE 1] -/
  stallFrom : Option Nat := none
  /-- CREF of the latest tach edge seen by a hold [07 R216; DESIGN CHOICE 1] -/
  tachAt : Nat := 0
  /-- Held in a hard short brake [07 R214; R538] -/
  hardBrake : Bool := false
  /-- Marked for the release of the hard short brake at the next zero [07 R214; DESIGN CHOICE 1] -/
  hardRelease : Bool := false
  /-- The sweep that runs on the axis [08 R223; DESIGN CHOICE 1] -/
  sweep : Option Sweep := none
  /-- CREF of the latest entry into HOLD, from which the calibration series counts [03 R80; DESIGN CHOICE 1] -/
  holdAt : Option Nat := none
  /-- A completed offset calibration since the bank powered up [06 R168; DESIGN CHOICE 1] -/
  calDone : Bool := false
  /-- MODE_REQ was written by AXIS_MODE and its descriptor waits [11 R327; DESIGN CHOICE 1] -/
  modeWait : Bool := false
  deriving DecidableEq, Repr

/-- The regen governor (07). -/
structure Gov where
  /-- PWR_GOV_CTRL [07 R218; R538] -/
  ctrl : Word := 0x00000015#32
  /-- PWR_GOV_LVL [07 R218; R538] -/
  lvl : Word := 0x0E100D20#32
  /-- PWR_GOV_CFG [07 R218; R538] -/
  cfg : Word := 0x14140064#32
  /-- PWR_GOV_BRK(b) [07 R218; R538] -/
  brk : Vector Word 8 := Vector.replicate 8 0#32
  /-- The registers as the latest tick took them: CTRL, LVL, CFG [07 R218; R538] -/
  ctrlNow : Word := 0x00000015#32
  /-- LVL in force [07 R218; R538] -/
  lvlNow : Word := 0x0E100D20#32
  /-- CFG in force [07 R218; R538] -/
  cfgNow : Word := 0x14140064#32
  /-- BRK in force [07 R218; R538] -/
  brkNow : Vector Word 8 := Vector.replicate 8 0#32
  /-- PWR_GOV_MASK_LO, _HI [07 R218; R538] -/
  mask : Dword := 0#64
  /-- PWR_GOV_STATUS ACTIVE [07 R218; R538] -/
  active : Bool := false
  /-- PWR_GOV_STATUS HARD [07 R218; R538] -/
  hard : Bool := false
  /-- PWR_GOV_STATUS STALE [07 R218; R538] -/
  stale : Bool := false
  /-- PWR_GOV_STATUS WR_REJECT [07 R218; R538] -/
  wrReject : Bool := false
  /-- PWR_GOV_STATUS HARD_CNT [07 R218; R538] -/
  hardCnt : BitVec 16 := 0#16
  /-- Consecutive ticks with V below VIN_SOFT − 1.0 V [07 R212; DESIGN CHOICE 1] -/
  low : Nat := 0
  /-- CREF of the latest tick [07 R212; DESIGN CHOICE 1] -/
  tickAt : Nat := 0
  /-- CREF of the latest write of the regen mask [07 R213; DESIGN CHOICE 1] -/
  maskAt : Nat := 0
  /-- CREF from which T_HARD runs [07 R214; DESIGN CHOICE 1] -/
  hardAt : Nat := 0
  deriving DecidableEq, Repr

/-- A committed or pending Pattern (08 R226): header fields that the module reads, and the payload. -/
structure Pattern where
  /-- The whole Pattern, header first [08 R226; DESIGN CHOICE 1] -/
  bytes : List Byte
  deriving DecidableEq, Repr

/-- A Pattern under its axis and kind. -/
structure PatKey where
  axis : AxisId
  kind : FitKind
  pat : Pattern
  deriving DecidableEq, Repr

/-- The two slots of the Pattern store for an axis and kind (08 R230). -/
structure PatSlots where
  /-- The axis [08 R230; DESIGN CHOICE 1] -/
  axis : AxisId
  /-- The kind [08 R230; DESIGN CHOICE 1] -/
  kind : FitKind
  /-- The Pattern in each slot, none where it holds no whole one [08 R230; DESIGN CHOICE 1] -/
  slot : Vector (Option Pattern) 2 := Vector.replicate 2 none
  /-- The slot marked current [08 R230; DESIGN CHOICE 1] -/
  cur : Option (Fin 2) := none
  deriving DecidableEq, Repr

/-- A Fitting that waits or runs (08 R219). -/
structure Fit where
  /-- Its descriptor [08 R220; DESIGN CHOICE 1] -/
  hdr : DescHdr
  /-- KIND [08 R219; DESIGN CHOICE 1] -/
  kind : FitKind
  /-- Its operands [08 R219; DESIGN CHOICE 1] -/
  op : FitOp
  /-- The sweep has begun [08 R220; DESIGN CHOICE 1] -/
  started : Bool := false
  /-- Almanac time at which it began [08 R226; DESIGN CHOICE 1] -/
  startTime : Dword := 0#64
  /-- L of each axis at the start, lowest axis first [08 R221; DESIGN CHOICE 1] -/
  startL : List (AxisId × Int) := []
  /-- MODE of each axis before the sweep [08 R221; DESIGN CHOICE 1] -/
  prevMode : List (AxisId × AxMode) := []
  /-- The sweep has ended; the descriptor waits for HOLD with this status and reason [08 R222; DESIGN CHOICE 1] -/
  ending : Option (Status × BitVec 8) := none
  /-- Almanac holdover was met during the sweep [08 R238; DESIGN CHOICE 1] -/
  holdover : Bool := false
  deriving DecidableEq, Repr

/-- A posted store on its way (09 R256). -/
structure PStore where
  /-- Engine byte address [09 R253; DESIGN CHOICE 1] -/
  addr : Word
  /-- The word stored [09 R256; DESIGN CHOICE 1] -/
  val : Word
  /-- The second word of an ST2 [09 R260; DESIGN CHOICE 1] -/
  val2 : Option Word := none
  /-- Its place among the engine's stores and posts [09 R260; DESIGN CHOICE 1] -/
  seq : Nat := 0
  deriving DecidableEq, Repr

/-- A load that the engine waits on (09 R256). -/
structure PLoad where
  /-- Engine byte address [09 R253; DESIGN CHOICE 1] -/
  addr : Word
  /-- Destination register [09 R250; DESIGN CHOICE 1] -/
  d : GReg
  /-- LD2 [09 R260; DESIGN CHOICE 1] -/
  two : Bool
  deriving DecidableEq, Repr

/-- State of an engine (09 R276). -/
inductive EngState where
  | stopped | waiting | active | halted
  deriving DecidableEq, Repr

/-- A mailbox post on its way (09 R265). -/
structure Post where
  /-- The target's cluster [09 R265; DESIGN CHOICE 1] -/
  to_ : AxisId
  /-- The target engine [09 R265; DESIGN CHOICE 1] -/
  eng : EngId
  /-- The sending engine [09 R265; DESIGN CHOICE 1] -/
  sender : AxisId × EngId
  /-- The payload [09 R265; DESIGN CHOICE 1] -/
  val : Word
  /-- Its place among the engine's stores and posts [09 R260; DESIGN CHOICE 1] -/
  seq : Nat := 0
  deriving DecidableEq, Repr

/-- One YEI engine (09). -/
structure Eng where
  /-- General registers g0 to g31 [09 R246; DESIGN CHOICE 1] -/
  g : Vector Word 32 := Vector.replicate 32 0#32
  /-- Instruction index [09 R250; DESIGN CHOICE 1] -/
  pc : BitVec 11 := 0#11
  /-- FLAGS: bit 0 Z, 1 N, 2 C, 3 V, 4 Q, 5 X [09 R252; DESIGN CHOICE 1] -/
  flags : BitVec 6 := 0#6
  /-- EVPEND, without MBOX and SAMPLE, which are levels [09 R262; DESIGN CHOICE 1] -/
  ev : Word := 0#32
  /-- Mailbox entries, sender and payload, oldest first [09 R265; DESIGN CHOICE 1] -/
  mbox : List (Word × Word) := []
  /-- MBOX_SRC [09 R252; DESIGN CHOICE 1] -/
  mboxSrc : Word := 0#32
  /-- ACT [09 R252; DESIGN CHOICE 1] -/
  act : Word := 0#32
  /-- CREF at which the current activation began [09 R252; DESIGN CHOICE 1] -/
  actAt : Nat := 0
  /-- The latched CREF_HI [09 R252; DESIGN CHOICE 1] -/
  crefHi : Word := 0#32
  /-- CLU_BUDGET [09 R279; R538] -/
  budget : BitVec 20 := 0#20
  /-- CLU_ACT_MAX [09 R279; R538] -/
  actMax : Word := 0#32
  /-- CLU_ENG_STATUS bits 6 to 1, in place [09 R278; R538] -/
  sticky : BitVec 7 := 0#7
  /-- CLU_ENG_STATUS LOADED [09 R278; R538] -/
  loaded : Bool := false
  /-- CLU_ENG_STATE [09 R276; R538] -/
  st : EngState := .stopped
  /-- The state to return to when the debugger resumes it [16 R460; DESIGN CHOICE 1] -/
  haltedFrom : EngState := .stopped
  /-- CREF at which the debugger halted it [09 R266; DESIGN CHOICE 1] -/
  haltedAt : Nat := 0
  /-- Mask and destination of the WAITEV it waits in [09 R263; DESIGN CHOICE 1] -/
  wait : Option (GReg × Word) := none
  /-- Posted stores in flight, oldest first [09 R256; DESIGN CHOICE 1] -/
  stores : List PStore := []
  /-- The number of its stores and posts so far [09 R260; DESIGN CHOICE 1] -/
  seq : Nat := 0
  /-- How long a vendor stage's activation lasts, ce: a free value [09 R266; DESIGN CHOICE 1] -/
  len : Word := 0#32
  /-- The load it waits on [09 R256; DESIGN CHOICE 1] -/
  load : Option PLoad := none
  /-- Waits in FENCE [09 R260; DESIGN CHOICE 1] -/
  fence : Bool := false
  /-- DEADLINE was raised in this activation [09 R266; DESIGN CHOICE 1] -/
  missed : Bool := false
  /-- Carrier period at the start of the activation, cp [09 R266; DESIGN CHOICE 1] -/
  period : Nat := 8000
  /-- Commit epoch stamped on the activation [10 R291; DESIGN CHOICE 1] -/
  epoch : Nat := 0
  /-- Private data words 1,024 to 2,047 [09 R253; DESIGN CHOICE 1] -/
  priv : Mem 32 := []
  /-- Instruction SRAM [09 R253; DESIGN CHOICE 1] -/
  imem : Mem 32 := []
  deriving DecidableEq, Repr

/-- A sample frame in E0's queue (09 R264). -/
structure SampleIn where
  /-- The frame [03 R73; DESIGN CHOICE 1] -/
  frame : LaneFrame
  /-- Its window word [04 R111; DESIGN CHOICE 1] -/
  win : Word
  /-- Its feedback words [05 R151; DESIGN CHOICE 1] -/
  fb : Vector Word 6
  /-- The boundary whose closing it carries, when it was at one [03 R544; DESIGN CHOICE 1] -/
  closing : Option Boundary
  deriving DecidableEq, Repr

/-- The cluster of one axis, beside its engines (09). -/
structure Clu where
  /-- CLU_CTRL [09 R274; R538] -/
  ctrl : Word := 0#32
  /-- CLU_STATUS RECOVERING [09 R275; R538] -/
  recovering : Bool := false
  /-- CLU_STATUS ROLE, coordination [09 R275; R538] -/
  role : Bool := false
  /-- CLU_STATUS RECOVER_CNT [09 R275; R538] -/
  recoverCnt : BitVec 8 := 0#8
  /-- CLU_STATUS LAST_ENGINE [09 R275; R538] -/
  lastEngine : BitVec 4 := 0#4
  /-- CLU_STATUS LAST_CAUSE [09 R275; R538] -/
  lastCause : BitVec 2 := 0#2
  /-- CLU_MISS [09 R277; R538] -/
  miss : Word := 0#32
  /-- CLU_ECC CORR_CNT [09 R277; R538] -/
  corrCnt : BitVec 16 := 0#16
  /-- The engines -/
  eng : Vector Eng 16 := Vector.replicate 16 {}
  /-- CTM by 32-bit word [09 R257; DESIGN CHOICE 1] -/
  ctm : Mem 32 := []
  /-- Header and coverage bitmap of the ripple Pattern in CTM [08 R229; DESIGN CHOICE 1] -/
  ripHdr : List Byte := []
  /-- P₀: the ripple Pattern as last loaded, by bin [08 R234; DESIGN CHOICE 1] -/
  p0 : Mem 32 := []
  /-- Refit's low-pass of i_dem [08 R234; DESIGN CHOICE 1] -/
  refitLp : Word := 0#32
  /-- Refit is suspended while a copy runs [08 R236; DESIGN CHOICE 1] -/
  refitHold : Bool := false
  /-- E0's queue of sample frames, oldest first [09 R264; DESIGN CHOICE 1] -/
  frames : List SampleIn := []
  /-- Engines that the debugger holds halted [16 R460; DESIGN CHOICE 1] -/
  dbg : BitVec 16 := 0#16
  deriving DecidableEq, Repr

/-- One axis: everything that serves one motor (01 R8). -/
structure Axis where
  gdr : Gdr := {}
  sns : Sns := {}
  pwm : Pwm := {}
  fbk : Fbk := {}
  ch : Chain := {}
  clu : Clu := {}
  deriving DecidableEq, Repr

/-- State of a Seam slot (10 R280). -/
inductive SeamSt where
  | free | opened | armed | staged | retiring
  deriving DecidableEq, Repr

/-- What an activation older than a commit still reads (10 R291): a word and its old value. -/
structure OldVal where
  /-- The word is in CTM, else a signal word [10 R293; DESIGN CHOICE 1] -/
  ctm : Bool
  /-- Signal address, or cluster and CTM word index as 16384 n + k [10 R293; DESIGN CHOICE 1] -/
  addr : Nat
  /-- The old value [10 R293; DESIGN CHOICE 1] -/
  old : Word
  deriving DecidableEq, Repr

/-- A Seam slot (10). -/
structure SeamSlot where
  /-- SEAM_SLOT STATE [10 R303; R538] -/
  st : SeamSt := .free
  /-- SEAM_SLOT GEN [10 R303; R538] -/
  gen : BitVec 10 := 0#10
  /-- AXES [10 R281; DESIGN CHOICE 1] -/
  axes : Dword := 0#64
  /-- SEG_GO [10 R281; DESIGN CHOICE 1] -/
  segGo : Bool := false
  /-- Entries in order [10 R283; DESIGN CHOICE 1] -/
  entries : List SeamEntry := []
  /-- The SEAM_ARM descriptor [10 R286; DESIGN CHOICE 1] -/
  hdr : Option DescHdr := none
  /-- POINT [10 R286; DESIGN CHOICE 1] -/
  point : BitVec 8 := 0#8
  /-- LATE_POLICY DEFER [10 R286; DESIGN CHOICE 1] -/
  defer : Bool := false
  /-- REF_AXIS [10 R286; DESIGN CHOICE 1] -/
  refAxis : Fin 64 := 0
  /-- AT [10 R286; DESIGN CHOICE 1] -/
  at_ : Dword := 0#64
  /-- DEFER_STEP [10 R286; DESIGN CHOICE 1] -/
  deferStep : Dword := 0#64
  /-- Arm order [10 R295; DESIGN CHOICE 1] -/
  order : Nat := 0
  /-- Staging has begun [10 R288; DESIGN CHOICE 1] -/
  staging : Bool := false
  /-- CREF at which staging completed [10 R288; DESIGN CHOICE 1] -/
  stagedAt : Nat := 0
  /-- Deferrals [10 R294; DESIGN CHOICE 1] -/
  deferrals : Nat := 0
  /-- The decision edge has passed with go [10 R289; DESIGN CHOICE 1] -/
  decided : Bool := false
  /-- CREF of T, as the decision edge fixes it [10 R289; DESIGN CHOICE 1] -/
  dueT : Nat := 0
  /-- CREF of T once it has been reached [10 R287; DESIGN CHOICE 1] -/
  t : Option Nat := none
  /-- Almanac time of T [10 R294; DESIGN CHOICE 1] -/
  tAlm : Dword := 0#64
  /-- Commit epoch of this Seam [10 R291; DESIGN CHOICE 1] -/
  epoch : Nat := 0
  /-- Old values for older activations [10 R293; DESIGN CHOICE 1] -/
  olds : List OldVal := []
  deriving DecidableEq, Repr

/-- A snapshot that waits (10 R297). -/
structure Snap where
  hdr : DescHdr
  trigger : BitVec 8
  event : BitVec 8
  ref : BitVec 8
  handle : BitVec 16
  at_ : Dword
  list : List Word
  dest : Dword
  /-- CREF at which it was decoded -/
  from_ : Nat := 0
  /-- CREF and Almanac time of T, once it has been resolved [10 R298; DESIGN CHOICE 1] -/
  t : Option (Nat × Dword) := none
  /-- The values of its register entries, latched on T; 0 for a signal word [10 R298; DESIGN CHOICE 1] -/
  regs : Option (List Word) := none
  deriving DecidableEq, Repr

/-- Seams and snapshots (10). -/
structure SeamUnit where
  /-- The 64 slots -/
  slot : Vector SeamSlot 64 := Vector.replicate 64 {}
  /-- SEAM_EPOCH [10 R303; R538] -/
  epoch : Word := 0#32
  /-- SEAM_COUNT ABORT_CNT [10 R303; R538] -/
  abortCnt : BitVec 16 := 0#16
  /-- SEAM_COUNT COMMIT_CNT [10 R303; R538] -/
  commitCnt : BitVec 16 := 0#16
  /-- SEAM_LAST [10 R303; R538] -/
  last : Word := 0#32
  /-- Arms so far, for the arm order [10 R295; DESIGN CHOICE 1] -/
  arms : Nat := 0
  /-- Snapshots that wait; SNAP_STATUS WAITING is their number [10 R304; R538] -/
  snaps : List Snap := []
  /-- SNAP_STATUS DONE_CNT [10 R304; R538] -/
  snapDone : BitVec 16 := 0#16
  deriving DecidableEq, Repr

/-- What a transmit buffer carries (12 R351). -/
inductive TxOwner where
  /-- A CAN_SEND. -/
  | send (src : RingSrc) (tag : BitVec 16)
  /-- An Almanac reference. -/
  | reference
  /-- A tunnel completion, with the descriptor whose completion it is. -/
  | cpl (src : RingSrc) (tag : BitVec 16)
  /-- Tunnel window data. -/
  | window
  deriving DecidableEq, Repr

/-- A transmit buffer in use (12 R351). -/
structure TxBuf where
  /-- Order of queueing, unique in the controller [12 R351; DESIGN CHOICE 1] -/
  id : Nat
  owner : TxOwner
  frame : CanFrame
  /-- Retransmissions [12 R352; DESIGN CHOICE 1] -/
  retries : Nat := 0
  /-- Its descriptor's timeout has expired [15 R440; DESIGN CHOICE 1] -/
  late : Bool := false
  /-- CREF at which its descriptor's timeout expired, while it was on the bus [15 R440; DESIGN CHOICE 1] -/
  lateAt : Nat := 0
  /-- CREF at which it took its buffer [12 R351; DESIGN CHOICE 1] -/
  at_ : Nat := 0
  deriving DecidableEq, Repr

/-- A received frame that waits for its record (12 R354). -/
structure RxBuf where
  frame : CanFrame
  filter : Nat
  sof : Dword
  deriving DecidableEq, Repr

/-- A CAN controller (12). -/
structure Can where
  /-- CAN_CTRL TUN_EN, BRS_EN, LISTEN, FD_EN and EN [12 R371; R538] -/
  ctrl : Word := 0x00000002#32
  /-- CAN_NBT [12 R371; R538] -/
  nbt : Word := 0x1E003E0F#32
  /-- CAN_DBT [12 R371; R538] -/
  dbt : Word := 0x0000330A#32
  /-- CAN_TDC [12 R371; R538] -/
  tdc : Word := 0#32
  /-- CAN_STATUS BUS_OFF [12 R371; R538] -/
  busOff : Bool := false
  /-- CAN_STATUS RECOVERING [12 R371; R538] -/
  recovering : Bool := false
  /-- CAN_STATUS CFG_BAD, WR_REJECT and RP_BAD, in place [12 R371; R538] -/
  sticky : Word := 0#32
  /-- CAN_STATUS TDCV [12 R371; R538] -/
  tdcv : BitVec 7 := 0#7
  /-- CAN_STATUS REC [12 R371; R538] -/
  rec_ : BitVec 8 := 0#8
  /-- CAN_STATUS TEC [12 R371; R538] -/
  tec : BitVec 8 := 0#8
  /-- TEC has passed 255, and bus-off is to be entered [12 R348; DESIGN CHOICE 1] -/
  tecOver : Bool := false
  /-- CREF of the CAN_RECOVER that began the wait [12 R348; DESIGN CHOICE 1] -/
  recoverAt : Nat := 0
  /-- CAN_CNT [12 R371; R538] -/
  cnt : Word := 0#32
  /-- CAN_TUN [12 R371; R538] -/
  tun : Word := 0x40000600#32
  /-- CAN_RX_BASE_LO [12 R371; R538] -/
  rxLo : Word := 0#32
  /-- CAN_RX_BASE_HI [12 R371; R538] -/
  rxHi : Word := 0#32
  /-- CAN_RX_CFG [12 R371; R538] -/
  rxCfg : Word := 0x00000004#32
  /-- CAN_RX_WP [12 R371; R538] -/
  wp : Word := 0#32
  /-- CAN_RX_RP [12 R371; R538] -/
  rp : Word := 0#32
  /-- CAN_FLT_ID by filter [12 R371; R538] -/
  fltId : Vector Word 32 := Vector.replicate 32 0#32
  /-- CAN_FLT_MASK by filter [12 R371; R538] -/
  fltMask : Vector Word 32 := Vector.replicate 32 0x1FFFFFFF#32
  /-- Transmit buffers in use, in the order of queueing [12 R351; DESIGN CHOICE 1] -/
  tx : List TxBuf := []
  /-- The module's own frames that wait for one of its 4 buffers, oldest first [12 R351; DESIGN CHOICE 1] -/
  own : List TxBuf := []
  /-- The latest tunnelled descriptor was refused NO_SPACE and had CHAIN [11 R316, 12 R356; DESIGN CHOICE 1] -/
  chainDrop : Bool := false
  /-- Frames queued so far, for buffer identity [12 R351; DESIGN CHOICE 1] -/
  txCount : Nat := 0
  /-- Receive buffers in use, oldest first [12 R351; DESIGN CHOICE 1] -/
  rx : List RxBuf := []
  /-- The tunnel window by byte [12 R357; DESIGN CHOICE 1] -/
  window : Mem 8 := []
  /-- The latest tunnelled descriptor had CHAIN and ended other than OK [11 R316; DESIGN CHOICE 1] -/
  chainFail : Bool := false
  deriving DecidableEq, Repr

/-- STATE of the Almanac (12 R372). -/
inductive AlmSt where
  | off | holdover | locked | lost | master
  deriving DecidableEq, Repr

/-- A reference that a slave stamped (12 R363). -/
structure RefStamp where
  /-- Offset of its identifier from BASE [12 R361; DESIGN CHOICE 1] -/
  off : BitVec 4
  /-- SEQ [12 R362; DESIGN CHOICE 1] -/
  seq : BitVec 16
  /-- Almanac time of its SOF, as stamped [12 R363; DESIGN CHOICE 1] -/
  stamp : Dword
  /-- CREF of its arrival [12 R365; DESIGN CHOICE 1] -/
  at_ : Nat
  /-- It came on the identifier followed at that time, so that it is stamped [12 R363; DESIGN CHOICE 1] -/
  stamped : Bool := true
  deriving DecidableEq, Repr

/-- The Almanac (12). -/
structure Alm where
  /-- ALM_CTRL [12 R372; R538] -/
  ctrl : Word := 0x00140000#32
  /-- ALM_ID [12 R372; R538] -/
  id : Word := 0x00000010#32
  /-- ALM_CFG [12 R372; R538] -/
  cfg : Word := 0x000A0000#32
  /-- ALM_STATUS STATE [12 R372; R538] -/
  st : AlmSt := .off
  /-- ALM_STATUS FRAME_LOCKED [12 R372; R538] -/
  frameLocked : Bool := false
  /-- ALM_STATUS YIELDED [12 R372; R538] -/
  yielded : Bool := false
  /-- ALM_STATUS FOLLOW [12 R372; R538] -/
  follow : BitVec 4 := 0#4
  /-- ALM_STATUS bits 7 to 3, in place [12 R372; R538] -/
  sticky : BitVec 8 := 0#8
  /-- ALM_TIME: Almanac time in ns [12 R360; R538] -/
  time : Dword := 0#64
  /-- The fraction of a nanosecond, in units of 2^−33 ns [12 R360; DESIGN CHOICE 1] -/
  frac : Nat := 0
  /-- ALM_SET_LO, _HI [12 R372; R538] -/
  set : Dword := 0#64
  /-- ALM_CMD SYNC_ZERO [12 R372; R538] -/
  zeroArmed : Bool := false
  /-- ALM_OFFSET [12 R372; R538] -/
  offset : Word := 0#32
  /-- Frequency term, in units of 2^−32 [12 R364; DESIGN CHOICE 1] -/
  freq : Int := 0
  /-- Phase term, in units of 2^−32 [12 R364; DESIGN CHOICE 1] -/
  phase : Int := 0
  /-- ALM_SYNC_CFG [12 R372; R538] -/
  syncCfg : Word := 0x00000028#32
  /-- ALM_SYNC_PER_LO, _HI [12 R372; R538] -/
  syncPer : Dword := 0#64
  /-- ALM_SYNC_ORG_LO, _HI [12 R372; R538] -/
  syncOrg : Dword := 0#64
  /-- ALM_SYNC_CNT [12 R372; R538] -/
  syncCnt : Dword := 0#64
  /-- ALM_SYNC_TS [12 R372; R538] -/
  syncTs : Dword := 0#64
  /-- The accepted level of SYNCIN [12 R368; DESIGN CHOICE 1] -/
  syncLevel : Bool := false
  /-- CREF of the latest accepted SYNCIN edge [12 R369; DESIGN CHOICE 1] -/
  syncAt : Option Nat := none
  /-- The accepted SYNCIN edges of the latest 16 cp, each with its CREF and its number: their commit edges lie ahead or
  on this edge [10 R287; DESIGN CHOICE 1] -/
  syncEdges : List (Nat × Dword) := []
  /-- CREF of the latest step of the Almanac's time, with the time before it [12 R367; DESIGN CHOICE 1] -/
  stepAt : Option (Nat × Dword) := none
  /-- Consecutive edges within 100 ns [12 R369; DESIGN CHOICE 1] -/
  lockRun : Nat := 0
  /-- The next SYNCIN edge is the first after frame lock was enabled or regained [12 R369; DESIGN CHOICE 1] -/
  lockFirst : Bool := true
  /-- ALM_SOUT_START_LO, _HI [12 R372; R538] -/
  soutStart : Dword := 0#64
  /-- ALM_SOUT_PER_LO, _HI [12 R372; R538] -/
  soutPer : Dword := 0#64
  /-- ALM_SOUT_CFG [12 R372; R538] -/
  soutCfg : Word := 0x00000028#32
  /-- The index k of the next SYNCOUT pulse [12 R370; DESIGN CHOICE 1] -/
  soutNext : Nat := 0
  /-- CREF at which the active SYNCOUT pulse ends [12 R370; DESIGN CHOICE 1] -/
  soutEnd : Option Nat := none
  /-- Master: SEQ of the next reference [12 R362; DESIGN CHOICE 1] -/
  seq : BitVec 16 := 0#16
  /-- Master: SOF stamp of its previous reference, none when PAIR_VALID must be 0 [12 R362; DESIGN CHOICE 1] -/
  prevSof : Option Dword := none
  /-- Master: its next reference is the first after it started [12 R362; DESIGN CHOICE 1] -/
  refFirst : Bool := true
  /-- Master: its time has stepped since its previous reference [12 R362; DESIGN CHOICE 1] -/
  stepped : Bool := false
  /-- Slave: references stamped, newest first [12 R363; DESIGN CHOICE 1] -/
  stamps : List RefStamp := []
  /-- A reference identifier is followed [12 R366; DESIGN CHOICE 1] -/
  following : Bool := false
  /-- CREF at which the phase term ends, when it ends by itself [12 R364; DESIGN CHOICE 1] -/
  phaseEnd : Option Nat := none
  /-- INTERVAL in ms that the followed references carry [12 R362; DESIGN CHOICE 1] -/
  interval : Nat := 10
  /-- Master: CREF at which its next reference is due [12 R362; DESIGN CHOICE 1] -/
  refNext : Nat := 0
  /-- Slave: CREF of the SOF of the latest reference that it received on the identifier it follows [12 R365; DESIGN CHOICE 1] -/
  lastRef : Option Nat := none
  /-- Consecutive misses [12 R365; DESIGN CHOICE 1] -/
  misses : Nat := 0
  /-- CREF of entry into HOLDOVER [12 R365; DESIGN CHOICE 1] -/
  holdAt : Nat := 0
  deriving DecidableEq, Repr

/-- What a master-port transfer serves (13 R381). -/
inductive SpJob where
  | sched (slot : Fin 8)
  | desc (src : RingSrc) (tag : BitVec 16) (rxAddr : Dword) (late : Bool)
  deriving DecidableEq, Repr

/-- A schedule of a master port (13 R383). -/
structure SpSlot where
  /-- SP_SLOT EN [13 R392; R538] -/
  en : Bool := false
  /-- SP_SLOT PENDING [13 R392; R538] -/
  pend : Bool := false
  /-- Events of the schedule delivered to it that have not triggered it yet [13 R384; DESIGN CHOICE 1] -/
  due : Nat := 0
  /-- CREF of the latest TICK that triggered it [13 R383; DESIGN CHOICE 1] -/
  tickAt : Option Nat := none
  /-- SP_SLOT CHK_FAIL [13 R392; R538] -/
  chkFail : BitVec 8 := 0#8
  /-- SP_SLOT OVERRUN [13 R392; R538] -/
  overrun : BitVec 8 := 0#8
  /-- SEL [13 R383; DESIGN CHOICE 1] -/
  sel : BitVec 2 := 0#2
  /-- TRIG [13 R383; DESIGN CHOICE 1] -/
  trig : BitVec 8 := 0#8
  /-- REF [13 R383; DESIGN CHOICE 1] -/
  ref : Fin 64 := 0
  /-- FORMAT ANGLE [13 R383; DESIGN CHOICE 1] -/
  angle : Bool := false
  /-- SHIFT [13 R383; DESIGN CHOICE 1] -/
  shift : Nat := 0
  /-- WIDTH [13 R383; DESIGN CHOICE 1] -/
  width : Nat := 1
  /-- LEN [13 R383; DESIGN CHOICE 1] -/
  len : Nat := 1
  /-- DEST [13 R383; DESIGN CHOICE 1] -/
  dest : Word := 0#32
  /-- TX [13 R383; DESIGN CHOICE 1] -/
  tx : Dword := 0#64
  /-- CHK_MASK [13 R383; DESIGN CHOICE 1] -/
  mask : Word := 0#32
  /-- CHK_VAL [13 R383; DESIGN CHOICE 1] -/
  val : Word := 0#32
  deriving DecidableEq, Repr

/-- A one-off transfer that waits (13 R382). -/
structure SpReq where
  src : RingSrc
  tag : BitVec 16
  sel : BitVec 2
  len : Nat
  tx : List Byte
  rxAddr : Dword
  deriving DecidableEq, Repr

/-- A master port (13). -/
structure SpPort where
  /-- SP_CTRL EN [13 R392; R538] -/
  en : Bool := false
  /-- SP_STATUS BUSY [13 R392; R538] -/
  busy : Bool := false
  /-- SP_STATUS WR_REJECT [13 R392; R538] -/
  wrReject : Bool := false
  /-- SP_STATUS LEN [13 R392; R538] -/
  len : BitVec 13 := 0#13
  /-- SP_SEL_CFG by select [13 R392; R538] -/
  sel : Vector Word 4 := Vector.replicate 4 0x00130014#32
  /-- The schedule slots -/
  slot : Vector SpSlot 8 := Vector.replicate 8 {}
  /-- SP_TRANSFER requests in decode order [13 R381; DESIGN CHOICE 1] -/
  queue : List SpReq := []
  /-- The transfer that runs, with the schedule as it was when it began [13 R383; DESIGN CHOICE 1] -/
  job : Option (SpJob × SpSlot) := none
  /-- CREF at which the select of the running transfer rises [13 R380; DESIGN CHOICE 1] -/
  endAt : Nat := 0
  /-- The bits that the FIFO of the port holds for the running transfer, first bit first [13 R386; DESIGN CHOICE 1] -/
  fifo : List Bool := []
  /-- The level at which SCK of the port idles, CPOL of its last transfer [13 R373, R380; DESIGN CHOICE 1] -/
  clk : Bool := false
  /-- The level of the last bit sent, at which SDO idles [13 R373; DESIGN CHOICE 1] -/
  sdo : Bool := false
  /-- CREF at which the port's last select rose [13 R380; DESIGN CHOICE 1] -/
  roseAt : Option Nat := none
  deriving DecidableEq, Repr

/-- SP0, the master ports, SPS and the GP ports (13). -/
structure Serial where
  /-- SP0_INFO [13 R391; R538] -/
  info : Word := 0x00000007#32
  /-- BOOT1 and BOOT0 are to be sampled at the next boot [13 R375; DESIGN CHOICE 1] -/
  bootDue : Bool := true
  /-- SP0_STATUS SFDP_OK [13 R391; R538] -/
  sfdpOk : Bool := false
  /-- SP0_STATUS SUSPEND [13 R391; R538] -/
  suspend : Bool := false
  /-- SP0_STATUS BUSY [13 R391; R538] -/
  flashBusy : Bool := false
  /-- SP0_STATUS SUSP_CNT [13 R391; R538] -/
  suspCnt : BitVec 16 := 0#16
  /-- SP0_XR(i) [13 R391; R538] -/
  xr : Vector Word 8 := Vector.replicate 8 0#32
  /-- SP1 to SP8 at 0 to 7 -/
  port : Vector SpPort 8 := Vector.replicate 8 {}
  /-- SPS_CFG [13 R393; R538] -/
  spsCfg : Word := 0#32
  /-- SPS_BUF [13 R393; R538] -/
  spsBuf : Word := 0#32
  /-- SPS_STATUS ACTIVE [13 R393; R538] -/
  spsActive : Bool := false
  /-- SPS_STATUS bits 29 to 24, in place [13 R393; R538] -/
  spsSticky : Word := 0#32
  /-- SPS_STATUS XFER_CNT [13 R393; R538] -/
  spsCnt : BitVec 16 := 0#16
  /-- OVF, UNF and ERR of the previous transfer, at bits 6 to 4 [13 R388; DESIGN CHOICE 1] -/
  spsPrev : BitVec 8 := 0#8
  /-- The status byte and the words read at the select [13 R387; DESIGN CHOICE 1] -/
  spsTx : List Word := []
  /-- GP_CFG(i) [13 R395; R538] -/
  gpCfg : Vector Word 32 := Vector.replicate 32 0x00040000#32
  /-- GP_OUT, the state of each port [13 R395; R538] -/
  gpOut : Word := 0#32
  /-- Accepted ball levels; GP_IN is this XOR INVERT [13 R395; R538] -/
  gpLevel : Word := 0#32
  /-- GP_EDGE [13 R395; R538] -/
  gpEdge : Word := 0#32
  /-- GP_PULSE [13 R395; R538] -/
  gpPulse : Word := 0x00000010#32
  /-- CREF at which the active event pulse of a port ends [13 R394; DESIGN CHOICE 1] -/
  gpEnd : Vector (Option Nat) 32 := Vector.replicate 32 none
  deriving DecidableEq, Repr

/-- A keyed 256-bit nonce with its life. -/
structure Nonce where
  /-- The nonce of the latest CHALLENGE [16 R459; DESIGN CHOICE 1] -/
  val : BitVec 256
  deriving DecidableEq, Repr

/-- Security, life-cycle, OTP and debug (16). -/
structure Sec where
  /-- The OTP by word, burnt bits 1 [16 R442; DESIGN CHOICE 1] -/
  otp : Mem 32 := []
  /-- SEC_LC STATE: 0 BLANK to 5 SCRAP, as the latest boot determined it [16 R462; R538] -/
  lc : BitVec 3 := 0#3
  /-- SEC_LC PENDING [16 R462; R538] -/
  lcPending : Bool := false
  /-- SEC_LC NEXT [16 R462; R538] -/
  lcNext : BitVec 3 := 0#3
  /-- SCRAP has been completed: condition 6 of R49 fails [16 R453; DESIGN CHOICE 1] -/
  scrapped : Bool := false
  /-- SEC_DEBUG TOKEN_OPEN [16 R462; R538] -/
  tokenOpen : Bool := false
  /-- The live nonce; CHALLENGE_LIVE is its presence [16 R462; R538] -/
  nonce : Option Nonce := none
  /-- SEC_DEBUG JTAG_ACTIVE [16 R462; R538] -/
  jtagActive : Bool := false
  /-- The debugger holds a supervisor core halted [16 R458; DESIGN CHOICE 1] -/
  supHalted : Bool := false
  /-- SEC_DEBUG DEFERRED [16 R462; R538] -/
  deferred : Bool := false
  /-- PWR_PD_REQ writes deferred by a debug halt: which register and value, oldest first [16 R460; DESIGN CHOICE 1] -/
  pdDeferred : List (Fin 3 × Word) := []
  /-- Axis domains held by keep-alive; KEEP_CNT is their number [16 R462; R538] -/
  keep : Dword := 0#64
  /-- SEC_DEBUG SCOPE [16 R462; R538] -/
  scope : BitVec 2 := 0#2
  /-- ERR of the TAP access register [16 R460; DESIGN CHOICE 1] -/
  tapErr : Bool := false
  /-- The value the latest TAP access returned [16 R460; DESIGN CHOICE 1] -/
  tapData : Word := 0#32
  /-- EXTEST is selected [16 R458; DESIGN CHOICE 1] -/
  extest : Bool := false
  /-- SEC_STATUS READY [16 R462; R538] -/
  ready : Bool := false
  /-- SEC_STATUS IDENTITY [16 R462; R538] -/
  identity : Bool := false
  /-- A key pair has been generated and sealed [16 R455; DESIGN CHOICE 1] -/
  sealed : Bool := false
  /-- The public key generated last [16 R455; DESIGN CHOICE 1] -/
  pub : List Byte := []
  /-- SEC_STATUS CERT_OK [16 R462; R538] -/
  certOk : Bool := false
  /-- The stored device certificate [16 R455; DESIGN CHOICE 1] -/
  cert : List Byte := []
  /-- OTP_LOCK [16 R463; R538] -/
  otpLock : BitVec 7 := 0#7
  /-- OTP_STATUS INTEGRITY_OK [16 R463; R538] -/
  otpOk : Bool := false
  /-- The boot ROM found the OTP bad, and releases no gate enable [16 R445; DESIGN CHOICE 1] -/
  otpBad : Bool := false
  /-- OTP_STATUS BURN_CNT [16 R463; R538] -/
  burnCnt : BitVec 16 := 0#16
  /-- The patch comparators: of the enclave's ROM, ADDR, VALUE, in ascending order of their entries [16 R451; DESIGN CHOICE 1] -/
  romPatch : List (Bool × Word × Word) := []
  /-- OTP_PATCH(i), entry k at bits 2k + 1 and 2k [16 R463; R538] -/
  patch : BitVec 128 := 0#128
  /-- SEC_ROM_REV [16 R462; R538] -/
  romRev : Word := 0x00010001#32
  deriving DecidableEq, Repr

/-- State of an image bank (17 R471, R487). -/
inductive BankSt where
  | empty | writing | written | trial | confirmed | rejected
  deriving DecidableEq, Repr

/-- An image bank (17). -/
structure ImgBank where
  /-- IMG_BANK STATE [17 R487; R538] -/
  st : BankSt := .empty
  /-- The BOOTED word is programmed [17 R471; DESIGN CHOICE 1] -/
  booted : Bool := false
  /-- IMG_BANK ENCRYPTED [17 R487; R538] -/
  encrypted : Bool := false
  /-- IMG_BANK QUALIFIED [17 R487; R538] -/
  qualified : Bool := false
  /-- IMG_BANK SLOTS [17 R487; R538] -/
  slots : BitVec 8 := 0#8
  /-- The header stored in the bank, when there is one; IMG_VER shows its version [17 R466; R538] -/
  hdr : Option ImgHeader := none
  /-- The payload's blocks in the flash, each with its number, in plaintext [17 R466, R474; DESIGN CHOICE 1] -/
  blocks : List (Nat × List Byte) := []
  deriving DecidableEq, Repr

/-- An update session (17 R476). -/
structure Session where
  /-- Target bank, B [17 R476; DESIGN CHOICE 1] -/
  toB : Bool
  /-- Blocks written [17 R477; DESIGN CHOICE 1] -/
  written : List Nat := []
  deriving DecidableEq, Repr

/-- A settings copy in external memory (17 R482). -/
structure SetCopy where
  /-- The block, when the copy holds one [17 R482; DESIGN CHOICE 1] -/
  block : Option SettingsBlock := none
  /-- It was written plain, with no storage key there [17 R475; DESIGN CHOICE 1] -/
  plain : Bool := false
  deriving DecidableEq, Repr

/-- Images, settings and trial (17). -/
structure Img where
  /-- IMG_STATUS SERVICE [17 R487; R538] -/
  service : Bool := false
  /-- IMG_STATUS TRIAL [17 R487; R538] -/
  trial : Bool := false
  /-- IMG_STATUS AWAIT_CONFIRM [17 R487; R538] -/
  awaitConfirm : Bool := false
  /-- IMG_STATUS KEYOPS_PENDING [17 R487; R538] -/
  keyops : Bool := false
  /-- IMG_STATUS RUN_BANK [17 R487; R538] -/
  runBank : BitVec 3 := 0#3
  /-- IMG_STATUS MIGRATE_FAIL to MIGRATED, bits 7 to 2 in place [17 R487; R538] -/
  setFlags : BitVec 8 := 0#8
  /-- IMG_STATUS SET_COPY [17 R487; R538] -/
  setCopy : BitVec 2 := 3#2
  /-- The running trial timer, as the seconds it was started with and the CREF of its start [17 R487; R538] -/
  trialTimer : Option (Nat × Nat) := none
  /-- A trial failed with cause CONFIRM and the restart waits for the axes [17 R480; DESIGN CHOICE 1] -/
  revertWait : Bool := false
  /-- CREF at which that trial failed [17 R480; DESIGN CHOICE 1] -/
  revertAt : Nat := 0
  /-- An activation waits for its restart [17 R479; DESIGN CHOICE 1] -/
  activated : Bool := false
  /-- The descriptor of that activation, whose completion may still wait [17 R479; DESIGN CHOICE 1] -/
  actBy : Option (RingSrc × BitVec 16) := none
  /-- CREF at which that activation completed, and then at which its completion was written or sent [17 R479; DESIGN CHOICE 1] -/
  actAt : Nat := 0
  /-- IMG_REVERT COUNT [17 R487; R538] -/
  revertCnt : BitVec 8 := 0#8
  /-- IMG_REVERT LAST_CAUSE [17 R487; R538] -/
  revertCause : BitVec 3 := 0#3
  /-- IMG_SET_SEQ [17 R487; R538] -/
  setSeq : Word := 0#32
  /-- IMG_SET_FMT STORED [17 R487; R538] -/
  fmtStored : BitVec 16 := 0#16
  /-- IMG_SET_FMT FIRMWARE [17 R487; R538] -/
  fmtFirmware : BitVec 16 := 0#16
  /-- The banks: kind k, bank b at 2k + b [17 R487; R538] -/
  bank : Vector ImgBank 6 := Vector.replicate 6 {}
  /-- The open session of each kind [17 R476; DESIGN CHOICE 1] -/
  session : Vector (Option Session) 3 := Vector.replicate 3 none
  /-- The two settings copies [17 R482; DESIGN CHOICE 1] -/
  copy : Vector SetCopy 2 := Vector.replicate 2 {}
  /-- The copy that is preserved [17 R485; DESIGN CHOICE 1] -/
  preserved : Option (Fin 2) := none
  /-- The block in use, as applied [17 R486; DESIGN CHOICE 1] -/
  inUse : List Byte := []
  /-- The Pattern store in external memory [08 R230; DESIGN CHOICE 1] -/
  store : List PatSlots := []
  /-- The log of skipped Pattern loads, oldest first [08 R231; DESIGN CHOICE 1] -/
  skips : List (AxisId × FitKind) := []
  /-- Pending Patterns in supervisor SRAM [08 R228; DESIGN CHOICE 1] -/
  pend : List PatKey := []
  /-- Resonance and H parameters of Patterns that wait for HOLD, by signal word [08 R231; DESIGN CHOICE 1] -/
  waitH : List (Nat × Word) := []
  deriving DecidableEq, Repr

/-- Accrual of one axis in the open period (18 R488). -/
structure Accrual where
  /-- TORQUE_S, in ms with the remainder carried [18 R488; DESIGN CHOICE 1] -/
  torqueMs : Nat := 0
  /-- STARTS [18 R488; DESIGN CHOICE 1] -/
  starts : Nat := 0
  /-- ENERGY_MWH, in units of 1/(1.44 × 10^9 × 2^299) mWh [18 R488; DESIGN CHOICE 1] -/
  energy : Nat := 0
  /-- PEAK_MA [18 R488; DESIGN CHOICE 1] -/
  peakMa : Nat := 0
  /-- FAULTS [18 R488; DESIGN CHOICE 1] -/
  faults : Nat := 0
  /-- CREF from which the present torque time runs [18 R488; DESIGN CHOICE 1] -/
  since : Option Nat := none
  deriving DecidableEq, Repr

/-- A journal record (18 R497). -/
structure TlyRec where
  seq : Word
  /-- All 2,048 bytes. -/
  bytes : List Byte
  deriving DecidableEq, Repr

/-- The Tally (18). -/
structure Tly where
  /-- TLY_CFG [18 R501; R538] -/
  cfg : Word := 0x00000802#32
  /-- TLY_CLOCK [18 R501; R538] -/
  clock : Word := 0x00000025#32
  /-- The rule in force, as CFG and CLOCK were at the latest close [18 R492; DESIGN CHOICE 1] -/
  cfgNow : Word := 0x00000802#32
  /-- CLOCK of the rule in force [18 R492; DESIGN CHOICE 1] -/
  clockNow : Word := 0x00000025#32
  /-- A SET or WALL_TIME_SET has been made since power-on [18 R490; DESIGN CHOICE 1] -/
  wasSet : Bool := false
  /-- TLY_STATUS CLOCK_BEHIND [18 R501; R538] -/
  behind : Bool := false
  /-- CLOCK_BEHIND was set at some time in the open period [18 R496; DESIGN CHOICE 1] -/
  wasBehind : Bool := false
  /-- TLY_STATUS UNSIGNED [18 R501; R538] -/
  unsigned_ : Bool := false
  /-- TLY_STATUS RULE_PENDING [18 R501; R538] -/
  rulePending : Bool := false
  /-- The open period began under a changed rule [18 R492; DESIGN CHOICE 1] -/
  ruleChange : Bool := false
  /-- TLY_STATUS JOURNAL_ERR [18 R501; R538] -/
  journalErr : Bool := false
  /-- TLY_HEAD_SEQ [18 R501; R538] -/
  headSeq : Word := 0#32
  /-- TLY_LAST_END [18 R501; R538] -/
  lastEnd : Dword := 0#64
  /-- TLY_NEXT_END, the end boundary of the open period once it is known [18 R501; R538] -/
  nextEnd : Dword := 0#64
  /-- Start of the open period [18 R497; DESIGN CHOICE 1] -/
  start : Dword := 0#64
  /-- TLY_LOCK [18 R501; R538] -/
  lock : Bool := false
  /-- The open period was at some time without valid wall time [18 R490; DESIGN CHOICE 1] -/
  noTime : Bool := false
  /-- The open period was restored from a checkpoint [18 R498; DESIGN CHOICE 1] -/
  restored : Bool := false
  /-- Steps in the open period [18 R496; DESIGN CHOICE 1] -/
  stepCnt : Nat := 0
  /-- BACK_NS [18 R496; DESIGN CHOICE 1] -/
  backNs : Nat := 0
  /-- FWD_NS [18 R496; DESIGN CHOICE 1] -/
  fwdNs : Nat := 0
  /-- CREF of the latest checkpoint, or of the boot [18 R498; DESIGN CHOICE 1] -/
  checkAt : Nat := 0
  /-- VIN_UV has been raised since [18 R498; DESIGN CHOICE 1] -/
  checkUv : Bool := false
  /-- Steps not yet in a checkpoint: time before, signed size [18 R496; DESIGN CHOICE 1] -/
  steps : List (Dword × Int) := []
  /-- Accrual by axis -/
  acc : Vector Accrual 64 := Vector.replicate 64 {}
  /-- Bytes 0 to 1,887 of the latest CLOSE record, for PREV_HASH [18 R497; DESIGN CHOICE 1] -/
  lastClose : Option (List Byte) := none
  /-- A record whose slot failed read-back, kept in SRAM [18 R499; DESIGN CHOICE 1] -/
  held : Option TlyRec := none
  /-- CLOSE records in the journal, newest first [18 R497; DESIGN CHOICE 1] -/
  closes : List TlyRec := []
  /-- CHECKPOINT records in the journal, newest first [18 R497; DESIGN CHOICE 1] -/
  checks : List TlyRec := []
  deriving DecidableEq, Repr

/-- The whole module. -/
structure State where
  /-- The part of the family [00 R1; DESIGN CHOICE 2] -/
  variant : Variant := .cya6411
  /-- CLK_CREF: the carrier reference, in cp [04 R95; R538] -/
  cref : Nat := 0
  clk : Clocks := {}
  pwr : Power := {}
  sup : SupMode := .held
  /-- RST_CAUSE [21 R537; R537] -/
  rst : BitVec 6 := 1#6
  flt : Flt := {}
  hst : Hst := {}
  seam : SeamUnit := {}
  can : Vector Can 4 := Vector.replicate 4 {}
  alm : Alm := {}
  ser : Serial := {}
  sec : Sec := {}
  img : Img := {}
  tly : Tly := {}
  gov : Gov := {}
  bank : Vector Bank 8 := Vector.replicate 8 {}
  ax : Vector Axis 64 := Vector.replicate 64 {}
  /-- The public signal words, by signal address [09 R258; DESIGN CHOICE 1] -/
  sig : Mem 32 := []
  /-- Mailbox posts on their way, oldest first [09 R265; DESIGN CHOICE 1] -/
  posts : List Post := []
  /-- Fittings that wait or run [08 R219; DESIGN CHOICE 1] -/
  fits : List Fit := []
  /-- NTC conversions: PWR_NTC_CFG [03 R92; R538] -/
  ntcCfg : Word := 0x0000FFFF#32
  /-- PWR_NTC(i) [03 R92; R538] -/
  ntc : Vector Word 16 := Vector.replicate 16 0#32
  /-- The HI words latched by reads of LO words: requester (0 host, 1 supervisor, 2 JTAG), offset of LO, HI word [10 R300; R300] -/
  hiLatch : List (Fin 3 × Nat × Word) := []
  /-- The value that the latest register read returned [21 R531; DESIGN CHOICE 1] -/
  readData : Word := 0#32
  /-- What the module has sent to the outside, oldest first [11 R313; DESIGN CHOICE 1] -/
  out : List Output := []
  /-- MODEL: the count that indexes free values (Config.free*); no register [DESIGN CHOICE 3] -/
  freeCtr : Nat := 0
  /-- MODEL: the commands that wait, first in, first out; no register [DESIGN CHOICE 4] -/
  pending : List Instr := []
  deriving DecidableEq, Repr

/-- Reasons a step can stop with a fault. The spec gives every command an effect, so no meaning
raises one; the type has no constructor. -/
inductive Fault where
  deriving DecidableEq, Repr

/-- Reasons a command has no meaning. -/
inductive Refusal where
  /-- The command's arm has no meaning yet. Raised by the dispatcher alone; safe: the model stops
  where the module goes on. -/
  | notModelled (mnemonic : String)
  deriving DecidableEq, Repr

/-- The powered-off module: every register at its reset word, nothing stored, nothing pending. -/
def State.reset : State := {}

end Sys2Proof.Machine
end

