-- ==== Sys2Proof/Machine/Ops.lean ====
section
/-! DEFINITION. The named operations over the state that the meanings share: sparse memories, access
to one axis, bank or engine, presence of units, raising of faults, signal words and CTM. -/

namespace Sys2Proof.Machine

/-! Sparse memories. -/

/-- The value at address `a`: what is listed, or the default. -/
def Mem.get {w : Nat} (d : Nat → BitVec w) : Mem w → Nat → BitVec w
  | [], a => d a
  | (b, v) :: m, a => if a = b then v else Mem.get d m a

/-- Writes `v` at address `a`, keeping the canonical form. -/
def Mem.set {w : Nat} (d : Nat → BitVec w) : Mem w → Nat → BitVec w → Mem w
  | [], a, v => if v = d a then [] else [(a, v)]
  | (b, u) :: m, a, v =>
    if a < b then (if v = d a then (b, u) :: m else (a, v) :: (b, u) :: m)
    else if a = b then (if v = d a then m else (a, v) :: m)
    else (b, u) :: Mem.set d m a v

/-- The canonical form: addresses strictly rising above `lo`, and no entry equal to the default. -/
def Mem.wfFrom {w : Nat} (d : Nat → BitVec w) : Nat → Mem w → Bool
  | _, [] => true
  | lo, (a, v) :: m => decide (lo ≤ a) && decide (v ≠ d a) && Mem.wfFrom d (a + 1) m

/-- The canonical form of a memory whose unlisted addresses read as `d`. -/
def Mem.wf {w : Nat} (d : Nat → BitVec w) (m : Mem w) : Bool := Mem.wfFrom d 0 m

/-- Every unlisted address reads 0. -/
def zeroAt {w : Nat} : Nat → BitVec w := fun _ => 0

/-- Reads a memory whose unlisted addresses read 0. -/
def Mem.rd {w : Nat} (m : Mem w) (a : Nat) : BitVec w := Mem.get zeroAt m a
/-- Writes such a memory. -/
def Mem.wr {w : Nat} (m : Mem w) (a : Nat) (v : BitVec w) : Mem w := Mem.set zeroAt m a v

/-- Writes consecutive addresses. -/
def Mem.wrList {w : Nat} (m : Mem w) (a : Nat) : List (BitVec w) → Mem w
  | [] => m
  | v :: vs => Mem.wrList (m.wr a v) (a + 1) vs

/-- Returns the addresses from `lo` up to below `hi` to the default. -/
def Mem.clear {w : Nat} (m : Mem w) (lo hi : Nat) : Mem w := m.filter fun e => e.1 < lo || hi ≤ e.1

/-! Words and bytes. -/

/-- The bytes of a word, least significant first (11 R317). -/
def wordBytes (w : Word) : List Byte :=
  [w.setWidth 8, (w >>> 8).setWidth 8, (w >>> 16).setWidth 8, (w >>> 24).setWidth 8]
/-- The bytes of a 64-bit quantity, least significant first. -/
def dwordBytes (d : Dword) : List Byte := wordBytes (lo32 d) ++ wordBytes (hi32 d)
/-- Byte `i` of a byte string, 0 past its end. -/
def byteAt (bs : List Byte) (i : Nat) : Byte := bs.getD i 0
/-- The little-endian word at byte `i`. -/
def wordAt (bs : List Byte) (i : Nat) : Word :=
  byteAt bs (i + 3) ++ byteAt bs (i + 2) ++ byteAt bs (i + 1) ++ byteAt bs i
/-- The little-endian number in the `n` bytes at byte `i`. -/
def natAt (bs : List Byte) (i n : Nat) : Nat := ((bs.drop i).take n).foldr (fun b v => b.toNat + 256 * v) 0
/-- The little-endian 64-bit quantity at byte `i`. -/
def dwordAt (bs : List Byte) (i : Nat) : Dword := join64 (wordAt bs (i + 4)) (wordAt bs i)
/-- Exactly k bytes: cut, or filled with zeros. -/
def fit (k : Nat) (bs : List Byte) : List Byte := (bs ++ List.replicate (k - bs.length) 0#8).take k
/-- The bytes of a wide value, least significant first. -/
def wideBytes {w : Nat} (v : BitVec w) : List Byte := (List.range (w / 8)).map fun i => (v >>> (8 * i)).setWidth 8
/-- The words of a byte string, its last word padded with zeros. -/
def wordsOf (bs : List Byte) : List Word := (List.range ((bs.length + 3) / 4)).map fun k => wordAt bs (4 * k)

/-- One bit of CRC-32C, polynomial 0x1EDC6F41 reflected. -/
def crcBit (c : Word) : Word := if c.getLsbD 0 then (c >>> 1) ^^^ 0x82F63B78#32 else c >>> 1
/-- The `n` bytes at byte `i` are 0. -/
def zeros (bs : List Byte) (i n : Nat) : Bool := ((bs.drop i).take n).all (· = 0#8)

/-- CRC-32C of a byte string with the common parameters (PRESUMED, log entry 6). -/
def crc32c (bs : List Byte) : Word :=
  ~~~ bs.foldl (fun c b => (List.range 8).foldl (fun c _ => crcBit c) (c ^^^ b.setWidth 32)) 0xFFFFFFFF#32

/-- Bit `i` of a mask of any width set or cleared. -/
def setBitW {w : Nat} (m : BitVec w) (i : Nat) (v : Bool) : BitVec w :=
  if v then m ||| BitVec.twoPow w i else m &&& ~~~ BitVec.twoPow w i

/-- A counter of `w` bits that stops at its largest value. -/
def satInc {w : Nat} (c : BitVec w) : BitVec w := if c = BitVec.allOnes w then c else c + 1

/-- All 64 axes. -/
def allAxes : List AxisId := List.finRange 64
/-- All eight banks. -/
def allBanks : List BankId := List.finRange 8
/-- The axes that a mask names, lowest first. -/
def axesOf (m : Dword) : List AxisId := allAxes.filter fun n => m.getLsbD n.val
/-- The mask of one axis. -/
def axisMask (n : AxisId) : Dword := BitVec.twoPow 64 n.val
/-- The axes of a bank, as numbers 8b to 8b + 7. -/
def bankAxes (b : BankId) : List AxisId := allAxes.filter fun n => n.bank = b
/-- An axis from a descriptor's byte, when it names one. -/
def axisOf? (v : BitVec 8) : Option AxisId := if h : v.toNat < 64 then some ⟨v.toNat, h⟩ else none

/-! Access to one part of the state. -/

def State.axis (s : State) (n : AxisId) : Axis := s.ax[n]
def State.modAx (s : State) (n : AxisId) (f : Axis → Axis) : State := { s with ax := s.ax.set n (f s.ax[n]) }
def State.modGdr (s : State) (n : AxisId) (f : Gdr → Gdr) : State := s.modAx n fun a => { a with gdr := f a.gdr }
def State.modSns (s : State) (n : AxisId) (f : Sns → Sns) : State := s.modAx n fun a => { a with sns := f a.sns }
def State.modPwm (s : State) (n : AxisId) (f : Pwm → Pwm) : State := s.modAx n fun a => { a with pwm := f a.pwm }
def State.modFbk (s : State) (n : AxisId) (f : Fbk → Fbk) : State := s.modAx n fun a => { a with fbk := f a.fbk }
def State.modCh (s : State) (n : AxisId) (f : Chain → Chain) : State := s.modAx n fun a => { a with ch := f a.ch }
def State.modClu (s : State) (n : AxisId) (f : Clu → Clu) : State := s.modAx n fun a => { a with clu := f a.clu }
def State.eng (s : State) (n : AxisId) (j : EngId) : Eng := (s.axis n).clu.eng[j]
def State.modEng (s : State) (n : AxisId) (j : EngId) (f : Eng → Eng) : State :=
  s.modClu n fun c => { c with eng := c.eng.set j (f c.eng[j]) }
def State.bnk (s : State) (b : BankId) : Bank := s.bank[b]
def State.modBank (s : State) (b : BankId) (f : Bank → Bank) : State := { s with bank := s.bank.set b (f s.bank[b]) }
def State.modCan (s : State) (c : CanId) (f : Can → Can) : State := { s with can := s.can.set c (f s.can[c]) }
def State.modPwr (s : State) (f : Power → Power) : State := { s with pwr := f s.pwr }
def State.modFlt (s : State) (f : Flt → Flt) : State := { s with flt := f s.flt }
def State.modHst (s : State) (f : Hst → Hst) : State := { s with hst := f s.hst }
def State.modSeam (s : State) (f : SeamUnit → SeamUnit) : State := { s with seam := f s.seam }
def State.modAlm (s : State) (f : Alm → Alm) : State := { s with alm := f s.alm }
def State.modSer (s : State) (f : Serial → Serial) : State := { s with ser := f s.ser }
def State.modSec (s : State) (f : Sec → Sec) : State := { s with sec := f s.sec }
def State.modImg (s : State) (f : Img → Img) : State := { s with img := f s.img }
def State.modTly (s : State) (f : Tly → Tly) : State := { s with tly := f s.tly }
def State.modGov (s : State) (f : Gov → Gov) : State := { s with gov := f s.gov }
def State.modPh (s : State) (n : AxisId) (p : Fin 3) (f : PwmPhase → PwmPhase) : State :=
  s.modPwm n fun w => { w with ph := w.ph.set p (f w.ph[p]) }
def State.modGate (s : State) (n : AxisId) (g : Fin 6) (f : GateSt → GateSt) : State :=
  s.modGdr n fun d => { d with gates := d.gates.set g (f d.gates[g]) }

/-- Runs `f` on each of a list of axes, first to last. -/
def State.forAxes (s : State) (l : List AxisId) (f : AxisId → State → State) : State := l.foldl (fun s n => f n s) s
/-- Runs `f` on each of a list of banks. -/
def State.forBanks (s : State) (l : List BankId) (f : BankId → State → State) : State := l.foldl (fun s b => f b s) s

/-- Sends something to the outside. -/
def State.emit (s : State) (o : Output) : State := { s with out := s.out ++ [o] }
/-- Takes the next index of the free values (log entry 3). -/
def State.bump (s : State) : State := { s with freeCtr := s.freeCtr + 1 }

/-- Takes the next `k` indices of the free values. -/
def State.bumpBy (s : State) (k : Nat) : State := { s with freeCtr := s.freeCtr + k }

/-- XIP reads of the supervisor arrive while a program or erase runs: with suspend and resume each is served in a suspension, which
SUSP_CNT counts; otherwise they wait. How many arrive is the firmware's, and free (13 R378; DESIGN CHOICE, log entry 168). -/
def State.flashWork (s : State) : State :=
  if !s.ser.suspend then s
  else
    let k := (Config.freeWord s.freeCtr).toNat
    s.bump.modSer fun r => { r with suspCnt := BitVec.ofNat 16 (Nat.min 0xFFFF (r.suspCnt.toNat + k)) }

/-- `n` bytes that the spec leaves open, from index `i` of the free values. -/
def openBytes (i n : Nat) : List Byte := (List.range n).map fun k => (Config.freeWord (i + k)).setWidth 8

/-! Presence (00 R1). -/

def Variant.axes : Variant → Nat
  | .cya6411 => 64 | .cya6400 => 64 | .cya3211 => 32 | .cya1601 => 16
def Variant.banks : Variant → Nat
  | .cya6411 => 8 | .cya6400 => 8 | .cya3211 => 4 | .cya1601 => 2
def Variant.cans : Variant → Nat
  | .cya6411 => 4 | .cya6400 => 4 | .cya3211 => 4 | .cya1601 => 2
def Variant.openEngines : Variant → Bool
  | .cya6411 => true | .cya6400 => false | .cya3211 => true | .cya1601 => false
def Variant.tally : Variant → Bool
  | .cya6411 => true | .cya6400 => false | .cya3211 => true | .cya1601 => true
/-- DEV_ID bits 31:16 (21 R536). -/
def Variant.devId : Variant → Word
  | .cya6411 => 0x64110100#32 | .cya6400 => 0x64000100#32 | .cya3211 => 0x32110100#32 | .cya1601 => 0x16010100#32
/-- DEV_CAP (21 R536). -/
def Variant.devCap : Variant → Word
  | .cya6411 => 0x00FFFC40#32 | .cya6400 => 0x00FFF040#32 | .cya3211 => 0x000FFC20#32 | .cya1601 => 0x00033810#32
/-- The mask of present axes. -/
def Variant.axisMask : Variant → Dword
  | .cya6411 => 0xFFFFFFFFFFFFFFFF#64 | .cya6400 => 0xFFFFFFFFFFFFFFFF#64
  | .cya3211 => 0x00000000FFFFFFFF#64 | .cya1601 => 0x000000000000FFFF#64

def State.hasAxis (s : State) (n : AxisId) : Bool := decide (n.val < s.variant.axes)
def State.hasBank (s : State) (b : BankId) : Bool := decide (b.val < s.variant.banks)
def State.hasCan (s : State) (c : CanId) : Bool := decide (c.val < s.variant.cans)
/-- The axis domain PD(n) is on (14 R411). -/
def State.axOn (s : State) (n : AxisId) : Bool := s.hasAxis n && s.pwr.pdOn.getLsbD n.val
/-- The bank domain PD(64 + b) is on. -/
def State.bankOn (s : State) (b : BankId) : Bool := s.hasBank b && s.pwr.pdOn.getLsbD (64 + b.val)
/-- The system domain PD(k), k = 72 to 79, is on. -/
def State.sysOn (s : State) (k : Nat) : Bool := s.pwr.pdOn.getLsbD k
/-- The present axes. -/
def State.present (s : State) : List AxisId := allAxes.filter s.hasAxis
/-- The present banks. -/
def State.presentBanks (s : State) : List BankId := allBanks.filter s.hasBank
/-- Engines E14 and E15, and all sixteen in the coordination role, where open engines exist (00 R6,
08 R240). -/
def State.isOpen (s : State) (n : AxisId) (j : EngId) : Bool :=
  s.variant.openEngines && ((s.axis n).clu.role || decide (14 ≤ j.val))

/-! Fault sources (15 R420 to R423). -/

def axisSrc (n : AxisId) (k : Nat) : Nat := 16 * n.val + k
def bankSrc (b : BankId) (j : Nat) : Nat := 1024 + 8 * b.val + j

/-- A source is raised: it is on its way to the collector (15 R436). -/
def State.raise (s : State) (src : Nat) : State := s.modFlt fun f => { f with raised := f.raised ++ [src] }

/-- A condition source follows its condition: it is raised at the onset (15 R541). -/
def State.raiseCond (s : State) (src : Nat) (on : Bool) : State :=
  if on then
    if s.flt.met.getLsbD src then s
    else (s.modFlt fun f => { f with met := setBitW f.met src true, cause := setBitW f.cause src true }).raise src
  else s.modFlt fun f => { f with met := setBitW f.met src false, cause := setBitW f.cause src false }

/-! Injection (15 R434). -/

/-- FLT_INJ is armed for a checker. -/
def State.injected (s : State) (kind idx : Nat) : Bool :=
  bit s.flt.inj 31 && decide (bits s.flt.inj 27 24 = kind) && decide (bits s.flt.inj 9 0 = idx)
/-- The injection has been used: ARM reads 0. -/
def State.useInj (s : State) : State := s.modFlt fun f => { f with inj := f.inj &&& 0x7FFFFFFF#32 }

/-! Time. CREF counts cp, 2.5 ns; a µs is 400 cp. -/

/-- Microseconds in cp. -/
def us (t : Nat) : Nat := 400 * t
/-- Milliseconds in cp. -/
def ms (t : Nat) : Nat := 400000 * t

/-! Signal words (09 R258). -/

/-- An access to the OTP runs: PD78 powers up for it or is on (16 R446, R463). -/
def Power.otpBusy (p : Power) (cref : Nat) : Bool := decide (cref < p.otpOffAt)

/-- PD78 is on (14 R411). -/
def Power.otpOn (p : Power) (cref : Nat) : Bool := decide (p.otpOnAt ≤ cref) && p.otpBusy cref

/-- The supervisor switches PD78 on for an access to the OTP, whose words take `t` cp: 20 µs to power up, and off after
it. An access within another makes it longer (16 R446; DESIGN CHOICE, log entry 65). -/
def State.otpAccess (s : State) (t : Nat) : State :=
  s.modPwr fun p =>
    if p.otpBusy s.cref then { p with otpOffAt := p.otpOffAt + t }
    else { p with otpOnAt := s.cref + us 20, otpOffAt := s.cref + us 20 + t }

/-- The signal address of axis n Ej.k. -/
def sigAddr (n : AxisId) (j k : Nat) : Nat := 16384 * n.val + 1024 * j + k

/-- The code of an axis state (06 R165). -/
def AxState.code : AxState → Nat
  | .hold => 0 | .charging => 1 | .starting => 2 | .run => 3 | .stopping => 4 | .safe => 5
/-- The code of a mode (06 R165). -/
def AxMode.code : AxMode → Nat
  | .torque => 0 | .speed => 1 | .position => 2 | .fan => 3

/-- The axis state word E12.2 (06 R165). -/
def Chain.e12_2 (c : Chain) : Word :=
  fieldAt 24 c.refuse.toNat ||| bitAt 12 c.derated ||| bitAt 11 c.regenLimited ||| bitAt 10 c.limited |||
  bitAt 9 c.fallback ||| bitAt 8 c.reduced ||| fieldAt 4 c.mode.code ||| fieldAt 0 c.st.code

/-- E12.2 as it reads: a write from outside stands until E12's next activation, or until E12's own word changes (06
R161, R165; 10 R285). -/
def Chain.show122 (c : Chain) : Word :=
  match c.put122 with
  | some (v, own) => if own = c.e12_2 then v else c.e12_2
  | none => c.e12_2

/-- An open engine whose public words are not storage: stopped or never loaded (09 R540). -/
def State.openStopped (s : State) (n : AxisId) (j : EngId) : Bool :=
  s.isOpen n j && ((s.eng n j).st = .stopped || !(s.eng n j).loaded)

/-- The reduced chain is in force, in which E7 to E11 are not loaded (06 R166). -/
def State.unloaded (s : State) (n : AxisId) (j : EngId) : Bool :=
  (s.axis n).ch.reduced && !(s.axis n).clu.role && decide (7 ≤ j.val) && decide (j.val ≤ 11)

/-- An engine whose public words are no storage: an open engine that is stopped, and one of E7 to E11 under the
reduced chain. -/
def State.noWords (s : State) (n : AxisId) (j : EngId) : Bool := s.openStopped n j || s.unloaded n j

/-- Reads a signal word whole: words of an absent cluster, of a cluster whose domain is off, of a
stopped open engine and of E7 to E11 under the reduced chain read 0 (00 R5, 14 R406, 09 R540, 06 R166). -/
def State.sigRead (s : State) (a : Nat) : Word :=
  let n : AxisId := Fin.ofNat 64 (a / 16384)
  let j : EngId := Fin.ofNat 16 (a / 1024 % 16)
  if !s.axOn n || s.noWords n j then 0#32
  else if a % 16384 = 1024 * 12 + 2 && !(s.axis n).clu.role then (s.axis n).ch.show122
  else s.sig.rd a

/-- Writes a signal word, with no check of who writes it. -/
def State.sigWrite (s : State) (a : Nat) (v : Word) : State := { s with sig := s.sig.wr a v }

/-- A write from outside of a stage, which E12.2 also shows (06 R161). -/
def State.outWrite (s : State) (a : Nat) (v : Word) : State :=
  let n : AxisId := Fin.ofNat 64 (a / 16384)
  let s := s.sigWrite a v
  if a % 16384 = 1024 * 12 + 2 && !(s.axis n).clu.role then s.modCh n fun c => { c with put122 := some (v, c.e12_2) } else s

/-- Axis n Ej.k. -/
def State.e (s : State) (n : AxisId) (j k : Nat) : Word := s.sig.rd (sigAddr n j k)
def State.setE (s : State) (n : AxisId) (j k : Nat) (v : Word) : State := s.sigWrite (sigAddr n j k) v

/-- A stage's own value of an output that it takes on from one activation to the next: a write of the public word
from outside does not reach it (06 R161). -/
def State.own (s : State) (n : AxisId) (j k : Nat) : Word := (s.axis n).ch.own.rd (1024 * j + k)
/-- A stage publishes such an output and keeps it. -/
def State.setOut (s : State) (n : AxisId) (j k : Nat) (v : Word) : State :=
  (s.setE n j k v).modCh n fun c => { c with own := c.own.wr (1024 * j + k) v }
/-- A stage writes such an output over again at an activation that leaves it. -/
def State.publish (s : State) (n : AxisId) (j k : Nat) : State := s.setE n j k (s.own n j k)

/-- `len` bytes of CTM from a byte offset that is a multiple of 4. -/
def State.ctmBytes (s : State) (n : AxisId) (off len : Nat) : List Byte :=
  ((List.range ((len + 3) / 4)).flatMap fun k => wordBytes ((s.axis n).clu.ctm.rd (off / 4 + k))).take len
/-- Writes whole words into CTM from a byte offset. -/
def State.ctmWrite (s : State) (n : AxisId) (off : Nat) (bs : List Byte) : State :=
  s.modClu n fun c => { c with ctm := c.ctm.wrList (off / 4) (wordsOf bs) }

end Sys2Proof.Machine
end

