-- ==== Sys2Proof/Machine/Descriptor.lean ====
section
/-! DEFINITION. The 64 bytes of a descriptor (11 R317, R321): the opcodes, the header and the operands of each, the
reserved bytes, and what a descriptor that was fetched or came through a tunnel spells. -/

namespace Sys2Proof.Machine

/-! Field layouts, least significant byte first (11 R317). -/

/-- A 16-bit field. -/
def halfBytes (v : BitVec 16) : List Byte := [v.setWidth 8, (v >>> 8).setWidth 8]
/-- Reserved bytes. -/
def resBytes (n : Nat) : List Byte := List.replicate n 0#8

/-- A descriptor: the header of 16 bytes, the operands, and reserved bytes up to 64. -/
def descWith (op : BitVec 8) (h : DescHdr) (ops : List Byte) : List Byte :=
  fit 64 ([op, h.flags] ++ halfBytes h.tag ++ wordBytes h.timeoutUs ++ dwordBytes h.time ++ ops)

/-- The operands that the four kinds of FITTING share (08 R219). -/
def fitOps (kind : BitVec 8) (op : FitOp) : List Byte :=
  [kind, BitVec.ofNat 8 (op.commit.toNat + 2 * op.cross.toNat)] ++ halfBytes op.almHoldover ++ dwordBytes op.axes ++
  wordBytes op.iTest ++ wordBytes op.fitSpd ++ wordBytes op.travelMax ++ wordBytes op.len ++ wordBytes op.setId

/-- The descriptor that a command stands for, by the opcodes of 11 R321 and the operand tables of the owning chapters;
nothing for a command that is no descriptor, and for BAD_DESCRIPTOR. -/
def descOf : Instr → List Byte
  | .nop h => descWith 0x00#8 h []
  | .heartbeat h => descWith 0x01#8 h []
  | .axisStateHold h m => descWith 0x10#8 h (dwordBytes m ++ [0#8])
  | .axisStateRun h m => descWith 0x10#8 h (dwordBytes m ++ [1#8])
  | .axisMode h m mode red => descWith 0x11#8 h (dwordBytes m ++ [mode, red])
  | .axisProfile h n r crc _ => descWith 0x12#8 h ([n, r] ++ resBytes 6 ++ dwordBytes h.dataAddr ++ wordBytes crc)
  | .signalWrite h es =>
    descWith 0x13#8 h ([BitVec.ofNat 8 es.length] ++ resBytes 3 ++ es.flatMap fun e => wordBytes e.1 ++ wordBytes e.2)
  | .signalPulse h a on off stop =>
    descWith 0x14#8 h (wordBytes a ++ wordBytes on ++ wordBytes off ++ resBytes 4 ++ dwordBytes stop)
  | .segmentPush h n seg => descWith 0x15#8 h ([n] ++ resBytes 7 ++ fit 40 seg)
  | .segmentFlush h m => descWith 0x16#8 h (dwordBytes m)
  | .faultClear h m b f => descWith 0x18#8 h (dwordBytes m ++ [b, f])
  | .motorId h op => descWith 0x20#8 h (fitOps 0#8 op)
  | .inertia h op => descWith 0x20#8 h (fitOps 1#8 op)
  | .ripple h op => descWith 0x20#8 h (fitOps 2#8 op)
  | .resonance h op => descWith 0x20#8 h (fitOps 3#8 op)
  | .patternCommit h sel n k id _ => descWith 0x21#8 h ([sel, n, k, 0#8] ++ wordBytes id)
  | .patternCommitCtm h n k _ => descWith 0x21#8 h [2#8, n, k]
  | .patternDiscard h sel n k id => descWith 0x22#8 h ([sel, n, k, 0#8] ++ wordBytes id)
  | .patternWrite h len _ => descWith 0x23#8 h (resBytes 8 ++ dwordBytes h.dataAddr ++ wordBytes len)
  | .patternRead h n k w a len => descWith 0x24#8 h ([n, k, w] ++ resBytes 5 ++ dwordBytes a ++ wordBytes len)
  | .coordRoleSet h n => descWith 0x25#8 h [n, 1#8]
  | .coordRoleClear h n => descWith 0x25#8 h [n, 0#8]
  | .lensMap h n len _ => descWith 0x26#8 h ([n] ++ resBytes 7 ++ dwordBytes h.dataAddr ++ wordBytes len)
  | .engineLoad h n j bud len crc _ =>
    descWith 0x28#8 h ([n, j, 0#8, 0#8] ++ wordBytes bud ++ wordBytes len ++ dwordBytes h.dataAddr ++ wordBytes crc)
  | .engineStop h n j => descWith 0x29#8 h [n, j]
  | .seamOpen h m f => descWith 0x30#8 h (dwordBytes m ++ [f])
  | .seamAdd h k n crc _ =>
    descWith 0x31#8 h (halfBytes k ++ halfBytes n ++ resBytes 4 ++ dwordBytes h.dataAddr ++ wordBytes crc)
  | .seamArm h k p f r a d =>
    descWith 0x32#8 h (halfBytes k ++ [p, f, r] ++ resBytes 3 ++ dwordBytes a ++ dwordBytes d)
  | .seamCancel h k => descWith 0x33#8 h (halfBytes k)
  | .snapshot h t e r n k a _ dest =>
    descWith 0x34#8 h ([t, e, r, n] ++ halfBytes k ++ resBytes 2 ++ dwordBytes a ++ dwordBytes h.dataAddr ++ dwordBytes dest)
  | .telOpen h i n e r dec v _ ring size crc wm =>
    descWith 0x38#8 h ([i, n, e, r] ++ halfBytes dec ++ [v, 0#8] ++ dwordBytes h.dataAddr ++ dwordBytes ring ++
      wordBytes size ++ wordBytes crc ++ wordBytes wm)
  | .telClose h i => descWith 0x39#8 h [i]
  | .imageBegin h k len crc _ _ => descWith 0x40#8 h ([k] ++ resBytes 7 ++ dwordBytes h.dataAddr ++ wordBytes len ++ wordBytes crc)
  | .imageBlock h k i len _ _ _ => descWith 0x41#8 h ([k, 0#8] ++ halfBytes i ++ resBytes 4 ++ dwordBytes h.dataAddr ++ wordBytes len)
  | .imageEnd h k _ => descWith 0x42#8 h [k, 0#8]
  | .imageAbandon h k => descWith 0x42#8 h [k, 1#8]
  | .imageActivate h ks _ _ => descWith 0x43#8 h [ks]
  | .imageConfirm h _ => descWith 0x44#8 h []
  | .settingsWrite h len _ => descWith 0x48#8 h (resBytes 8 ++ dwordBytes h.dataAddr ++ wordBytes len)
  | .settingsRelease h => descWith 0x48#8 h [1#8]
  | .settingsRead h w a len => descWith 0x49#8 h ([w] ++ resBytes 7 ++ dwordBytes a ++ wordBytes len)
  | .report h a nonce => descWith 0x50#8 h (resBytes 8 ++ dwordBytes a ++ wideBytes nonce)
  | .keygen h a => descWith 0x50#8 h ([1#8] ++ resBytes 7 ++ dwordBytes a)
  | .certInstall h len _ _ => descWith 0x50#8 h ([2#8, 0#8] ++ halfBytes len ++ resBytes 4 ++ dwordBytes h.dataAddr)
  | .certRead h a => descWith 0x50#8 h ([3#8] ++ resBytes 7 ++ dwordBytes a)
  | .challenge h a => descWith 0x51#8 h (resBytes 8 ++ dwordBytes a)
  | .debugTokenOpen h _ _ => descWith 0x51#8 h ([1#8] ++ resBytes 7 ++ dwordBytes h.dataAddr)
  | .debugTokenClose h => descWith 0x51#8 h [2#8]
  | .otpRead h w n d => descWith 0x52#8 h (halfBytes w ++ halfBytes n ++ resBytes 4 ++ dwordBytes d)
  | .otpProgram h w n crc _ _ =>
    descWith 0x53#8 h (halfBytes w ++ halfBytes n ++ resBytes 4 ++ dwordBytes h.dataAddr ++ wordBytes crc)
  | .lifecycle h t c _ _ => descWith 0x54#8 h ([t, c] ++ resBytes 6 ++ (if t = 4#8 then dwordBytes h.dataAddr else []))
  | .tallyRead h k n q a => descWith 0x58#8 h ([k, 0#8] ++ halfBytes n ++ wordBytes q ++ dwordBytes a)
  | .wallTimeSet h t => descWith 0x59#8 h (resBytes 8 ++ dwordBytes t)
  | .canSend h c f len id _ => descWith 0x60#8 h ([c, f, len, 0#8] ++ wordBytes id ++ dwordBytes h.dataAddr)
  | .spSchedule h p k sel trig ref form sh w len dest tx m v =>
    descWith 0x68#8 h ([p, k, sel, trig, ref, form, sh, w] ++ halfBytes len ++ resBytes 2 ++ wordBytes dest ++ dwordBytes tx ++
      wordBytes m ++ wordBytes v)
  | .spTransfer h p sel len _ rx =>
    descWith 0x69#8 h ([p, sel] ++ halfBytes len ++ resBytes 4 ++ dwordBytes h.dataAddr ++ dwordBytes rx)
  | _ => []

/-! Reserved bytes and unknown opcodes (11 R317, R321). -/

/-- The operand bytes of an opcode, first and last of each run; none for an unknown opcode. Every other byte from 16 on is
reserved. -/
def descFields (bs : List Byte) : Option (List (Nat × Nat)) :=
  match (byteAt bs 0).toNat with
  | 0x00 | 0x01 | 0x44 => some []
  | 0x10 | 0x30 => some [(16, 24)]
  | 0x11 | 0x18 => some [(16, 25)]
  | 0x12 => some [(16, 17), (24, 35)]
  | 0x13 => some [(16, 16), (20, 19 + 8 * (byteAt bs 16).toNat)]
  | 0x14 => some [(16, 27), (32, 39)]
  | 0x15 => some [(16, 16), (24, 63)]
  | 0x16 => some [(16, 23)]
  | 0x20 => some [(16, 47)]
  | 0x21 | 0x22 => some [(16, 18), (20, 23)]
  | 0x23 => some [(24, 35)]
  | 0x24 => some [(16, 18), (24, 35)]
  | 0x25 | 0x29 | 0x33 | 0x42 => some [(16, 17)]
  | 0x26 | 0x48 | 0x49 => some [(16, 16), (24, 35)]
  | 0x28 => some [(16, 17), (20, 39)]
  | 0x31 => some [(16, 19), (24, 35)]
  | 0x32 => some [(16, 20), (24, 39)]
  | 0x34 => some [(16, 21), (24, 47)]
  | 0x38 => some [(16, 22), (24, 51)]
  | 0x39 | 0x43 => some [(16, 16)]
  | 0x40 => some [(16, 16), (24, 39)]
  | 0x41 => some [(16, 16), (18, 19), (24, 35)]
  | 0x50 => some [(16, 16), (18, 19), (24, 63)]
  | 0x51 => some [(16, 16), (24, 31)]
  | 0x52 => some [(16, 19), (24, 31)]
  | 0x53 => some [(16, 19), (24, 35)]
  | 0x54 => some [(16, 17), (24, 31)]
  | 0x58 => some [(16, 16), (18, 31)]
  | 0x59 => some [(24, 31)]
  | 0x60 => some [(16, 18), (20, 31)]
  | 0x68 => some [(16, 25), (28, 47)]
  | 0x69 => some [(16, 19), (24, 39)]
  | _ => none

/-- An operand that picks what the opcode does has a value that picks nothing: N of SIGNAL_WRITE, TARGET of AXIS_STATE, SET
of COORD_ROLE, KIND and FIT_FLAGS of FITTING, OP of SETTINGS_WRITE, FLAGS of IMAGE_END, KIND of ATTEST and DEBUG_TOKEN, and
the SET_ID that PATTERN_COMMIT from CTM does not take. -/
def descNoKind (bs : List Byte) : Bool :=
  let k := (byteAt bs 16).toNat
  let f := (byteAt bs 17).toNat
  match (byteAt bs 0).toNat with
  | 0x10 => decide (1 < (byteAt bs 24).toNat)
  | 0x13 => decide (5 < k)
  | 0x20 => decide (3 < k) || decide (3 < f)
  | 0x21 => k = 2 && wordAt bs 20 ≠ 0#32
  | 0x25 | 0x42 => decide (1 < f)
  | 0x48 => decide (1 < k)
  | 0x50 => decide (3 < k)
  | 0x51 => decide (2 < k)
  | _ => false

/-- The descriptor is one of R317's bad ones: its opcode is unknown, a FLAGS bit 7:4 is set, a reserved byte is not 0, or
nothing is picked. -/
def descBad (bs : List Byte) : Bool :=
  match descFields bs with
  | none => true
  | some l => decide (16 ≤ (byteAt bs 1).toNat) || descNoKind bs ||
    (List.range 48).any fun i => byteAt bs (16 + i) ≠ 0#8 && !l.any fun r => r.1 ≤ 16 + i && 16 + i ≤ r.2

/-- Operand bytes that the kind named in byte 16 does not use are not looked at (DEDUCED, log entry 163): LEN and NONCE of
ATTEST, ADDR and LEN of a RELEASE, ADDR of a CLOSE and of a LIFECYCLE that is not RETURN. -/
def descUsed (bs : List Byte) : List Byte :=
  let k := (byteAt bs 16).toNat
  let keep (p : Nat → Bool) : List Byte := (bs.zipIdx).map fun e => if p e.2 then e.1 else 0#8
  match (byteAt bs 0).toNat with
  | 0x48 => if k = 1 then keep fun i => decide (i < 24) else bs
  | 0x50 => keep fun i => (k = 2 || !(i = 18 || i = 19)) && (k = 0 || decide (i < 32))
  | 0x51 => if k = 2 then keep fun i => decide (i < 24) else bs
  | 0x54 => if k = 4 then bs else keep fun i => decide (i < 24)
  | _ => bs

/-! What a descriptor spells. -/

/-- How many bytes a command reads at its host-address operand, and the bytes that it brings. -/
def descData : Instr → Option (Nat × List Byte)
  | .axisProfile _ _ _ _ d => some (48, d)
  | .patternWrite _ len d | .lensMap _ _ len d | .engineLoad _ _ _ _ len _ d | .imageBegin _ _ len _ d _
  | .imageBlock _ _ _ len d _ _ | .settingsWrite _ len d => some (len.toNat, d)
  | .seamAdd _ _ n _ d => some (16 * n.toNat, d)
  | .snapshot _ _ _ _ n _ _ l _ => some (4 * (if n = 0#8 then 256 else n.toNat), l.flatMap wordBytes)
  | .certInstall _ len d _ => some (len.toNat, d)
  | .otpProgram _ _ n _ l _ => some (4 * n.toNat, l.flatMap wordBytes)
  | .debugTokenOpen _ d _ => some (288, d)
  | .lifecycle _ t _ d _ => if t = 4#8 then some (288, d) else none
  | .canSend _ _ f len _ d => some (if f.getLsbD 3 then 0 else len.toNat, d)
  | .spTransfer _ _ _ len d _ => some ((len.toNat + 7) / 8, d)
  | _ => none

/-- The bytes of a tunnel window at an offset, as they stand at this decode (12 R357, R358). -/
def State.windowAt (s : State) (c : CanId) (o n : Nat) : List Byte := (List.range n).map fun i => s.can[c].window.rd (o + i)

/-- The bytes that a command brings are those that a tunnelled descriptor's operand names in the window; a span that leaves
the window names none, and the descriptor's own check refuses it. -/
def State.windowGives (s : State) (c : CanId) (h : DescHdr) (i : Instr) : Bool :=
  match descData i with
  | none => true
  | some (n, d) => decide (65536 < h.dataAddr.toNat + n) || d = s.windowAt c h.dataAddr.toNat n

/-- The command is what the 64 bytes of a descriptor spell: for a bad one BAD_DESCRIPTOR with its opcode and header, else the
command whose descriptor they are. A FLAGS bit 7:4 may come with either. -/
def State.spells (s : State) (bs : List Byte) (h : DescHdr) (i : Instr) : Bool :=
  (match i with
   | .badDescriptor _ op => descBad bs && bs.take 16 = (descWith op h []).take 16
   | _ => descOf i ≠ [] && descUsed bs = descOf i) &&
  match h.src with
  | .sq _ => true
  | .tun c => s.windowGives c h i

end Sys2Proof.Machine
end

