-- ==== Sys2Proof/Machine/Rings.lean ====
section
/-! DEFINITION. What every descriptor shares: its ring's class, its place in flight, its admission to
decoding, its completion, and the writing of its results (11 R311 to R320, 12 R356, R357). -/

namespace Sys2Proof.Machine

/-- The code of a status (11 R320). -/
def Status.code : Status → BitVec 8
  | .ok => 0x00 | .aborted => 0x01 | .timeout => 0x02 | .lateSent => 0x03 | .halted => 0x04
  | .absent => 0x05 | .badArg => 0x06 | .badWindow => 0x07 | .conflict => 0x08 | .faulted => 0x09
  | .denied => 0x0A | .crc => 0x0B | .sig => 0x0C | .reset => 0x0D | .noSpace => 0x0E | .partialRes => 0x0F

/-- Whether a descriptor came through a CAN tunnel. -/
def isTun : RingSrc → Bool
  | .sq _ => false
  | .tun _ => true

/-- The class of a ring: HST_SQ_CFG or CAN_TUN CLASS. -/
def State.ringClass (s : State) : RingSrc → BitVec 2
  | .sq q => (s.hst.sq[q].cfg >>> 28).setWidth 2
  | .tun c => (s.can[c].tun >>> 29).setWidth 2

/-- The class default timeout in µs (11 R319). -/
def classTimeout (c : BitVec 2) : Nat :=
  if c = 0 then 1000 else if c = 1 then 10000 else if c = 2 then 100000 else 10000000

/-- A tunnelled descriptor waits to be decoded: it takes its place in flight at its decode (12 R356). -/
def InFlight.waits (d : InFlight) : Bool := isTun d.src && d.act = .fetched

/-- A free place in flight for a class (11 R315). -/
def State.place (s : State) (c : BitVec 2) : Bool :=
  let l := s.hst.inflight.filter fun d => !d.waits
  decide (l.length < 512) &&
  (c = 0 || decide ((l.filter fun d => d.cls ≠ 0).length < 480)) &&
  (c = 0 || c = 1 || decide ((l.filter fun d => d.cls = 2 || d.cls = 3).length < 256)) &&
  (c ≠ 3 || decide ((l.filter fun d => d.cls = 3).length < 128))

/-- Changes the first in-flight entry that `p` picks. -/
def modFirst {α : Type} (p : α → Bool) (f : α → α) : List α → List α
  | [] => []
  | d :: l => if p d then f d :: l else d :: modFirst p f l

/-- Removes the first element that `p` picks. -/
def dropFirst {α : Type} (p : α → Bool) : List α → List α
  | [] => []
  | d :: l => if p d then l else d :: dropFirst p l

def State.modInflight (s : State) (p : InFlight → Bool) (f : InFlight → InFlight) : State :=
  s.modHst fun h => { h with inflight := modFirst p f h.inflight }

/-- The entry of a descriptor that is being decoded. -/
def decoding (h : DescHdr) (d : InFlight) : Bool := d.src = h.src && d.tag = h.tag && d.act = .fetched

/-- The in-flight entry of a descriptor fetched now, by its 64 bytes (11 R317). -/
def State.newEntry (s : State) (src : RingSrc) (desc : List Byte) : InFlight :=
  let c := s.ringClass src
  let us := (wordAt desc 4).toNat
  { src := src, tag := byteAt desc 3 ++ byteAt desc 2, flags := byteAt desc 1, cls := c, since := s.cref,
    timeoutUs := if us = 0 then classTimeout c else us, act := .fetched, desc := desc }

/-- An earlier descriptor of the ring holds this one back: FENCE until all have completed, CHAIN
until the one before has (11 R316). -/
def heldBack (before : List InFlight) (flags : BitVec 8) : Bool :=
  (flags.getLsbD 0 && before.any fun d => d.act ≠ .done) ||
  match before.getLast? with
  | some d => d.flags.getLsbD 3 && d.act ≠ .done
  | none => false

/-- Notes that a chained descriptor of a ring ended other than OK (11 R316). -/
def State.setChainFail (s : State) (src : RingSrc) (v : Bool) : State :=
  match src with
  | .sq q => s.modHst fun h => { h with sq := h.sq.set q { h.sq[q] with chainFail := v } }
  | .tun c => s.modCan c fun k => { k with chainFail := v }

def State.chainFail (s : State) : RingSrc → Bool
  | .sq q => s.hst.sq[q].chainFail
  | .tun c => s.can[c].chainFail

/-- Admits a descriptor to decoding: it must be the next fetched one of its ring, in ring order, and not held back; one of a
tunnel needs a free place, which it takes now. A command with no fetched descriptor decodes nothing (log entry 8). The
supervisor decodes only once it is ready or in SERVICE mode. -/
def State.accept (s : State) (h : DescHdr) : Option State :=
  if !(s.sup = .ready || s.sup = .service) then none else
  let mine := s.hst.inflight.filter fun d => d.src = h.src
  let before := mine.takeWhile fun d => d.act ≠ .fetched
  let c := s.ringClass h.src
  match mine.find? fun d => d.act = .fetched with
  | some d =>
    if d.tag ≠ h.tag || heldBack before h.flags || (isTun h.src && !s.place c) then none
    else
      let s := s.modInflight (decoding h) fun d => { d with
        flags := h.flags, since := s.cref
        timeoutUs := if h.timeoutUs = 0 then classTimeout c else h.timeoutUs.toNat }
      some (if d.follows then s.setChainFail h.src true else s)
  | none => none

/-- The command is what the next fetched descriptor of its ring spells (11 R317). -/
def State.spelled (s : State) (h : DescHdr) (i : Instr) : Bool :=
  match (s.hst.inflight.filter fun d => d.src = h.src).find? fun d => d.act = .fetched with
  | some d => s.spells d.desc h i
  | none => false

/-- Completes the first in-flight descriptor with this source and tag that `p` picks: its completion
waits to be written. Nothing happens when there is none. -/
def State.completeIf (s : State) (p : InFlight → Bool) (src : RingSrc) (tag : BitVec 16) (st : Status)
    (info : Word) (time : Option Dword := none) : State :=
  let q (d : InFlight) : Bool := d.src = src && d.tag = tag && d.act ≠ .done && p d
  match s.hst.inflight.find? q with
  | none => s
  | some d =>
    let s := s.modInflight q fun d => { d with act := .done }
    let s := if d.flags.getLsbD 3 && st ≠ .ok then s.setChainFail src true else s
    if d.mute then s.modHst fun h => { h with inflight := dropFirst (fun e => e.src = src && e.tag = tag && e.act = .done && e.mute) h.inflight }
    else
    s.modHst fun h => { h with cplWait := h.cplWait ++
      [{ src := src, tag := tag, status := st, info := info, time := time, irq := d.flags.getLsbD 1 }] }

/-- Completes the descriptor that is being decoded. -/
def State.done (s : State) (h : DescHdr) (st : Status) (info : Word := 0#32) : State :=
  s.completeIf (fun d => d.act = .fetched) h.src h.tag st info

/-- A completion has been written or sent; for an activation the 10 ms to its restart run from here (17 R479). -/
def State.cplGone (s : State) (src : RingSrc) (tag : BitVec 16) : State :=
  if s.img.actBy = some (src, tag) then s.modImg fun m => { m with actBy := none, actAt := s.cref } else s

/-- The descriptor that is being decoded goes on as `a`. -/
def State.setAct (s : State) (h : DescHdr) (a : Act) : State :=
  s.modInflight (decoding h) fun d => { d with act := a }

/-- A heartbeat restarts and arms the host timer, and clears HOST_LOST (11 R332, R333). -/
def State.heartbeat (s : State) : State :=
  s.modHst fun h => { h with hbArmed := true, hbAt := s.cref, hostLost := false }

/-- A check of a descriptor: none where it passes, else the completion it gives. -/
abbrev Check := Option (Status × Word)

/-- The first check that fails. -/
def firstFail : List Check → Check
  | [] => none
  | none :: l => firstFail l
  | some e :: _ => some e

/-- A check that fails with `st` and `info` where `c` holds. -/
def failIf (c : Bool) (st : Status) (info : Word := 0#32) : Check := if c then some (st, info) else none

/-- Some axis of a mask is absent (00 R4). -/
def State.absentMask (s : State) (m : Dword) : Bool := (m &&& ~~~ s.variant.axisMask) ≠ 0
/-- Some axis of a mask has its domain off (14 R406). -/
def State.offMask (s : State) (m : Dword) : Bool := (axesOf m).any fun n => !s.axOn n

/-- The named axes are present and their domains on. -/
def State.axesCheck (s : State) (m : Dword) : Check :=
  firstFail [failIf (s.absentMask m) .absent, failIf (s.offMask m) .conflict]

/-- The axis that a descriptor's byte names is below 64 (its range, else BAD_ARG), present, and its domain
on. -/
def State.axisCheck (s : State) (v : BitVec 8) : Check :=
  match axisOf? v with
  | none => some (.badArg, 0#32)
  | some n => firstFail [failIf (!s.hasAxis n) .absent, failIf (!s.axOn n) .conflict]

/-- From an accepted request for DOZE or SLEEP until the module is back in HOLD, what would move an axis or
arm a Seam is refused (14 R405). -/
def State.powerCheck (s : State) : Check := failIf (s.pwr.mode ≠ PwrMode.active) .conflict

/-- A host-address operand with its span: through a tunnel its bits 63:16 are 0 and it lies inside the window (12 R357). -/
def spanCheck (src : RingSrc) (addr : Dword) (len : Nat) : Check :=
  failIf (isTun src && (decide (65536 ≤ addr.toNat) || decide (65536 < addr.toNat + len))) .badArg

/-- The data of `len` bytes that a descriptor reads at its host-address operand: aligned to `align` bytes, and inside
the window of a tunnel (12 R357). -/
def dataCheck (h : DescHdr) (align len : Nat) : Check :=
  firstFail [failIf (decide (h.dataAddr.toNat % align ≠ 0)) .badArg, spanCheck h.src h.dataAddr len]

/-- The decode of a descriptor that the command `i` stands for, in order: admission and the bytes that spell it, the host timer of a tunnelled descriptor, the
chain, FLAGS, TIMED, SERVICE mode, the descriptor's own checks `pre`, then its action `run`, or its
wait for the start edge (11 R316, R317, R321 to R323; 12 R356; 17 R473). -/
def State.decode (s : State) (h : DescHdr) (timedOk served : Bool) (i : Instr)
    (pre : State → Check) (run : State → State) : State :=
  match (s.accept h).filter fun _ => s.spelled h i with
  | none => s
  | some s =>
    let s := if isTun h.src then s.heartbeat else s
    if s.chainFail h.src then (s.setChainFail h.src false).done h .aborted 0xFF#32
    else if h.flags.toNat / 16 ≠ 0 then s.done h .badArg
    else if h.flags.getLsbD 2 && !timedOk then s.done h .badArg
    else if s.sup = SupMode.service && !served then s.done h .denied
    else
      match pre s with
      | some (st, info) => s.done h st info
      | none =>
        if h.flags.getLsbD 2 then
          if h.time.toNat < s.alm.time.toNat + 2000 then s.done h .aborted 1#32 else s.setAct h (.timed i)
        else run s

/-- The decode of a descriptor that does not accept TIMED, so that it never waits for a start edge. -/
def State.decodeNow (s : State) (h : DescHdr) (served : Bool) (i : Instr) (pre : State → Check) (run : State → State) : State :=
  s.decode h false served i pre run

/-! Results. -/

/-- Whether a buffer carries a CAN_SEND. -/
def TxBuf.isSend (b : TxBuf) : Bool := match b.owner with | .send _ _ => true | _ => false

/-- A count of CAN_CNT at bit `lo` rises by one and stops at 255. -/
def Can.count (k : Can) (lo : Nat) : Can :=
  if bits k.cnt (lo + 7) lo = 255 then k else { k with cnt := k.cnt + fieldAt lo 1 }

/-- The module's own frames that wait take the 4 buffers for them, in their order (12 R351; DESIGN CHOICE, log entry
164). -/
def Can.settleOwn (k : Can) (cref : Nat) : Can :=
  let n := 4 - (k.tx.filter fun b => !b.isSend).length
  { k with tx := k.tx ++ (k.own.take n).map fun b => { b with at_ := cref }, own := k.own.drop n }

/-- The module posts a frame of its own. In bus-off it is discarded and counts in TUN_DROP, as those that waited were
(12 R348; DESIGN CHOICE, log entry 164). -/
def Can.post (k : Can) (owner : TxOwner) (f : CanFrame) (cref : Nat) : Can :=
  if k.busOff then k.count 8
  else Can.settleOwn { k with txCount := k.txCount + 1, own := k.own ++ [{ id := k.txCount, owner := owner, frame := f }] } cref

/-- The module's own frames of a controller that have not been sent. -/
def Can.ownFrames (k : Can) : List TxBuf := (k.tx.filter fun b => !b.isSend) ++ k.own

/-- Hands bytes to a CAN controller as one of the module's own frames (12 R351, R355). -/
def State.queueOwn (s : State) (c : CanId) (owner : TxOwner) (ide : Bool) (id : Nat) (data : List Byte) : State :=
  s.modCan c fun k => k.post owner { ide := ide, fdf := true, brs := k.ctrl.getLsbD 3, id := BitVec.ofNat 29 id, data := data } s.cref

/-- Window-data frames for `data` at `off`, in ascending OFFSET (12 R357). -/
def State.windowOut (s : State) (c : CanId) : Nat → Nat → List Byte → State
  | 0, _, _ => s
  | _, _, [] => s
  | f + 1, off, data =>
    let t := s.can[c].tun
    let part := data.take 60
    let part := part ++ (List.range (60 - part.length)).map fun i => s.can[c].window.rd (off + part.length + i)
    State.windowOut (s.queueOwn c .window (bit t 31) (bits t 28 0 + 4) (wordBytes (BitVec.ofNat 32 off) ++ part))
      c f (off + 60) (data.drop 60)

/-- A descriptor's result is written to host memory, or into its tunnel window and onto the bus. -/
def State.writeOut (s : State) (src : RingSrc) (addr : Dword) (data : List Byte) : State :=
  match src with
  | .sq _ => if data.isEmpty then s else s.emit (.hostWrite addr data)
  | .tun c =>
    let s := s.modCan c fun k => { k with window := k.window.wrList addr.toNat data }
    s.windowOut c (data.length / 60 + 1) addr.toNat data

/-! Which axes a descriptor names, for halts (11 R330). -/

/-- The engines of the vendor chain: those that are not open. -/
def State.refWord (s : State) (a : Word) : Option AxisId :=
  let a := a.toNat
  let n : AxisId := Fin.ofNat 64 (a / 16384)
  let j : EngId := Fin.ofNat 16 (a / 1024 % 16)
  let k := a % 1024
  if s.isOpen n j then none
  else if (16 ≤ k && k < 64) || (j = 5 && k < 2) || (j = 8 && k = 0) || (j = 9 && k < 2) || (j = 12 && k = 1) then some n
  else none

/-- The axes that a motion descriptor names (11 R321, R330). -/
def State.motionAxes (s : State) : Instr → Dword
  | .signalWrite _ es => (es.filterMap fun e => s.refWord e.1).foldl (fun m n => m ||| axisMask n) 0#64
  | .signalPulse _ a _ _ _ => match s.refWord a with | some n => axisMask n | none => 0#64
  | .segmentPush _ a _ => match axisOf? a with | some n => axisMask n | none => 0#64
  | .motorId _ op => op.axes
  | .inertia _ op => op.axes
  | .ripple _ op => op.axes
  | .resonance _ op => op.axes
  | _ => 0#64

/-- The axes for which a halt ends an in-flight descriptor: a motion descriptor's, or those of an
AXIS_STATE with TARGET RUN, also before its decode. A motion descriptor not yet decoded ends at its decode. -/
def State.haltAxes (s : State) (d : InFlight) : Dword :=
  match d.act with
  | .fetched => if byteAt d.desc 0 = 0x10#8 && byteAt d.desc 24 = 1#8 then dwordAt d.desc 16 else 0#64
  | .timed (.axisStateRun _ m) => m
  | .timed i => s.motionAxes i
  | .axisRun m _ => m
  | .begun i _ => s.motionAxes i
  | .pulse a _ _ _ _ => match s.refWord a with | some n => axisMask n | none => 0#64
  | .fitting _ => (s.fits.filter fun f => f.hdr.src = d.src && f.hdr.tag = d.tag).foldl (fun m f => m ||| f.op.axes) 0#64
  | _ => 0#64

/-- A motion descriptor that names a marked axis completes HALTED. -/
def State.haltCheck (s : State) (m : Dword) : Check := failIf ((m &&& s.hst.halted) ≠ 0) .halted

/-- Completes in-flight descriptors that `p` picks, each with `st` and `info`. -/
def State.completeAll (s : State) (p : InFlight → Bool) (st : Status) (info : Word := 0#32) : State :=
  (s.hst.inflight.filter fun d => d.act ≠ .done && p d).foldl
    (fun s d => s.completeIf (fun e => p e && e.act = d.act) d.src d.tag st info) s

end Sys2Proof.Machine
end

