-- ==== Sys2Proof/Machine/Signals.lean ====
section
/-! DEFINITION. The signal words of the vendor chain: the parameter table of R196 and R233, the kinds
of word of R160, the checks of R161 on a write from the host path, and the last good values of
R162. -/

namespace Sys2Proof.Machine

/-- A row of the parameter table: binary32 or integer, its range, its default, whether it is marked H,
and whether 0 is allowed beside the range. -/
structure ParamSpec where
  real : Bool
  lo : Word
  hi : Word
  dflt : Word
  hold : Bool
  zero : Bool
  deriving DecidableEq, Repr

/-- The parameter words of the vendor chain, by engine and word (06 R196, 08 R233). -/
def paramSpec (j k : Nat) : Option ParamSpec :=
  match j, k with
  | 0, 64 => some { real := true, lo := 0x38D1B717#32, hi := 0x3DCCCCCD#32, dflt := 0x3B03126F#32, hold := true, zero := false }
  | 0, 65 => some { real := true, lo := 0x3C23D70A#32, hi := 0x447A0000#32, dflt := 0x3F800000#32, hold := false, zero := false }
  | 0, 66 => some { real := false, lo := 0x00000001#32, hi := 0x000000FF#32, dflt := 0x00000008#32, hold := false, zero := false }
  | 3, 64 => some { real := true, lo := 0x3A83126F#32, hi := 0x42C80000#32, dflt := 0x3DCCCCCD#32, hold := false, zero := false }
  | 3, 65 => some { real := true, lo := 0x358637BD#32, hi := 0x3F800000#32, dflt := 0x38D1B717#32, hold := true, zero := false }
  | 3, 66 => some { real := true, lo := 0x358637BD#32, hi := 0x3F800000#32, dflt := 0x38D1B717#32, hold := true, zero := false }
  | 3, 67 => some { real := true, lo := 0x3727C5AC#32, hi := 0x41200000#32, dflt := 0x3C23D70A#32, hold := true, zero := false }
  | 3, 68 => some { real := false, lo := 0x00000001#32, hi := 0x00000040#32, dflt := 0x00000004#32, hold := true, zero := false }
  | 3, 69 => some { real := true, lo := 0x00000000#32, hi := 0x461C4000#32, dflt := 0x42C80000#32, hold := false, zero := false }
  | 3, 70 => some { real := true, lo := 0x3F800000#32, hi := 0x461C4000#32, dflt := 0x42480000#32, hold := false, zero := false }
  | 3, 71 => some { real := true, lo := 0x3C23D70A#32, hi := 0x3F800000#32, dflt := 0x3E4CCCCD#32, hold := false, zero := false }
  | 4, 64 => some { real := false, lo := 0x00000000#32, hi := 0x00000003#32, dflt := 0x00000000#32, hold := true, zero := false }
  | 4, 65 => some { real := false, lo := 0x00000000#32, hi := 0xFFFFFFFF#32, dflt := 0x00000000#32, hold := false, zero := false }
  | 4, 66 => some { real := true, lo := 0x3F800000#32, hi := 0x459C4000#32, dflt := 0x43FA0000#32, hold := false, zero := false }
  | 4, 67 => some { real := false, lo := 0x00000000#32, hi := 0x000FFFFF#32, dflt := 0x00000000#32, hold := true, zero := false }
  | 4, 68 => some { real := true, lo := 0x00000000#32, hi := 0x3F800000#32, dflt := 0x00000000#32, hold := false, zero := false }
  | 4, 69 => some { real := true, lo := 0x3C23D70A#32, hi := 0x3F000000#32, dflt := 0x3DAA9931#32, hold := false, zero := false }
  | 4, 70 => some { real := true, lo := 0x38D1B717#32, hi := 0x3A83126F#32, dflt := 0x3A83126F#32, hold := false, zero := false }
  | 4, 71 => some { real := true, lo := 0x00000000#32, hi := 0x3F800000#32, dflt := 0x3F4CCCCD#32, hold := false, zero := false }
  | 4, 72 => some { real := false, lo := 0x00000000#32, hi := 0x00000001#32, dflt := 0x00000000#32, hold := false, zero := false }
  | 4, 73 => some { real := false, lo := 0x00000001#32, hi := 0x01000000#32, dflt := 0x00001000#32, hold := true, zero := false }
  | 4, 74 => some { real := true, lo := 0x3727C5AC#32, hi := 0x3F800000#32, dflt := 0x3C23D70A#32, hold := false, zero := true }
  | 5, 64 => some { real := true, lo := 0x3D4CCCCD#32, hi := 0x3F800000#32, dflt := 0x3F19999A#32, hold := false, zero := false }
  | 5, 65 => some { real := true, lo := 0x00000000#32, hi := 0x3F000000#32, dflt := 0x3D4CCCCD#32, hold := false, zero := false }
  | 5, 66 => some { real := true, lo := 0x3F000000#32, hi := 0x3F800000#32, dflt := 0x3F7AE148#32, hold := false, zero := false }
  | 6, 64 => some { real := true, lo := 0x00000000#32, hi := 0x42C80000#32, dflt := 0x00000000#32, hold := false, zero := false }
  | 6, 65 => some { real := true, lo := 0x00000000#32, hi := 0x362BCC77#32, dflt := 0x33D6BF95#32, hold := false, zero := false }
  | 6, 66 => some { real := false, lo := 0x00000000#32, hi := 0x00000001#32, dflt := 0x00000000#32, hold := false, zero := false }
  | 7, 64 => some { real := true, lo := 0x00000000#32, hi := 0x3FC00000#32, dflt := 0x00000000#32, hold := false, zero := false }
  | 7, 65 => some { real := false, lo := 0x00000000#32, hi := 0x00000001#32, dflt := 0x00000000#32, hold := false, zero := false }
  | 7, 66 => some { real := true, lo := 0x00000000#32, hi := 0x41200000#32, dflt := 0x3F000000#32, hold := false, zero := false }
  | 7, 67 => some { real := true, lo := 0x00000000#32, hi := 0x42C80000#32, dflt := 0x3DCCCCCD#32, hold := false, zero := false }
  | 7, 68 => some { real := true, lo := 0x00000000#32, hi := 0x447A0000#32, dflt := 0x3F000000#32, hold := false, zero := false }
  | 7, 69 => some { real := true, lo := 0x00000000#32, hi := 0x447A0000#32, dflt := 0x41A00000#32, hold := false, zero := false }
  | 7, 70 => some { real := true, lo := 0x3F800000#32, hi := 0x43FA0000#32, dflt := 0x40A00000#32, hold := false, zero := false }
  | 8, 64 => some { real := true, lo := 0x00000000#32, hi := 0x447A0000#32, dflt := 0x3D4CCCCD#32, hold := false, zero := false }
  | 8, 65 => some { real := true, lo := 0x00000000#32, hi := 0x47C35000#32, dflt := 0x40A00000#32, hold := false, zero := false }
  | 8, 66 => some { real := true, lo := 0x3089705F#32, hi := 0x42C80000#32, dflt := 0x38D1B717#32, hold := false, zero := false }
  | 8, 67 => some { real := true, lo := 0x00000000#32, hi := 0x44FA0000#32, dflt := 0x00000000#32, hold := false, zero := false }
  | 8, 68 => some { real := false, lo := 0x00000001#32, hi := 0x00000010#32, dflt := 0x00000001#32, hold := true, zero := false }
  | 8, 69 => some { real := true, lo := 0x00000000#32, hi := 0x461C4000#32, dflt := 0x447A0000#32, hold := false, zero := false }
  | 9, 64 => some { real := true, lo := 0x00000000#32, hi := 0x461C4000#32, dflt := 0x42480000#32, hold := false, zero := false }
  | 9, 65 => some { real := false, lo := 0x00000001#32, hi := 0x00000010#32, dflt := 0x00000001#32, hold := true, zero := false }
  | 11, 64 => some { real := true, lo := 0x3F800000#32, hi := 0x469C4000#32, dflt := 0x00000000#32, hold := false, zero := true }
  | 11, 65 => some { real := true, lo := 0x00000000#32, hi := 0x3F800000#32, dflt := 0x00000000#32, hold := false, zero := false }
  | 11, 66 => some { real := true, lo := 0x00000000#32, hi := 0x3F800000#32, dflt := 0x00000000#32, hold := false, zero := false }
  | 11, 67 => some { real := true, lo := 0x3F800000#32, hi := 0x469C4000#32, dflt := 0x00000000#32, hold := false, zero := true }
  | 11, 68 => some { real := true, lo := 0x00000000#32, hi := 0x3F800000#32, dflt := 0x00000000#32, hold := false, zero := false }
  | 11, 69 => some { real := true, lo := 0x00000000#32, hi := 0x3F800000#32, dflt := 0x00000000#32, hold := false, zero := false }
  | 11, 70 => some { real := true, lo := 0x3F800000#32, hi := 0x469C4000#32, dflt := 0x00000000#32, hold := false, zero := true }
  | 11, 71 => some { real := true, lo := 0x00000000#32, hi := 0x3F800000#32, dflt := 0x00000000#32, hold := false, zero := false }
  | 11, 72 => some { real := true, lo := 0x00000000#32, hi := 0x3F800000#32, dflt := 0x00000000#32, hold := false, zero := false }
  | 11, 73 => some { real := true, lo := 0x3F800000#32, hi := 0x469C4000#32, dflt := 0x00000000#32, hold := false, zero := true }
  | 11, 74 => some { real := true, lo := 0x00000000#32, hi := 0x3F800000#32, dflt := 0x00000000#32, hold := false, zero := false }
  | 11, 75 => some { real := true, lo := 0x00000000#32, hi := 0x3F800000#32, dflt := 0x00000000#32, hold := false, zero := false }
  | 11, 76 => some { real := true, lo := 0x41200000#32, hi := 0x469C4000#32, dflt := 0x00000000#32, hold := false, zero := true }
  | 12, 64 => some { real := true, lo := 0x00000000#32, hi := 0x43C80000#32, dflt := 0x00000000#32, hold := false, zero := false }
  | 12, 65 => some { real := true, lo := 0xC3C80000#32, hi := 0x00000000#32, dflt := 0x00000000#32, hold := false, zero := false }
  | 12, 66 => some { real := true, lo := 0xC2200000#32, hi := 0x437A0000#32, dflt := 0x42DC0000#32, hold := false, zero := false }
  | 12, 67 => some { real := true, lo := 0xC2200000#32, hi := 0x437A0000#32, dflt := 0x43020000#32, hold := false, zero := false }
  | 12, 68 => some { real := true, lo := 0x3C23D70A#32, hi := 0x42C80000#32, dflt := 0x40000000#32, hold := false, zero := false }
  | 12, 69 => some { real := true, lo := 0x3DCCCCCD#32, hi := 0x47C35000#32, dflt := 0x43480000#32, hold := false, zero := false }
  | 12, 70 => some { real := true, lo := 0x00000000#32, hi := 0x3F800000#32, dflt := 0x3BA3D70A#32, hold := false, zero := false }
  | 12, 71 => some { real := true, lo := 0x00000000#32, hi := 0x42C80000#32, dflt := 0x3F800000#32, hold := false, zero := false }
  | 12, 72 => some { real := true, lo := 0x42480000#32, hi := 0x432F0000#32, dflt := 0x43160000#32, hold := false, zero := false }
  | 12, 73 => some { real := false, lo := 0x00000000#32, hi := 0x00000010#32, dflt := 0x00000010#32, hold := false, zero := false }
  | 13, 64 => some { real := true, lo := 0x3D4CCCCD#32, hi := 0x3F800000#32, dflt := 0x3E800000#32, hold := false, zero := false }
  | 13, 65 => some { real := true, lo := 0x00000000#32, hi := 0x42C80000#32, dflt := 0x3F000000#32, hold := false, zero := false }
  | 13, 66 => some { real := false, lo := 0x00000001#32, hi := 0x00000040#32, dflt := 0x00000004#32, hold := false, zero := false }
  | _, _ => none

/-- A value is finite and within the range of its row. -/
def ParamSpec.inRange (p : ParamSpec) (v : Word) : Bool :=
  if p.real then F32.isFinite v && ((F32.le p.lo v && F32.le v p.hi) || (p.zero && F32.isZero v))
  else decide (p.lo ≤ v) && decide (v ≤ p.hi)

/-- The parameter words, for loading them all: engine and word. -/
def paramList : List (Nat × Nat) :=
  [(0, 64), (0, 65), (0, 66), (3, 64), (3, 65), (3, 66), (3, 67), (3, 68), (3, 69), (3, 70), (3,
   71), (4, 64), (4, 65), (4, 66), (4, 67), (4, 68), (4, 69), (4, 70), (4, 71), (4, 72), (4, 73),
   (4, 74), (5, 64), (5, 65), (5, 66), (6, 64), (6, 65), (6, 66), (7, 64), (7, 65), (7, 66), (7,
   67), (7, 68), (7, 69), (7, 70), (8, 64), (8, 65), (8, 66), (8, 67), (8, 68), (8, 69), (9, 64),
   (9, 65), (11, 64), (11, 65), (11, 66), (11, 67), (11, 68), (11, 69), (11, 70), (11, 71), (11,
   72), (11, 73), (11, 74), (11, 75), (11, 76), (12, 64), (12, 65), (12, 66), (12, 67), (12, 68),
   (12, 69), (12, 70), (12, 71), (12, 72), (12, 73), (13, 64), (13, 65), (13, 66)]

/-- Sensing input words E0.16 to E0.34 (06 R160). -/
def isSensing (j k : Nat) : Bool := j = 0 && decide (16 ≤ k) && decide (k ≤ 34)

/-- A reserved word of a vendor engine (06 R161). -/
def isReserved (j k : Nat) : Bool := decide (64 ≤ k) && (paramSpec j k).isNone

/-- The references that must be finite: those the catalogue gives as binary32 (06 R160, R195). -/
def isFloatRef (j k : Nat) : Bool :=
  (j = 5 && decide (k < 2)) || (j = 8 && k = 0) || (j = 12 && (k = 1 || k = 16 || k = 17))

/-- A binary32 reference that a stage uses: finite, and E12.1 also 0 or below (06 R161, R162). -/
def refGood (j k : Nat) (v : Word) : Bool := F32.isFinite v && !(j = 12 && k = 1 && F32.lt 0#32 v)

/-- The axis is in HOLD for what is reserved to HOLD: STATE HOLD, SAFE, which is otherwise as HOLD
(R165), or CHARGING, which comes before an axis leaves HOLD (R114) (DEDUCED, log entry 9). -/
def State.inHold (s : State) (n : AxisId) : Bool :=
  match (s.axis n).ch.st with
  | .hold | .charging | .safe => true
  | .starting | .run | .stopping => false

/-- STATE is HOLD or SAFE. -/
def State.atRest (s : State) (n : AxisId) : Bool :=
  match (s.axis n).ch.st with
  | .hold | .safe => true
  | .charging | .starting | .run | .stopping => false

/-- T_MOT_WARN below T_MOT_TRIP, with the one that is written (06 R196). -/
def State.warnTrip (s : State) (n : AxisId) (j k : Nat) (v : Word) : Bool :=
  if j = 12 && k = 66 then F32.lt v (s.e n 12 67)
  else if j = 12 && k = 67 then F32.lt (s.e n 12 66) v
  else true

/-- The parts of a signal address. -/
def sigAxis (a : Nat) : AxisId := Fin.ofNat 64 (a / 16384)
def sigEng (a : Nat) : EngId := Fin.ofNat 16 (a / 1024 % 16)
def sigWord (a : Nat) : Nat := a % 1024

/-- The check of a write from the host path, descriptor or Seam (06 R161, 09 R540, 00 R5, 14 R406). -/
def State.writeCheck (s : State) (a : Nat) (v : Word) (info : Word := 0#32) : Check :=
  let n := sigAxis a
  let j := sigEng a
  let k := sigWord a
  if 1048576 ≤ a then some (.badArg, info)
  else if !s.hasAxis n then some (.absent, 0#32)
  else if !s.axOn n then some (.conflict, 0#32)
  else if s.isOpen n j then failIf (s.openStopped n j) .conflict info
  else if isSensing j k || isReserved j k || (j = 4 && k = 73) then some (.badArg, info)
  else
    match paramSpec j k with
    | some p => failIf (!p.inRange v || !s.warnTrip n j k v || (p.hold && !s.inHold n)) .badArg info
    | none =>
      failIf (isFloatRef j k && !refGood j k v) .badArg info

/-- A write that the host path has checked: E0.64 carries E13's own copy of R_SHUNT with it (06 R193);
the words of a stopped open engine and of an engine that is not loaded hold nothing (09 R540, 06 R166). -/
def State.hostSigWrite (s : State) (a : Nat) (v : Word) : State :=
  let n := sigAxis a
  let j := sigEng a
  if s.noWords n j || !s.axOn n then s
  else
    let s := s.outWrite a v
    if !s.isOpen n j && j = 0 && sigWord a = 64 then s.modCh n fun c => { c with rShunt13 := v } else s

/-- What an engine or the fabric may store: not sensing inputs, reserved words or E12.2's own state, and
nothing into an absent or unpowered cluster or a stopped open engine (09 R254, R258, R540). -/
def State.engStore (s : State) (a : Nat) (v : Word) : State :=
  let n := sigAxis a
  let j := sigEng a
  let k := sigWord a
  if !s.axOn n || s.noWords n j then s
  else if !s.isOpen n j && (isSensing j k || isReserved j k) then s
  else s.outWrite a v

/-- The last good value of a parameter, its default while none has been read. -/
def State.lastGood (s : State) (n : AxisId) (j k : Nat) : Word :=
  match paramSpec j k with
  | none => 0#32
  | some p => let g := (s.axis n).ch.good.rd (1024 * j + k); if p.inRange g then g else p.dflt

/-- A parameter word where it is within its range, else its last good value. -/
def State.ranged (s : State) (n : AxisId) (j k : Nat) : Word :=
  let v := s.e n j k
  match paramSpec j k with
  | none => v
  | some p => if p.inRange v then v else s.lastGood n j k

/-- T_MOT_WARN is not below T_MOT_TRIP as E12 would read them (06 R162, R196). -/
def State.warnPairBad (s : State) (n : AxisId) (j k : Nat) : Bool :=
  j = 12 && (k = 66 || k = 67) && !F32.lt (s.ranged n 12 66) (s.ranged n 12 67)

/-- Reads a parameter as its stage does: a value out of range is not used, and the last good value stands (06
R162). -/
def State.param (s : State) (n : AxisId) (j k : Nat) : Word :=
  if s.warnPairBad n j k then s.lastGood n j k else s.ranged n j k

/-- A parameter word that its stage does not use: out of its range, out of order with its pair, or refused by the
stage for `also`. -/
def State.paramBad (s : State) (n : AxisId) (j : Nat) (also : Nat → Bool) (k : Nat) : Bool :=
  (match paramSpec j k with | some p => !p.inRange (s.e n j k) | none => false) || s.warnPairBad n j k || also k

/-- A stage reads parameter words, engine and word: it notes the good values, and raises SIGNAL_RANGE once if any is
not good. -/
def State.readWords (s : State) (n : AxisId) (ws : List (Nat × Nat)) (also : Nat → Bool := fun _ => false) : State :=
  let bad (e : Nat × Nat) : Bool := s.paramBad n e.1 also e.2
  let s' := ws.foldl (fun s e => if bad e then s else
    s.modCh n fun c => { c with good := c.good.wr (1024 * e.1 + e.2) (s.e n e.1 e.2) }) s
  if ws.any bad then s'.raise (axisSrc n 15) else s'

/-- The parameter words that the stage of engine j reads under its own number. E4 and E8, which start the slower steps
by them, read SPD_DIV and POS_DIV (06 R164; DEDUCED, log entry 160). -/
def stageWords (j : Nat) : List (Nat × Nat) :=
  paramList.filter fun e => e.1 = j && e ≠ (8, 68) && e ≠ (9, 65)

/-- Notes the good values that engine j reads, and raises SIGNAL_RANGE once if any is not good. -/
def State.readParams (s : State) (n : AxisId) (j : Nat) (also : Nat → Bool := fun _ => false) : State :=
  s.readWords n (stageWords j) also

/-- Reads a binary32 reference as its stage does, none good meaning 0 (06 R162). -/
def State.refWordOf (s : State) (n : AxisId) (j k : Nat) : Word :=
  let v := s.e n j k
  if refGood j k v then v else (s.axis n).ch.good.rd (1024 * j + k)

/-- Notes a good reference, and raises SIGNAL_RANGE for one that is not. -/
def State.readRef (s : State) (n : AxisId) (j k : Nat) : State :=
  let v := s.e n j k
  if refGood j k v then s.modCh n fun c => { c with good := c.good.wr (1024 * j + k) v }
  else s.raise (axisSrc n 15)

end Sys2Proof.Machine
end

