-- ==== Sys2Proof/Machine/Axes.lean ====
section
/-! DEFINITION. The operations that move an axis between its states: the forced states of its gates,
entry into HOLD and SAFE, the beginning of a stop, the end of a Fitting, and the bank's gate-enable
line (02 R47, R49; 06 R165; 07 R207 to R210; 08 R221). -/

namespace Sys2Proof.Machine

/-! Gates. -/

/-- The gate of phase p: high sides 0 to 2, low sides 3 to 5. -/
def hiGate (p : Fin 3) : Fin 6 := ⟨p.val, by omega⟩
def loGate (p : Fin 3) : Fin 6 := ⟨p.val + 3, by omega⟩
/-- The number of a gate, in the order of HSK (02 R56). -/
def gateIdx : Gate → Fin 6
  | .gha => 0 | .ghb => 1 | .ghc => 2 | .gla => 3 | .glb => 4 | .glc => 5
/-- The complement of a gate within its phase. -/
def complGate (g : Fin 6) : Fin 6 := ⟨(g.val + 3) % 6, by omega⟩
/-- The phase of a gate. -/
def gatePhase (g : Fin 6) : Fin 3 := ⟨g.val % 3, by omega⟩
/-- Whether a gate is a high side. -/
def isHigh (g : Fin 6) : Bool := decide (g.val < 3)

/-- A falling gate command: the gate sinks at once, and a turn-on that waits is gone (02 R34, R543).
The soft step of a two-step turn-off is not cut short (02 R45). -/
def GateSt.fall (g : GateSt) (cref : Nat) : GateSt :=
  { g with cmd := false, on := false, turned := false, pendingOn := false, vdsActive := false,
           offAt := if g.cmd || g.on then some cref else g.offAt }

/-- How the gates of an axis are forced. -/
inductive Forced where
  /-- The generator's commands pass. -/
  | none
  /-- All six off. -/
  | open
  /-- High sides off, low sides on. -/
  | short
  deriving DecidableEq, Repr

/-- The axis' bank has a released gate-enable line. -/
def State.gateEn (s : State) (n : AxisId) : Bool := s.bank[n.bank].gateEn

/-- What the generator itself forces: a debug halt, a short brake, a safe state (02 R47, 04 R119, 07
R209, R214); the coordination role forces OPEN (08 R240). -/
def State.genForced (s : State) (n : AxisId) : Forced :=
  let a := s.axis n
  if a.clu.role then .open
  else if a.pwm.dbgHalted then (if a.pwm.dbgHold then .none else .open)
  else if a.ch.hardBrake || a.ch.shortBrake then .short
  else if (a.ch.st = .run || a.ch.st = .stopping || (a.ch.st = .starting && a.ch.start ≠ .wait)) then .none
  else if a.gdr.ctrlIn.getLsbD 0 then .short else .open

/-- What forces OPEN from outside the generator: a power-stage latch, a withdrawn gate enable, a domain that is off,
and DOZE (02 R44, R49; 14 R404, R406). -/
def State.cutOpen (s : State) (n : AxisId) : Bool :=
  (s.axis n).gdr.latches ≠ 0 || !s.gateEn n || !s.axOn n || s.pwr.mode = .doze

/-- What forces the gates of axis n: over all of the above, a power-stage latch, a withdrawn gate
enable and a domain that is off force OPEN (02 R44, R49; 14 R406), and in DOZE every axis is OPEN (14 R404). -/
def State.forced (s : State) (n : AxisId) : Forced :=
  if s.cutOpen n then .open else s.genForced n

/-- CREF in taps, 32 to a cp: the beginning of the present cp. -/
def State.nowT (s : State) : Int := 32 * (s.cref : Int)

/-- An instant in taps has come: it lies before the end of the present cp. -/
def State.dueT (s : State) (t : Int) : Bool := decide (t < s.nowT + 32)

/-- A gate command of the generator falls, and the gate with it. A low side that is off has no active
comparators (03 R68). -/
def State.gateFall (s : State) (n : AxisId) (g : Fin 6) : State :=
  let s := s.modGate n g fun x => x.fall s.cref
  let s := if isHigh g then s
    else s.modSns n fun x => { x with cmpActive := setBitW x.cmpActive (gatePhase g).val false }
  s.modPh n (gatePhase g) fun p =>
    if isHigh g then { p with hi := false, hiDue := none, hiFall := none }
    else { p with lo := false, loDue := none, loFall := none }

/-- A rise of a low side's gate command falls due now. A command that stands and was not acted on is issued
afresh (02 R543). -/
def State.lowDue (s : State) (n : AxisId) (p : Fin 3) : State :=
  let g := (s.axis n).gdr.gates[loGate p]
  if (s.axis n).pwm.ph[p].lo && (g.on || g.pendingOn) then s
  else
    let s := s.modGate n (loGate p) fun g => { g with cmd := false }
    s.modPh n p fun x => { x with lo := false, loDue := some s.nowT }

/-- A charging refresh holds this gate on: the one low-side pulse that the generator makes from a safe state, and no
cut from outside it stands (04 R112, R114). -/
def State.chargePulse (s : State) (n : AxisId) (g : Fin 6) : Bool :=
  !isHigh g && (s.axis n).pwm.charging && (s.axis n).pwm.ph[gatePhase g].refresh && !s.cutOpen n

/-- All six gates off but for a charging refresh, or the three high sides off and the low sides due (02 R47). -/
def State.forceGates (s : State) (n : AxisId) : State :=
  match s.forced n with
  | .none => s
  | .open => ((List.finRange 6).filter fun g => !s.chargePulse n g).foldl (fun s g => s.gateFall n g) s
  | .short =>
    let s := [0, 1, 2].foldl (fun s g => s.gateFall n g) s
    [0, 1, 2].foldl (fun s p => s.lowDue n p) s

/-! The Tally's torque time (18 R488). -/

/-- Torque time runs while STATE is STARTING, RUN or STOPPING and the gate enable is released. -/
def State.noteTorque (s : State) (n : AxisId) : State :=
  let st := (s.axis n).ch.st
  let on := (st = .starting || st = .run || st = .stopping) && s.gateEn n
  s.modTly fun t =>
    let a := t.acc[n]
    let a := match on, a.since with
      | true, none => { a with since := some s.cref }
      | false, some c => { a with since := none, torqueMs := satAdd (2 ^ 32 * 1000 - 1) a.torqueMs ((s.cref - c) / 400000) }
      | _, _ => a
    { t with acc := t.acc.set n a }

/-- The accrual of axis n changes. -/
def State.accrue (s : State) (n : AxisId) (f : Accrual → Accrual) : State :=
  s.modTly fun t => { t with acc := t.acc.set n (f t.acc[n]) }

/-! Fittings end (08 R221). -/

/-- Axis n is named by a Fitting that runs. -/
def State.inFitting (s : State) (n : AxisId) : Bool := s.fits.any fun f => f.started && f.op.axes.getLsbD n.val
/-- Axis n is named by a Fitting that runs or waits for its start. -/
def State.inAnyFit (s : State) (n : AxisId) : Bool := s.fits.any fun f => f.op.axes.getLsbD n.val

/-- The stop record or the start record of an axis, as CTM holds it (07 R198). -/
def State.startRecord (s : State) (n : AxisId) : List Byte := s.ctmBytes n 0x1280 48
def State.stopRecord (s : State) (n : AxisId) : List Byte := s.ctmBytes n 0x12B0 48

/-- The depth and the head slot of the segment queue, which E10 keeps and shows in E10.1 and E10.3 bits 11:8 (06 R188). -/
def State.segDepth (s : State) (n : AxisId) : Nat := (s.own n 10 1).toNat
def State.segHead (s : State) (n : AxisId) : Nat := bits (s.own n 10 3) 11 8

/-- The byte offset in CTM of the segment at queue position i (06 R188, 09 R257). -/
def State.segOff (s : State) (n : AxisId) (i : Nat) : Nat := 0x1000 + 40 * ((s.segHead n + i) % 16)

/-- A flush of the segment queue: freed slots hold zeros, the depth is 0 and E10 lets E9's words go
(06 R189). -/
def State.segFlush (s : State) (n : AxisId) : State :=
  let s := (List.range (Nat.min 16 (s.segDepth n))).foldl
    (fun s i => s.ctmWrite n (s.segOff n i) (List.replicate 40 0)) s
  (s.setOut n 10 1 0#32).modCh n fun c => { c with seg := none }

/-- A stop begins on an axis in RUN (07 R207 to R209): the stop record is read, the queue is flushed
under controlled deceleration, and STOP_MODE SHORT brakes at once. -/
def State.beginStop (s : State) (n : AxisId) : State :=
  if (s.axis n).ch.st ≠ .run then s else
  let r := s.stopRecord n
  let short := bits (wordAt r 0) 1 0 = 1
  let wm := s.e n 4 3
  let s := s.modCh n fun c => { c with
    st := .stopping, stopRec := r, stopAt := s.cref, wStart := wm, wr := wm, lowRun := 0, shortBrake := short, sweep := none }
  let s := if short then s else s.segFlush n
  s.forceGates n

/-- An axis that charges for a Fitting goes back to HOLD. -/
def State.uncharge (s : State) (m : AxisId) : State :=
  if (s.axis m).ch.st = .charging then
    (s.modCh m fun c => { c with st := .hold, holdAt := some s.cref }).modPwm m fun w => { w with charging := false, chargeZeros := 0, leaveHold := false }
  else s

/-- Marks every Fitting that names axis n, running or waiting for its start, as ending with `st` and `why`, and stops
its other axes; those that charge for it, n among them, go back to HOLD (08 R221). A Fitting that already ends keeps its
first outcome. -/
def State.endFittings (s : State) (n : AxisId) (st : Status) (why : BitVec 8) : State :=
  let hit (f : Fit) : Bool :=
    f.op.axes.getLsbD n.val && f.ending.isNone
  let others : Dword := (s.fits.filter hit).foldl (fun m f => m ||| f.op.axes) 0#64
  let s := { s with fits := s.fits.map fun f => if hit f then { f with ending := some (st, why) } else f }
  s.forAxes (axesOf others) fun m s => if m = n then s.uncharge m else (s.uncharge m).beginStop m

/-! What waits for axes to come to rest. -/

/-- AXIS_STATE RUN descriptors end once each of their axes is in RUN or STARTING, or has failed
(11 R326). -/
def State.settleRuns (s : State) : State :=
  (s.hst.inflight).foldl (fun s d =>
    match d.act with
    | .axisRun m failed =>
      let waits (n : AxisId) : Bool := (s.axis n).ch.st = .charging
      if (axesOf m).any waits then s
      else
        match failed with
        | some n => s.completeIf (fun e => e.act = d.act) d.src d.tag .faulted (fieldAt 8 n.val ||| 7#32)
        | none => s.completeIf (fun e => e.act = d.act) d.src d.tag .ok 0#32
    | _ => s) s

/-- The number of axes in a mask. -/
def popcount (m : Dword) : Nat := (axesOf m).length

/-- A Fitting that has ended completes when the last of its axes is back in HOLD, or SAFE; each axis
takes its previous MODE again there (08 R221, R222). INFO bits 15:8 count the pending Patterns, one
for each axis of a sweep that completed. -/
def State.settleFits (s : State) : State :=
  s.fits.foldl (fun s f =>
    match f.ending with
    | none => s
    | some (st, why) =>
      let s := f.prevMode.foldl (fun s e => if s.atRest e.1 then s.modCh e.1 fun c => { c with mode := e.2 } else s) s
      if (axesOf f.op.axes).all s.atRest then
        let count := if st = .ok || st = .partialRes then popcount f.op.axes else 0
        let s := s.completeIf (fun d => match d.act with | .fitting _ => true | _ => false)
          f.hdr.src f.hdr.tag st (fieldAt 8 count ||| why.setWidth 32)
        { s with fits := dropFirst (fun g => g = f) s.fits }
      else s) s

/-! Entry into HOLD or SAFE. -/

/-- What the chain gives up when its axis goes to its safe state (06 R165, 07 R210). -/
def Chain.toSafe (c : Chain) (st : AxState) (cref : Nat) (e40 : Word) : Chain :=
  { c with
    st := st
    carry := if c.st = .run || c.st = .stopping then some e40 else c.carry
    start := .none, attempt := 0, failRaised := false, failDue := false, travel := none, back := 0#32, hoRun := 0
    shortBrake := false, hardBrake := false, hardRelease := false
    stallFrom := none, lowRun := 0, sweep := none
    holdAt := if c.st = st && (st = .hold || st = .safe) then c.holdAt else some cref }

/-- What the generator gives up: charging, and a refresh that belonged to it (04 R114). -/
def Pwm.toSafe (w : Pwm) : Pwm := { w with charging := false, chargeZeros := 0, leaveHold := false }

/-- An AXIS_STATE RUN that waits for axis n notes that charging failed on it (11 R326). -/
def State.runFailed (s : State) (n : AxisId) : State :=
  s.modHst fun h => { h with inflight := h.inflight.map fun d =>
    match d.act with
    | .axisRun m none => if m.getLsbD n.val then { d with act := .axisRun m (some n) } else d
    | .axisRun m (some k) =>
      if m.getLsbD n.val && decide (n.val < k.val) then { d with act := .axisRun m (some n) } else d
    | _ => d }

/-- The parameters marked H of Patterns loaded while the axis ran take effect in HOLD (08 R231). -/
def State.takeWaiting (s : State) (n : AxisId) : State :=
  let mine := s.img.waitH.filter fun e => sigAxis e.1 = n
  if mine.isEmpty then s
  else
    let s := s.modImg fun i => { i with waitH := i.waitH.filter fun e => sigAxis e.1 ≠ n }
    mine.foldl (fun s e => s.sigWrite e.1 e.2) s

/-- Axis n goes to its configured safe state with STATE `st` (02 R47). `why` and `code` end a Fitting
on it. -/
def State.sendSafe (s : State) (n : AxisId) (st : AxState) (why : Status := .faulted) : State :=
  let old := (s.axis n).ch.st
  let s := s.endFittings n why 0#8
  let s := if old = .charging then s.runFailed n else s
  let e40 := s.e n 4 0
  let s := s.modCh n fun c => c.toSafe st s.cref e40
  let s := (s.modPwm n Pwm.toSafe).takeWaiting n
  (((s.forceGates n).noteTorque n).settleRuns).settleFits

/-- An axis in RUN, STARTING, STOPPING or CHARGING goes to its safe state with STATE HOLD, unmarked
(14 R397, 15 R431). CHARGING is included because the axis is then no longer brought out of HOLD
(DEDUCED, log entry 7). -/
def State.dropToHold (s : State) (n : AxisId) : State :=
  match (s.axis n).ch.st with
  | .run | .starting | .stopping | .charging => s.sendSafe n .hold
  | _ => s.forceGates n

/-! The bank's gate-enable line (02 R49). -/

/-- SERVICE mode or SCRAP blocks every bank (condition 6 of R49). -/
def State.blocked (s : State) : Bool := s.sup = .service || s.sec.lc = 5#3 || s.sec.scrapped

/-- Condition 1 of R49, BNK_STATUS VDRV_OK. -/
def State.vdrvCond (s : State) (b : BankId) : Bool := s.bankOn b && (s.bnk b).vdrvOk && !s.pwr.uv

/-- The module is in a state in which its gate-enable lines can be released: it is started and not
in SLEEP (14 R402, R403, R409). -/
def PwrMode.live : PwrMode → Bool
  | .active | .enteringDoze | .doze | .waking => true
  | .off | .start | .enteringSleep | .sleep => false

/-- The conditions 1, 2, 5 and 6 of R49, which hold BRKGb off. A boot that finds the OTP bad stops short of them (16
R445). -/
def State.brkAllowed (s : State) (b : BankId) : Bool :=
  s.vdrvCond b && (s.bnk b).en && !s.flt.grave && !s.sec.otpBad && !s.blocked

/-- Everything that must hold for the line of bank b to be released. -/
def State.gateCond (s : State) (b : BankId) : Bool :=
  let k := s.bnk b
  s.brkAllowed b && (k.stoA && k.stoB) && k.allow && (s.clk.pllp && s.clk.dll && s.clk.ckl.getLsbD b.val) &&
  !s.flt.clockCut && !k.hot && s.pwr.mode.live && !s.sec.extest

/-- The one pulse of TEST_PULSE is over, cut short or not: BRKGb is off and BRK_MODE reads back OFF (02 R51). -/
def Bank.testEnd (k : Bank) : Bank :=
  { k with testRun := false, brkOn := false, brkCfg := k.brkCfg &&& 0xFFFFFFFC#32, brkIn := k.brkIn &&& 0xFFFFFFFC#32 }

/-- BRKGb when one of its conditions may have failed. -/
def Bank.brkCut (k : Bank) (allowed : Bool) : Bank :=
  if allowed then k else if k.testRun then k.testEnd else { k with brkOn := false }

/-- The line of bank b follows its conditions. When it is withdrawn every axis of the bank is in OPEN;
when it is released no axis moves, and the gate commands of the safe states are issued afresh (02
R49, R543). BRKGb goes off when one of its conditions fails. -/
def State.evalGate (s : State) (b : BankId) : State :=
  let old := (s.bnk b).gateEn
  let new := s.gateCond b
  let s := s.modBank b fun k => { k.brkCut (s.brkAllowed b) with gateEn := new }
  if old && !new then s.forAxes (bankAxes b) fun n s => (s.dropToHold n).noteTorque n
  else if !old && new then s.forAxes (bankAxes b) fun n s => s.forceGates n
  else s

/-- Every bank's line follows its conditions. -/
def State.evalGates (s : State) : State := s.forBanks allBanks fun b s => s.evalGate b

end Sys2Proof.Machine
end

