-- ==== Sys2Proof/Machine/Events.lean ====
section
/-! DEFINITION. The events of an axis as they reach its engines and the GP ports (04 R105, R106; 09
R262; 13 R394). -/

namespace Sys2Proof.Machine

/-- An event becomes pending in every engine of an axis' cluster; one that was pending merges and
sets EV_MERGE (09 R262). -/
def State.engEvent (s : State) (n : AxisId) (e : Nat) : State :=
  if !s.axOn n then s
  else s.modClu n fun c => { c with eng := c.eng.map fun x => { x with
    ev := setBitW x.ev e true
    sticky := if x.ev.getLsbD e then x.sticky ||| 0x04#7 else x.sticky } }

/-- An event becomes pending in one engine. -/
def State.oneEvent (s : State) (n : AxisId) (j : EngId) (e : Nat) : State :=
  if !s.axOn n then s
  else s.modEng n j fun x => { x with
    ev := setBitW x.ev e true
    sticky := if x.ev.getLsbD e then x.sticky ||| 0x04#7 else x.sticky }

/-- The event bit of a generator event (09 R262). -/
def evBit : PwmEv → Nat
  | .zero => 1 | .peak => 2 | .cmpA => 3 | .cmpB => 4 | .cmpC => 5 | .trg0 => 6 | .trg1 => 7

/-- GP_CFG FUNC, EVENT and AXIS of a port (13 R395). -/
def gpFunc (w : Word) : Nat := bits w 2 0
def gpEvent (w : Word) : Nat := let e := bits w 10 8; if e = 7 then 0 else e
def gpAxis (w : Word) : AxisId := Fin.ofNat 64 (bits w 29 24)
/-- A port whose state engines set (13 R394). -/
def State.gpEngine (s : State) (w : Word) : Bool := bit w 4 && s.variant.openEngines

/-- A generator event starts or extends the pulse of every EVENT_PULSE port that names it (13 R394). -/
def State.gpPulses (s : State) (n : AxisId) (e : Nat) : State :=
  if !s.sysOn 74 then s else
  let width := Nat.max 1 (bits s.ser.gpPulse 7 0)
  s.modSer fun r => (List.finRange 32).foldl (fun (r : Serial) (i : Fin 32) =>
    let w := r.gpCfg[i]
    if gpFunc w = 3 && gpEvent w = e && gpAxis w = n then
      { r with gpOut := setBitW r.gpOut i.val true, gpEnd := r.gpEnd.set i (some (s.cref + width)) }
    else r) r

/-- A period whose events are delivered: its PCOUNT is a multiple of N (04 R106). -/
def Pwm.evPeriod (w : Pwm) : Bool := w.pcount.toNat % (bits w.now.evt 3 0 + 1) = 0
/-- A period whose samples are taken. -/
def Pwm.smpPeriod (w : Pwm) : Bool := w.pcount.toNat % (bits w.now.evt 7 4 + 1) = 0

/-- A delivered generator event falls due at every schedule that names it, on an enabled port (13 R384). -/
def State.spEvents (s : State) (n : AxisId) (e : Nat) : State :=
  if !s.sysOn 74 then s
  else s.modSer fun r => { r with port := r.port.map fun (x : SpPort) =>
    if x.en then { x with slot := x.slot.map fun y =>
      if y.en && y.trig.toNat = e && y.ref = n then { y with due := y.due + 1 } else y } else x }

/-- An event counts towards the samples of the streams on it; the DECIM-th is selected (11 R335). -/
def Stream.onEvent (t : Stream) (n : AxisId) (e cref : Nat) : Stream :=
  if !(t.isOpen && t.event.toNat = e && t.ref.toNat = n.val) then t
  else if t.decim ≤ t.evCnt + 1 then { t with evCnt := 0, due := t.due ++ [cref] }
  else { t with evCnt := t.evCnt + 1 }

/-- The event resolves T of the snapshots that wait for it (10 R298). -/
def State.snapEvents (s : State) (n : AxisId) (e : Nat) : State :=
  s.modSeam fun u => { u with snaps := u.snaps.map fun p =>
    if p.trigger = 1#8 && p.event.toNat = e && p.ref.toNat = n.val && p.t.isNone
    then { p with t := some (s.cref, s.alm.time) } else p }

/-- The events that IRQ_SEL names interrupt the supervisor (04 R129). -/
def State.irqEvent (s : State) (n : AxisId) (e : Nat) : State :=
  if bit (s.axis n).pwm.now.evt (8 + e) then s.emit (.supIrq n e) else s

/-- A generator event is issued. In a selected period it is delivered to the engines, the serial schedules, the
supervisor and the GP ports; telemetry streams and snapshots take it in every period (04 R105, R106; 10 R298;
11 R335). -/
def State.pwmEvent (s : State) (n : AxisId) (e : PwmEv) : State :=
  let k := evBit e - 1
  let s := (s.modHst fun h => { h with tel := h.tel.map fun t => t.onEvent n k s.cref }).snapEvents n k
  if (s.axis n).pwm.evPeriod then (((s.engEvent n (evBit e)).gpPulses n k).spEvents n k).irqEvent n k else s

end Sys2Proof.Machine
end

