-- ==== Sys2Proof/Machine/EngineOps.lean ====
section
/-! DEFINITION. Stopping and zeroing engines, the misses and wedges of their activations, and cluster
recovery (09 R255, R264, R266 to R268, R273). -/

namespace Sys2Proof.Machine

/-- An engine that is stopped holds no events, mailbox entries, loads or stores. -/
def Eng.stop (x : Eng) : Eng :=
  { x with
    st := .stopped, ev := 0#32, mbox := [], wait := none, stores := [], load := none, fence := false
    missed := false, loaded := false }

/-- Engines run in RUN and HOLD and while DOZE is entered; in DOZE every one is stopped, and SLEEP has them off (14 R404,
R406). -/
def State.enginesRun (s : State) : Bool := s.pwr.mode = .active || s.pwr.mode = .enteringDoze

/-- A stopped engine with every memory and register zeroed. -/
def Eng.wipe (x : Eng) : Eng :=
  { x.stop with g := Vector.replicate 32 0#32, pc := 0#11, flags := 0#6, mboxSrc := 0#32, act := 0#32,
                crefHi := 0#32, priv := [], imem := [] }

/-- The open engine's own CTM area, as word indexes (09 R257). -/
def openArea (j : EngId) : Nat × Nat := if j = 14 then (0x3000, 0x3800) else (0x3800, 0x4000)

/-- The public words of one engine read 0, and its stage keeps nothing of them. -/
def State.clearPublic (s : State) (n : AxisId) (j : EngId) : State :=
  { s with sig := s.sig.clear (sigAddr n j.val 0) (sigAddr n j.val 1024) }.modCh n fun c => { c with
    own := c.own.clear (1024 * j.val) (1024 * j.val + 1024) }

/-! LENS_MAP waits for older activations (08 R244). -/

/-- Activation `a` of an engine is still open; one that the debugger holds is. -/
def Eng.opens (x : Eng) (a : Word) : Bool :=
  (x.st = .active || (x.st = .halted && x.haltedFrom = .active)) && x.act = a

/-- LENS_MAP descriptors on cluster n: each writes its table, FORMAT last, and completes once every activation that
began before its first write has ended. With the cluster's domain off it completes CONFLICT (DEDUCED, log entry 138). -/
def State.settleLens (s : State) (n : AxisId) : State :=
  s.hst.inflight.foldl (fun s d =>
    match d.act with
    | .lensMap m waits table =>
      if m ≠ n then s
      else if !s.axOn n then s.completeIf (fun e => e.act = d.act) d.src d.tag .conflict 0#32
      else if waits.any fun w => (s.eng n w.1).opens w.2 then s
      else (s.ctmWrite n 0x8000 table).completeIf (fun e => e.act = d.act) d.src d.tag .ok 0#32
    | _ => s) s

/-- An open engine stops: its memories are zeroed and, in an ordinary cluster, its own CTM area (09
R273). -/
def State.stopOpen (s : State) (n : AxisId) (j : EngId) : State :=
  let s := (s.modEng n j Eng.wipe).clearPublic n j
  let s := if j = 0 then s.modClu n fun c => { c with frames := [] } else s
  if (s.axis n).clu.role then s.settleLens n
  else
    let a := openArea j
    s.modClu n fun c => { c with ctm := c.ctm.clear a.1 a.2 }

/-- An open engine is stopped by an error or a wedge: its program runs no more and its public words read 0
(09 R251, R255, R266, R540). -/
def State.openStop (s : State) (n : AxisId) (j : EngId) : State :=
  let s := (s.modEng n j Eng.stop).clearPublic n j
  (if j = 0 then s.modClu n fun c => { c with frames := [] } else s).settleLens n

/-- All public words of a cluster read 0. -/
def State.clearCluster (s : State) (n : AxisId) : State :=
  { s with sig := s.sig.clear (16384 * n.val) (16384 * n.val + 16384) }.modCh n fun c => { c with own := [] }

/-- A cluster with its sixteen engines stopped and every memory zeroed. -/
def Clu.wipe (c : Clu) : Clu :=
  { c with eng := c.eng.map Eng.wipe, ctm := [], ripHdr := [], p0 := [], refitLp := 0#32, refitHold := false, frames := [] }

/-- A word of cluster n. -/
def inCluster (n : AxisId) (a : Word) : Bool := a.toNat / 16384 = n.val

/-- A descriptor that waits for its start edge names axis n, or a word of its cluster. -/
def timedOn (n : AxisId) : Instr → Bool
  | .axisStateHold _ m | .axisStateRun _ m | .segmentFlush _ m => m.getLsbD n.val
  | .axisMode _ m _ _ => m.getLsbD n.val
  | .signalWrite _ es => es.any fun e => inCluster n e.1
  | .signalPulse _ a _ _ _ => inCluster n a
  | _ => false

/-- The descriptors pending on an axis, for RESET and for CONFLICT of a role (08 R240, R244; 09 R267). Seams and Fittings
end by their own rules. -/
def pendingOn (n : AxisId) (d : InFlight) : Bool :=
  match d.act with
  | .timed i => timedOn n i
  | .axisRun m _ | .axisMode m _ => m.getLsbD n.val
  | .begun i _ => timedOn n i
  | .pulse a _ _ _ _ => inCluster n a
  | .lensMap m _ _ => m = n
  | .fetched | .seamOpen _ _ | .seam _ | .snapshot | .fitting _ | .canSend _ _ _ | .spTransfer _ | .done => false

/-- Cluster recovery begins (09 R267, steps 1 to 4), caused by engine j: `cause` 1 wedge or overflow, 2
uncorrectable error, 3 illegal instruction (09 R275). -/
def State.recover (s : State) (n : AxisId) (j : EngId) (cause : BitVec 2) : State :=
  if (s.axis n).clu.recovering || !s.axOn n then s
  else
    let s := s.sendSafe n .safe .reset
    let s := s.completeAll (pendingOn n) .reset
    let s := s.modClu n fun c => { c.wipe with
      recovering := true, recoverCnt := c.recoverCnt + 1#8, lastEngine := BitVec.ofNat 4 j.val, lastCause := cause }
    let s := { s with posts := s.posts.filter fun p => p.to_ ≠ n }
    let s := s.modCh n fun c => { c with seg := none, modeWait := false }
    s.clearCluster n

/-- The greater of two words. -/
def maxWord (a b : Word) : Word := if a < b then b else a

/-- An activation of a vendor stage: it counts, is stamped with the commit epoch, and its length, which the spec leaves
open, is a free value (09 R252, R263, R266, R279; 10 R291). -/
def Eng.activated (x : Eng) (id cref period epoch : Nat) : Eng :=
  let len := Config.stageLen id (x.act + 1#32)
  { x with act := x.act + 1#32, actAt := cref, missed := false, period := period, epoch := epoch
           actMax := maxWord x.actMax len, len := len }

/-- An activation of each of these engines begins. -/
def State.activate (s : State) (n : AxisId) (js : List EngId) : State :=
  let per := 2 * (s.axis n).pwm.act.per.toNat
  let go (i : Nat) (x : Eng) : Eng := x.activated (16 * n.val + i) s.cref per s.seam.epoch.toNat
  s.modClu n fun c => { c with eng := c.eng.mapFinIdx fun i x h => if js.contains ⟨i, h⟩ then go i x else x }

/-- DEADLINE is raised once in an activation, and MISS is set (09 R266). -/
def State.miss (s : State) (n : AxisId) (j : EngId) : State :=
  if (s.eng n j).missed then s
  else
    let s := s.modEng n j fun x => { x with missed := true }
    (s.modClu n fun c => { c with miss := c.miss ||| bitAt j.val true }).raise (axisSrc n 11)

/-- A wedge of an engine: recovery of a vendor cluster, or a stop of an open engine (09 R266). -/
def State.wedged (s : State) (n : AxisId) (j : EngId) : State :=
  let s := s.miss n j
  if s.isOpen n j then (s.modClu n fun c => { c with miss := c.miss ||| bitAt (16 + j.val) true }).openStop n j
  else s.recover n j 1#2

/-- An uncorrectable error that engine j meets (09 R255). In a coordination cluster all of CTM
is open. -/
def State.eccHit (s : State) (n : AxisId) (j : EngId) (area : EccArea) : State :=
  if !s.axOn n || (s.axis n).clu.recovering then s
  else
    let vendor := match area with
      | .vendorCtm => !(s.axis n).clu.role
      | .imem | .dmem | .openCtm => !s.isOpen n j
    if vendor then (s.raise (axisSrc n 12)).recover n j 2#2
    else (s.openStop n j).modEng n j fun x => { x with sticky := x.sticky ||| 0x40#7 }

/-- An access under an armed injection (15 R434): a single inverted bit is corrected and counted, and the
access goes on; inverted bits are met as an uncorrectable error. -/
def State.injectAt (s : State) (m n : AxisId) (j : EngId) (area : EccArea) (go : State → State) : State :=
  let single := bit s.flt.inj 30
  let s := s.useInj
  if single then go (s.modClu m fun c => { c with corrCnt := satInc c.corrCnt }) else s.eccHit n j area

/-- The activations of vendor stages meet an armed injection of a memory that they read: their instruction and data SRAM,
and CTM for E7, E10 and E12, which keep tables there (15 R434). -/
def State.stageInj (s : State) (n : AxisId) (js : List EngId) (go : State → State) : State :=
  match js.find? fun j => s.injected 0 (16 * n.val + j.val) || s.injected 1 (16 * n.val + j.val) with
  | some j => s.injectAt n n j .dmem go
  | none =>
    if s.injected 2 n.val && (js.any fun j => j = 7 || j = 10 || j = 12) then
      s.injectAt n n ((js.find? fun j => j = 7 || j = 10 || j = 12).getD 7) .vendorCtm go
    else go s

end Sys2Proof.Machine
end

