-- ==== Sys2Proof/Machine/Fan.lean ====
section
/-! DEFINITION. The duty of the module fan and the state of its check (14 R416 to R418). -/

namespace Sys2Proof.Machine

/-- The hottest of a list of readings in 1/16 °C. -/
def hottest (l : List (BitVec 16)) : Int := l.foldl (fun m v => if m < v.toInt then v.toInt else m) (-32768)

/-- The hottest die sensor of the module in 1/16 °C, as the STATUS frames and the control die give them. -/
def State.hottestDie (s : State) : Int :=
  hottest (s.pwr.ctrlT0 :: s.pwr.ctrlT1 ::
    (s.presentBanks.filter s.bankOn).flatMap fun b => (s.bnk b).temps.toList)

/-- The duty that FAN_MODE asks for, in percent; the curve is rounded down to a step. -/
def State.fanAsked (s : State) : Nat :=
  let c := s.pwr.fanCfg
  match bits c 1 0 with
  | 0 => 0
  | 1 => Nat.min 100 (bits c 23 16)
  | _ =>
    let lo := bits s.pwr.fanCurve 7 0
    let hi := bits s.pwr.fanCurve 15 8
    let mn := Nat.min 100 (bits c 15 8)
    if hi ≤ lo then 100
    else
      let t := s.hottestDie - 16 * (lo : Int)
      if t ≤ 0 then mn
      else if 16 * ((hi : Int) - lo) ≤ t then 100
      else mn + (((100 - mn : Nat) : Int) * t / (16 * ((hi : Int) - lo))).toNat

/-- The present duty. -/
def State.fanDuty (s : State) : Nat :=
  if s.pwr.fanStopped then 0
  else if s.pwr.fanFail || s.pwr.fanSeq = FanSeq.kick then 100
  else s.fanAsked

/-- The check follows the drive that FAN_MODE asks for, at every change of it: at 30 % and above it looks for edges,
below it is suspended and the running mark goes (14 R417). -/
def State.fanEval (s : State) : State :=
  if s.pwr.fanFail then s
  else if s.pwr.fanStopped || s.fanAsked < 30 then
    s.modPwr fun p => { p with fanSeq := .idle, fanRunning := false, fanKicks := 0#2 }
  else if s.pwr.fanRunning || s.pwr.fanSeq ≠ FanSeq.idle then s
  else s.modPwr fun p => { p with fanSeq := .window, fanSeqAt := s.cref, fanKicks := 0#2 }

end Sys2Proof.Machine
end

