-- ==== Sys2Proof/Machine/Feedback.lean ====
section
/-! DEFINITION. The position feedback interface of an axis (05): decoding of edges, position, index and
auxiliary capture, the speed span, SSI frames, the latch at a sample hold, and sensor loss. Every
timestamp is the CREF of the instant at which the command acts. Commands for one CKP edge may come in any order: what
R146 puts later is done over after what it puts earlier (`Fbk.rewind`, `Fbk.finish`). -/

namespace Sys2Proof.Machine

/-- MODE of FBK_CTRL (05 R154). -/
inductive FbkMode where
  | off | quad | hall | ssi
  deriving DecidableEq, Repr

def Fbk.mode (f : Fbk) : FbkMode :=
  match bits f.ctrl 1 0 with
  | 0 => .off | 1 => .quad | 2 => .hall | _ => .ssi

/-- CPR with code 0 as 2^24 (05 R156). -/
def Fbk.cprVal (f : Fbk) : Nat := if bits f.cpr 23 0 = 0 then 2 ^ 24 else bits f.cpr 23 0

/-- The linear position L (05 R142). -/
def Fbk.pos (f : Fbk) : Int := f.rev.toInt * f.cprVal + f.count

/-- Sets L: COUNT and REV follow, and a wrap of REV sets REV_WRAP (05 R142). -/
def Fbk.setPos (f : Fbk) (l : Int) : Fbk :=
  let r := l / (f.cprVal : Int)
  let wraps := r < -(2 : Int) ^ 31 || (2 : Int) ^ 31 ≤ r
  { f with
    count := (l % (f.cprVal : Int)).toNat, rev := BitVec.ofInt 32 r
    sticky := if wraps then f.sticky ||| 0x02#8 else f.sticky }

/-- The Hall code of the accepted levels, after the inversion of V (05 R137). Outside HALL it is formed of the levels of
QA, QB and QI in the same way (DESIGN CHOICE, log entry 130). -/
def Fbk.code (f : Fbk) : Nat :=
  let l := f.levels
  (if l.getLsbD 0 then 1 else 0) + (if l.getLsbD 1 != bit f.ctrl 6 then 2 else 0) + (if l.getLsbD 2 then 4 else 0)

/-- The sector of a Hall code (05 R137). -/
def hallSector : Nat → Option (Fin 6)
  | 1 => some 0 | 3 => some 1 | 2 => some 2 | 6 => some 3 | 4 => some 4 | 5 => some 5 | _ => none

/-- The span restarts with a reference edge at `t` (05 R149). -/
def Fbk.restart (f : Fbk) (t : Nat) : Fbk := { f with refAt := some t, n := 0, lastAt := t }

/-- The span restarts at an illegal transition, which becomes the reference edge but is no counted edge:
AGE still counts from the last counted edge (05 R148, R149). It becomes the reference also where there was none
(DEDUCED, log entry 158). -/
def Fbk.restartIllegal (f : Fbk) (t : Nat) : Fbk := { f with refAt := some t, n := 0 }

/-- The span restarts with no reference edge (05 R148). The next counted edge is no reversal, and the run of edges
against DIR begins anew, while DIR stands (DESIGN CHOICE, log entry 130). -/
def Fbk.noRef (f : Fbk) (t : Nat) : Fbk := { f with refAt := none, n := 0, lastAt := t, lastDir := none, dirRun := 0 }

/-- A counted edge in the span: the first becomes the reference, a reversal restarts the span and sets
REVERSAL, and one more than 2^31 cp after the reference restarts it too (05 R148, R149). -/
def Fbk.span (f : Fbk) (back : Bool) (t : Nat) : Fbk :=
  let rev := f.lastDir = some (!back)
  let g : Fbk :=
    match f.refAt with
    | none => f.restart t
    | some r =>
      if rev || 2 ^ 31 < t - r then f.restart t
      else { f with n := f.n + (if back then -1 else 1), lastAt := t }
  { g with lastDir := some back, since := if rev then g.since ||| 0x04#8 else g.since }

/-- DIR after a counted edge, with the run of edges against it (05 R150). -/
def Fbk.turn (f : Fbk) (back : Bool) : Fbk :=
  if back = f.dir then { f with dirRun := 0 }
  else if bits f.filt 31 24 < f.dirRun + 1 then { f with dir := back, dirRun := 0 }
  else { f with dirRun := f.dirRun + 1 }

/-! The filters (05 R134). -/

/-- FILT of a terminal, QA, QB, QI and QX at 0 to 3: FILT_Q for QA and QB, and for QI as W of HALL; FILT_I for QI and
FILT_X for QX. In SSI QB passes its synchroniser alone. -/
def Fbk.filtOf (f : Fbk) (i : Fin 4) : Nat :=
  match i with
  | 0 => bits f.filt 7 0
  | 1 => if f.mode = .ssi then 0 else bits f.filt 7 0
  | 2 => if f.mode = .hall then bits f.filt 7 0 else bits f.filt 15 8
  | 3 => bits f.filt 23 16

/-- The accepted level of a terminal: a change is accepted once the synchronised level has differed for FILT cp, and
with FILT = 0 on the first CKP edge at which it is seen. -/
def Fbk.accept (f : Fbk) (i : Fin 4) (p : Pin) : Bool :=
  if f.filtOf i ≤ p.held then p.level else f.levels.getLsbD i.val

/-! The actions of one CKP edge (05 R146). -/

/-- Puts the interface back to where it stood before the index capture, the auxiliary capture, the preset and the hold
of this CKP edge, or begins the record of a new edge. -/
def Fbk.rewind (f : Fbk) (t : Nat) : Fbk :=
  match f.edge with
  | some e =>
    if e.at_ = t then
      { f with
        count := e.base.count, rev := e.base.rev, sticky := e.base.sticky, idxArm := e.base.idxArm
        since := e.base.since, refAt := e.base.refAt, n := e.base.n }
    else { f with edge := some { at_ := t, base := {} } }
  | none => { f with edge := some { at_ := t, base := {} } }

/-- A sticky bit of FBK_STATUS is set, and stays so where this CKP edge is done over. -/
def Fbk.setSticky (f : Fbk) (m : BitVec 8) : Fbk :=
  { f with
    sticky := f.sticky ||| m
    edge := f.edge.map fun e => { e with base := { e.base with sticky := e.base.sticky ||| m } } }

/-- WR_REJECT is set (05 R143, R153). -/
def Fbk.reject (f : Fbk) : Fbk := f.setSticky 0x80#8

/-- FEEDBACK_LOSS follows the loss conditions: it is raised when one begins (05 R152). -/
def State.noteLoss (s : State) (n : AxisId) (begins : Bool) : State :=
  let f := (s.axis n).fbk
  let on := f.lossIll || f.lossHall
  let src := axisSrc n 7
  let s := s.modFlt fun t => { t with met := setBitW t.met src on, cause := setBitW t.cause src on }
  if begins then s.raise src else s

/-- A counted edge: position, span and direction; a change of DIR is an event, and with DIR_IRQ_EN an interrupt to the
supervisor (05 R136, R148 to R150). -/
def State.countEdge (s : State) (n : AxisId) (back : Bool) : State :=
  let old := (s.axis n).fbk.dir
  let s := s.modFbk n fun f =>
    ((f.setPos (f.pos + (if back then -1 else 1))).span back s.cref).turn back
  if (s.axis n).fbk.dir = old then s
  else
    let s := s.engEvent n 9
    if bit (s.axis n).fbk.ctrl 15 then s.emit (.supIrq n 7) else s

/-- An illegal transition: ILLEGAL, the span restarts, and the leaky counter rises (05 R135, R152). -/
def State.illegalEdge (s : State) (n : AxisId) : State :=
  let begins (f : Fbk) : Bool :=
    !f.lossIll && decide (Nat.max 1 (bits f.lossCfg 7 0) ≤ f.leak.toNat + 1)
  let b := begins (s.axis n).fbk
  let s := s.modFbk n fun f =>
    let f := f.restartIllegal s.cref
    { f with
      sticky := f.sticky ||| 0x01#8, since := f.since ||| 0x08#8, leak := satInc f.leak, lossIll := f.lossIll || b }
  s.noteLoss n b

/-- An accepted edge comes less than 10 cp after the previous one (05 R135). -/
def Fbk.tooSoon (f : Fbk) (t : Nat) : Bool :=
  match f.edgeAt with
  | some e => decide (t < e + 10)
  | none => false

/-! Index and auxiliary capture (05 R144, R145), and the latch at a sample hold (05 R148, R151). -/

/-- The correction d of an index event (05 R144). -/
def Fbk.idxD (f : Fbk) : Int :=
  let c : Int := f.cprVal
  let d := ((bits f.idxCfg 23 0 : Nat) - (f.count : Int)) % c
  if c ≤ 2 * d then d - c else d

/-- The position after an index correction. It clears IDX_ARM in RESET_FIRST alone; in RESET_EVERY an arming stands
(DESIGN CHOICE, log entry 130). -/
def Fbk.correct (f : Fbk) : Fbk :=
  let d := f.idxD
  let f := f.setPos (f.pos + d)
  { f with
    idxErr := BitVec.ofInt 32 d, idxArm := f.idxArm && bits f.ctrl 9 8 ≠ 2
    sticky := if bits f.idxCfg 31 24 < d.natAbs then f.sticky ||| 0x10#8 else f.sticky }

/-- An index event captures the position and corrects it as IDX_MODE says (05 R144). -/
def Fbk.indexTake (f : Fbk) : Fbk :=
  let f := { f with
    idxLo := BitVec.ofNat 32 f.count, idxHi := f.rev, sticky := f.sticky ||| 0x04#8, since := f.since ||| 0x10#8 }
  if bits f.ctrl 9 8 = 3 || (bits f.ctrl 9 8 = 2 && f.idxArm) then f.correct else f

/-- The auxiliary capture (05 R145). -/
def Fbk.auxTake (f : Fbk) : Fbk :=
  { f with auxLo := BitVec.ofNat 32 f.count, auxHi := f.rev, sticky := f.sticky ||| 0x08#8 }

/-- The status word FB_STAT. -/
def Fbk.stat (f : Fbk) : Word :=
  fieldAt 10 f.code ||| fieldAt 8 (bits f.ctrl 1 0) ||| bitAt 7 (f.since.getLsbD 7) |||
  bitAt 6 f.ssiLastBad ||| bitAt 5 f.hallInvalid ||| bitAt 4 (f.since.getLsbD 4) |||
  bitAt 3 (f.since.getLsbD 3) ||| bitAt 2 (f.since.getLsbD 2) ||| bitAt 1 f.dir |||
  bitAt 0 (!(f.lossIll || f.lossHall || f.mode = .off))

/-- A count of cp as AGE and T carry it, stopping at 0xFFFFFFFF. -/
def satWord (v : Nat) : Word := BitVec.ofNat 32 (Nat.min v (2 ^ 32 - 1))

/-- FEEDBACK_LATCH: the six feedback words are latched and the span begins anew at its last counted
edge. -/
def Fbk.latch (f : Fbk) (t : Nat) : Fbk :=
  let ssi := f.mode = .ssi
  let nW := BitVec.ofInt 32 (if ssi then f.ssiN else if f.refAt.isSome then f.n else 0)
  let tW := satWord (if ssi then f.ssiT else match f.refAt with | some r => f.lastAt - r | none => 0)
  let aW := satWord (t - (if ssi then f.ssiTrigAt else f.lastAt))
  { f with
    words := #v[BitVec.ofNat 32 f.count, f.rev, nW, tW, aW, f.stat]
    spanN := nW, spanT := tW, age := aW
    refAt := f.refAt.map fun r => Nat.max r f.lastAt, n := 0, since := 0#8 }

/-- What the record of the edge keeps of the interface. -/
def Fbk.base (f : Fbk) : FbkBase :=
  { count := f.count, rev := f.rev, sticky := f.sticky, idxArm := f.idxArm, since := f.since, refAt := f.refAt, n := f.n }

/-- The record of the CKP edge changes. -/
def Fbk.modEdge (f : Fbk) (g : FbkEdge → FbkEdge) : Fbk := { f with edge := f.edge.map g }

/-- Keeps where the interface stands after the counts of this CKP edge, and does its index capture, its auxiliary
capture, its preset and its hold in the order of R146. -/
def Fbk.finish (f : Fbk) (t : Nat) : Fbk :=
  let f := f.modEdge fun e => { e with base := f.base }
  match f.edge with
  | none => f
  | some e =>
    let f := if e.idx then f.indexTake else f
    let f := if e.aux then f.auxTake else f
    let f := match e.preset with
      | some (c, r) => { f with count := c, rev := r, since := f.since ||| 0x80#8 }
      | none => f
    if e.hold then f.latch t else f

/-- The actions of the present CKP edge end: a hold of this edge delivers its words as they now are. -/
def State.fbkFinish (s : State) (n : AxisId) : State :=
  let s := s.modFbk n fun f => f.finish s.cref
  let words := (s.axis n).fbk.words
  s.modSns n fun q => { q with wins := q.wins.map fun e => if e.1 = s.cref then (e.1, e.2.1, words) else e }

/-- One action of the interface at the present CKP edge. -/
def State.fbkAct (s : State) (n : AxisId) (g : FbkEdge → FbkEdge) : State :=
  (s.modFbk n fun f => (f.rewind s.cref).modEdge g).fbkFinish n

/-- The gate of the index event holds (05 R144). -/
def Fbk.gateOk (f : Fbk) : Bool :=
  !bit f.ctrl 12 || (f.levels.getLsbD 0 == bit f.ctrl 10 && f.levels.getLsbD 1 == bit f.ctrl 11)

/-- The mask of the engines that `p` picks. -/
def engMask (p : EngId → Bool) : BitVec 16 := (List.finRange 16).foldl (fun m j => setBitW m j.val (p j)) 0#16

/-- QI is accepted high with its gate levels (05 R144). -/
def Fbk.idxComb (f : Fbk) : Bool := f.levels.getLsbD 2 && f.gateOk

/-- An index event occurs at the first edge at which the combination holds, in QUAD with IDX_MODE not OFF: the position
is captured and corrected, and the cluster has its event (05 R144). -/
def State.indexCheck (s : State) (n : AxisId) : State :=
  let f := (s.axis n).fbk
  let hit := f.idxComb && !f.idxHeld && f.mode = .quad && bits f.ctrl 9 8 ≠ 0
  let s := s.modFbk n fun f => { f with idxHeld := f.idxComb }
  let x := (s.axis n).clu.eng
  let fresh := engMask fun j => !x[j].ev.getLsbD 8
  let merged := engMask fun j => x[j].ev.getLsbD 8 && !x[j].sticky.getLsbD 2
  if hit then (s.fbkAct n fun e => { e with idx := true, idxEv := fresh, idxMerge := merged }).engEvent n 8 else s

/-- An edge accepted on the CKP edge of an index event has left its gate: the combination did not hold at that edge,
and the event did not occur (05 R144, R146). -/
def State.indexUndo (s : State) (n : AxisId) : State :=
  let f := (s.axis n).fbk
  match f.edge with
  | some e =>
    if e.at_ = s.cref && e.idx && !f.idxComb then
      let s := s.modFbk n fun f => f.modEdge fun e => { e with idx := false }
      s.modClu n fun c => { c with eng := Vector.ofFn fun j =>
        let x := c.eng[j]
        { x with
          ev := if e.idxEv.getLsbD j.val then setBitW x.ev 8 false else x.ev
          sticky := if e.idxMerge.getLsbD j.val then setBitW x.sticky 2 false else x.sticky } }
    else s
  | none => s

/-- COUNTING_EDGE (05 R134 to R136): QA and QB behind their synchronisers. In OFF they are levels only, and in SSI QB
alone is. -/
def State.quadEdge (s : State) (n : AxisId) (pa pb : Pin) : State :=
  let f := (s.axis n).fbk
  let a0 := f.levels.getLsbD 0
  let b0 := f.levels.getLsbD 1
  let a := if f.mode = .ssi then a0 else f.accept 0 pa
  let b := f.accept 1 pb
  if !s.axOn n || (a = a0 && b = b0) || f.mode = .hall then s
  else
    let s := (s.modFbk n fun f => { f with levels := setBitW (setBitW f.levels 0 a) 1 b }).indexUndo n
    if f.mode ≠ .quad then s.indexCheck n
    else
      let s := s.modFbk n fun f => { f.rewind s.cref with edgeAt := some s.cref }
      let s :=
        if (a ≠ a0 && b ≠ b0) || f.tooSoon s.cref then s.illegalEdge n
        else
        let onA : Bool := a != a0
        let fwd : Bool := if onA then a != b else a == b
        let back : Bool := fwd == bit f.ctrl 5
        let counted : Bool :=
          match bits f.ctrl 3 2 with
          | 1 => onA
          | 2 => onA && !b
          | _ => true
        if counted then s.countEdge n back else s
      (s.fbkFinish n).indexCheck n

def execCountingEdge (n : AxisId) (a b : Pin) (s : State) : Host.Outcome State Fault Refusal :=
  .next (s.quadEdge n a b)

/-- An accepted change of the Hall code (05 R135, R137, R138). A valid code equal to the held sector's counts no step
and leaves the span and the direction as they are (DESIGN CHOICE, log entry 130). -/
def State.hallStep (s : State) (n : AxisId) : State :=
      let f := (s.axis n).fbk
      let soon := f.tooSoon s.cref
      let s := s.modFbk n fun f => { f.rewind s.cref with edgeAt := some s.cref }
      match hallSector (s.axis n).fbk.code with
      | none =>
        let s := s.modFbk n fun f => { f with
          hallInvalid := true, hallInvAt := if f.hallInvalid then f.hallInvAt else s.cref }
        if soon then s.illegalEdge n else s
      | some k =>
        let was := f.lossHall
        let s := s.modFbk n fun f => { f with hallInvalid := false, lossHall := false, sector := some k }
        let s := if was then s.noteLoss n false else s
        match f.sector with
        | none => s
        | some j =>
          if soon then s.illegalEdge n
          else
            if k = j then s
            else if k.val = (j.val + 1) % 6 then s.countEdge n (bit f.ctrl 5)
            else if j.val = (k.val + 1) % 6 then s.countEdge n (!bit f.ctrl 5)
            else s.illegalEdge n

/-- HALL_CODE_CHANGE (05 R134, R137): U, V and W behind their synchronisers. In QUAD and SSI the terminals serve
otherwise. -/
def State.hallEdge (s : State) (n : AxisId) (u v w : Pin) : State :=
  let f := (s.axis n).fbk
  let lv := setBitW (setBitW (setBitW f.levels 0 (f.accept 0 u)) 1 (f.accept 1 v)) 2 (f.accept 2 w)
  if !s.axOn n || lv = f.levels || f.mode = .quad || f.mode = .ssi then s
  else
    let s := s.modFbk n fun f => { f with levels := lv, idxHeld := { f with levels := lv }.idxComb }
    if f.mode = .off then s else (s.hallStep n).fbkFinish n

def execHallCodeChange (n : AxisId) (u v w : Pin) (s : State) : Host.Outcome State Fault Refusal :=
  .next (s.hallEdge n u v w)

/-- INDEX_EVENT (05 R133, R134, R144): QI behind its synchroniser. In QUAD it is the index; in OFF and SSI its level
alone is seen; in HALL it is W, which HALL_CODE_CHANGE brings. -/
def State.indexHit (s : State) (n : AxisId) (i : Pin) : State :=
  let f := (s.axis n).fbk
  if !s.axOn n || f.mode = .hall then s
  else (s.modFbk n fun f => { f with levels := setBitW f.levels 2 (f.accept 2 i) }).indexCheck n

def execIndexEvent (n : AxisId) (i : Pin) (s : State) : Host.Outcome State Fault Refusal := .next (s.indexHit n i)

/-- AUX_CAPTURE (05 R134, R145): QX behind its synchroniser; the edge that AUX_EDGE selects captures the position. In
SSI QX is an output. -/
def State.auxHit (s : State) (n : AxisId) (x : Pin) : State :=
  let f := (s.axis n).fbk
  let old := f.levels.getLsbD 3
  let new := f.accept 3 x
  if !s.axOn n || f.mode = .ssi || new = old then s
  else
    let s := s.modFbk n fun f => { f with levels := setBitW f.levels 3 new }
    if bit f.ctrl (if new then 13 else 14) then s.fbkAct n fun e => { e with aux := true } else s

def execAuxCapture (n : AxisId) (x : Pin) (s : State) : Host.Outcome State Fault Refusal := .next (s.auxHit n x)

/-! SSI (05 R139 to R141). -/

/-- Fields of FBK_SSI_CFG and FBK_SSI_FMT with their substituted codes (05 R157). -/
def ssiLen (fmt : Word) : Nat := if bits fmt 5 0 = 0 then 64 else bits fmt 5 0
def ssiShift (fmt : Word) : Nat := bits fmt 13 8
def ssiWidth (fmt : Word) : Nat := Nat.max 1 (Nat.min 56 (bits fmt 21 16))
def ssiDelay (fmt : Word) : Nat := bits fmt 31 24
def ssiHalf (cfg : Word) : Nat := Nat.max 19 (Nat.min 1999 (bits cfg 10 0)) + 1
def ssiMono (cfg : Word) : Nat := us (if bits cfg 21 16 = 0 then 64 else bits cfg 21 16)
def ssiMissLimit (cfg : Word) : Nat := Nat.max 1 (bits cfg 31 24)

/-- Gray code to binary: each bit is the XOR of the bits at and above it. -/
def grayToBin (g w : Nat) : Nat := (List.range w).foldl (fun b i => b ^^^ (g >>> i)) 0 % 2 ^ w

/-- An SSI frame was invalid or was skipped (05 R140, R152). -/
def State.ssiMissed (s : State) (n : AxisId) (bit_ : BitVec 8) : State :=
  let f := (s.axis n).fbk
  let b := !f.lossIll && decide (ssiMissLimit f.ssiCfg ≤ f.ssiMiss + 1)
  let s := s.modFbk n fun f => { f.setSticky bit_ with ssiMiss := f.ssiMiss + 1, lossIll := f.lossIll || b }
  s.noteLoss n b

/-- SSI_FRAME_START (05 R139, R140): a sample hold starts a frame, or sets SSI_SKIP within the
monoflop time. A trigger while a frame still runs is skipped too (DESIGN CHOICE, log entry 130). -/
def State.ssiStart (s : State) (n : AxisId) : State :=
  let f := (s.axis n).fbk
  if f.mode ≠ .ssi then s
  else
    let skip := f.ssi.isSome || match f.ssiLastRise with
      | some r => decide (s.cref < r + ssiMono f.ssiCfg)
      | none => false
    if skip then s.ssiMissed n 0x40#8 else s.modFbk n fun f => { f with ssi := some s.cref }

/-- The clock half period H and the times of a frame, in cp from its trigger edge (05 R139): the k-th rising edge of
QA, the sample of bit k after it, and the final sample. -/
def Fbk.ssiRise (f : Fbk) (k : Nat) : Nat := 4 + ssiHalf f.ssiCfg * (2 * k - 1)
def Fbk.ssiSample (f : Fbk) (k : Nat) : Nat := f.ssiRise k + ssiDelay f.ssiFmt
def Fbk.ssiFinal (f : Fbk) : Nat := f.ssiRise (ssiLen f.ssiFmt) + ssiHalf f.ssiCfg + ssiDelay f.ssiFmt

/-- QX in SSI at CREF `t`: high from the trigger edge to the CKP edge after the final sample (05 R139). -/
def Fbk.pinQX (f : Fbk) (t : Nat) : Bool :=
  match f.ssi with
  | some t0 => decide (t0 ≤ t) && decide (t ≤ t0 + f.ssiFinal)
  | none => false

/-- QA in SSI at CREF `t`: idle high, low from 4 cp after the trigger, then LEN rising edges 2H apart and high again
(05 R139). -/
def Fbk.pinQA (f : Fbk) (t : Nat) : Bool :=
  match f.ssi with
  | none => true
  | some t0 =>
    let h := ssiHalf f.ssiCfg
    if t < t0 + 4 || t0 + f.ssiRise (ssiLen f.ssiFmt) ≤ t then true else (t - (t0 + 4)) / h % 2 = 1

/-- LEVEL of FBK_STATUS: the accepted levels; QA and QX in SSI, where they are outputs, read as they are driven
(DESIGN CHOICE, log entry 130). -/
def Fbk.levelBits (f : Fbk) (t : Nat) : BitVec 4 :=
  if f.mode = .ssi then setBitW (setBitW f.levels 0 (f.pinQA t)) 3 (f.pinQX t) else f.levels

/-- The level of QB at a time of the frame, from its changes, oldest first. -/
def qbAt (qb : List (Nat × Bool)) (t : Nat) : Bool := qb.foldl (fun v e => if e.1 ≤ t then e.2 else v) false

/-- The bits of a frame as QB is sampled, most significant bit first (05 R139). -/
def Fbk.ssiBits (f : Fbk) (qb : List (Nat × Bool)) : Nat :=
  (List.range (ssiLen f.ssiFmt)).foldl (fun r k => 2 * r + (if qbAt qb (f.ssiSample (k + 1)) then 1 else 0)) 0

/-- A valid frame's field moves L (05 R141), and the span is that between the two latest valid frames
(05 R148). INVERT turns the sign of its moves (R136), and leaves the field that the first frame sets (DEDUCED, log
entry 158). With no two valid frames yet, N and T are 0 (DESIGN CHOICE, log entry 130). -/
def Fbk.ssiTake (f : Fbk) (raw t : Nat) : Fbk :=
  let w := ssiWidth f.ssiFmt
  let g := (raw >>> ssiShift f.ssiFmt) % 2 ^ w
  let v := if bit f.ssiFmt 7 then grayToBin g w else g
  let f : Fbk :=
    match f.ssiField with
    | none => { f.setPos v with ssiN := 0, ssiT := 0 }
    | some o =>
      let m := ((v : Int) - o) % 2 ^ w
      let c := if 2 ^ (w - 1) ≤ m then m - 2 ^ w else m
      let d := if bit f.ctrl 5 then -c else c
      { f.setPos (f.pos + d) with ssiN := d, ssiT := t - f.ssiTrigAt }
  { f with ssiField := some v, ssiTrigAt := t, ssiLastBad := false, ssiMiss := 0, lossIll := false }

/-- SSI_FRAME_END (05 R139 to R141, R152): QX falls on the CKP edge after the final sample, and the frame is judged by
QB at its trigger and at its final sample. -/
def State.ssiEnd (s : State) (n : AxisId) (qb : List (Nat × Bool)) : State :=
  let f := (s.axis n).fbk
  match f.ssi with
  | none => s
  | some t =>
    if f.mode ≠ .ssi || s.cref < t + f.ssiFinal + 1 then s else
    let r := f.ssiBits qb
    let s := s.modFbk n fun f => { f with
      ssi := none, ssiLastRise := some (t + f.ssiRise (ssiLen f.ssiFmt)), ssiRaw := BitVec.ofNat 64 r }
    if qbAt qb 0 && !qbAt qb f.ssiFinal then
      let was := f.lossIll
      let s := (s.modFbk n fun f => (f.rewind s.cref).ssiTake r t).fbkFinish n
      if was then s.noteLoss n false else s
    else (s.modFbk n fun f => { f with ssiLastBad := true }).ssiMissed n 0x20#8

def execSsiFrameEnd (n : AxisId) (qb : List (Nat × Bool)) (s : State) : Host.Outcome State Fault Refusal :=
  .next (s.ssiEnd n qb)

/-! Sensor loss (05 R152). -/

/-- LEAK_TICK: at the CKP edge at which CREF mod 400,000 = 0 the leaky counter falls by 1, once, and at 0 its loss
condition ends. -/
def State.leak (s : State) (n : AxisId) : State :=
  let f := (s.axis n).fbk
  if !s.axOn n || s.cref % 400000 ≠ 0 || f.leakAt = some s.cref then s
  else
    let s := s.modFbk n fun f => { f with leakAt := some s.cref }
    if !(f.mode = .quad || f.mode = .hall) || f.leak = 0#8 then s
    else
    let s := s.modFbk n fun f => { f with leak := f.leak - 1#8, lossIll := f.lossIll && f.leak ≠ 1#8 }
    if f.lossIll && f.leak = 1#8 then s.noteLoss n false else s

def execLeakTick (n : AxisId) (s : State) : Host.Outcome State Fault Refusal := .next (s.leak n)

/-- HALL_INV_T in cp: 10 µs a step, code 0 as 1 (05 R156). -/
def Fbk.hallInvT (f : Fbk) : Nat := us 10 * Nat.max 1 (bits f.lossCfg 15 8)

/-- HALL_INVALID_TIMEOUT: the code has stayed invalid for HALL_INV_T. -/
def State.hallTimeout (s : State) (n : AxisId) : State :=
  let f := (s.axis n).fbk
  if s.axOn n && f.mode = .hall && f.hallInvalid && !f.lossHall && decide (f.hallInvAt + f.hallInvT ≤ s.cref)
  then (s.modFbk n fun f => { f with lossHall := true }).noteLoss n true else s

def execHallInvalidTimeout (n : AxisId) (s : State) : Host.Outcome State Fault Refusal := .next (s.hallTimeout n)

/-! Preset and arming (05 R143, R144). -/

/-- A PRESET from the host is rejected outside HOLD, in SSI mode, and where FBK_PRESET_LO is not below
CPR; a Seam's only by the last two. -/
def State.presetPos (s : State) (n : AxisId) (host : Bool) : State :=
  if !s.axOn n then s else
  let f := (s.axis n).fbk
  if (host && !s.inHold n) || f.mode = .ssi || f.cprVal ≤ bits f.presetLo 23 0
  then s.modFbk n Fbk.reject
  else s.fbkAct n fun e => { e with preset := some (bits f.presetLo 23 0, f.presetHi) }

/-- IDX_ARM is set, and stays set where this CKP edge is done over. -/
def Fbk.arm (f : Fbk) : Fbk :=
  ({ f with idxArm := true }).modEdge fun e => { e with base := { e.base with idxArm := true } }

/-- Sticky bits of FBK_STATUS are cleared, and stay so where this CKP edge is done over. -/
def Fbk.clearSticky (f : Fbk) (m : BitVec 8) : Fbk :=
  ({ f with sticky := f.sticky &&& ~~~ m }).modEdge fun e => { e with base := { e.base with sticky := e.base.sticky &&& ~~~ m } }

/-- FEEDBACK_LOSS after a base change, which can end its condition (05 R152, R153). -/
def State.fbkBase (s : State) (n : AxisId) (g : Fbk → Fbk) : State :=
  let was := (s.axis n).fbk.lossIll || (s.axis n).fbk.lossHall
  let s := s.modFbk n g
  if was then s.noteLoss n false else s

def execPreset (n : AxisId) (s : State) : Host.Outcome State Fault Refusal := .next (s.presetPos n true)

def execIdxArm (n : AxisId) (s : State) : Host.Outcome State Fault Refusal :=
  .next (if s.axOn n then s.modFbk n Fbk.arm else s)

/-- A sample hold of the axis at the feedback interface: the latch, and in SSI mode the next frame. -/
def State.holdLatch (s : State) (n : AxisId) : State := (s.fbkAct n fun e => { e with hold := true }).ssiStart n

/-- A base change: COUNT and REV are 0, the span restarts, the leaky counter is cleared and the decoder
has no last valid sector (05 R138, R153). An SSI interface that stays one keeps its latest field and its
misses. SSI_BAD of FB_STAT keeps the verdict of the latest frame (DESIGN CHOICE, log entry 130). `f` holds the new
registers; `was` is the mode before. -/
def Fbk.baseChange (f : Fbk) (was : FbkMode) (t : Nat) : Fbk :=
  let ssi := was = .ssi && f.mode = .ssi
  let inv := f.mode = .hall && (hallSector f.code).isNone
  let g := f.noRef t
  { g with
    edge := none, count := 0, rev := 0#32, leak := 0#8, sector := none, ssiN := 0, ssiT := 0
    lossIll := f.lossIll && ssi, lossHall := f.lossHall && inv && was = .hall
    hallInvalid := inv, hallInvAt := if inv && f.hallInvalid && was = .hall then f.hallInvAt else t
    ssi := if ssi then f.ssi else none, ssiField := if ssi then f.ssiField else none
    ssiTrigAt := if ssi then f.ssiTrigAt else t, ssiMiss := if ssi then f.ssiMiss else 0 }

/-- Whether new words of FBK_CTRL and FBK_CPR change MODE, CPR, QUAD_RES, HALL_60 or INVERT. -/
def Fbk.changesBase (f : Fbk) (ctrl cpr : Word) : Bool :=
  ((f.ctrl ^^^ ctrl) &&& 0x6F#32) ≠ 0#32 || bits f.cpr 23 0 ≠ bits cpr 23 0

end Sys2Proof.Machine
end

