-- ==== Sys2Proof/Machine/GateDrive.lean ====
section
/-! DEFINITION. The power stage and the gate drive of an axis, and its bank's enables (02, 15 R431):
gate commands and their guards, Vds detection, latched faults, the two-step turn-off, bootstrap
supervision, Hem sources, and the writes that cross the bank link downward. -/

namespace Sys2Proof.Machine

/-- A rise of the gate's command is scheduled after a dead time. -/
def Pwm.dueOf (w : Pwm) (g : Fin 6) : Option Int :=
  if isHigh g then w.ph[gatePhase g].hiDue else w.ph[gatePhase g].loDue

/-- The driver's part of a power-stage fault (02 R42 to R45): the latch bits are set, and no gate sources any more.
One turn-off runs, in two steps or at once, and a later fault does not change it. The detectors of a gate stay active
until its command falls, so that several faults can latch (R40, R45). -/
def Gdr.latch (d : Gdr) (w : Pwm) (bits : BitVec 16) (twoStep : Bool) (cref : Nat) : Gdr :=
  let soft := twoStep && decide (d.latches = 0)
  { d with
    latches := d.latches ||| bits
    softRun := d.softRun || soft
    softAt := if soft then cref else d.softAt
    softCode := if soft then (if d.softIn.setWidth 4 = 0#4 then 1#4 else d.softIn.setWidth 4) else d.softCode
    gates := Vector.ofFn fun g =>
      let x := d.gates[g]
      { x with
        on := false, pendingOn := false, soft := if soft then x.on else x.soft
        waited := x.waited || x.pendingOn || (w.dueOf g).isSome } }

/-- The generator's commands after a fault: the alarm crosses into CKP in 3 cp, and then every command that stands
falls (01 R14, 02 R44, 04 R118). -/
def PwmPhase.faulted (x : PwmPhase) (cref : Nat) : PwmPhase :=
  let t : Int := 32 * ((cref + 3 : Nat) : Int)
  { x with hiDue := none, loDue := none, hiFall := if x.hi then some t else none, loFall := if x.lo then some t else none }

/-- A power-stage fault latches: the driver turns the gates off, the generator's commands follow, and its source is
raised (02 R42 to R45). A latch bit that is set already changes nothing. -/
def State.latch (s : State) (n : AxisId) (bits : BitVec 16) (k : Nat) (twoStep : Bool) : State :=
  if (s.axis n).gdr.latches &&& bits = bits then s
  else
    let w := (s.axis n).pwm
    let s := s.modGdr n fun d => d.latch w bits twoStep s.cref
    let s := s.modPwm n fun w => { w with ph := w.ph.map fun x => x.faulted s.cref }
    s.raise (axisSrc n k)

/-- What blocks a turn-on at the driver (02 R543): a latch, a withdrawn gate enable, the VDRVb
undervoltage, and for a high side a clear BST_OK. -/
def State.driverBlocks (s : State) (n : AxisId) (g : Fin 6) : Bool :=
  let d := (s.axis n).gdr
  d.latches ≠ 0 || !s.gateEn n || !s.axOn n || !(s.bnk n.bank).vdrvOk ||
  (isHigh g && !d.bstOk.getLsbD (gatePhase g).val)

/-- Whether the generator can raise the command of a gate now: it follows the compares and no Hem
cut holds it, or it is a low side held on, or a low side under a charging refresh (04 R113 to
R115). -/
def State.genAllows (s : State) (n : AxisId) (g : Fin 6) : Bool :=
  let w := (s.axis n).pwm
  match s.genForced n with
  | .none => !(w.hem && (isHigh g || w.hemLow)) && !w.dbgHalted
  | .short => !isHigh g
  | .open => !isHigh g && w.charging && w.ph[gatePhase g].refresh

/-- The scheduled rise of the gate's command has come. -/
def State.riseDue (s : State) (n : AxisId) (g : Fin 6) : Bool :=
  match (s.axis n).pwm.dueOf g with
  | some t => s.dueT t
  | none => false

/-- GATE_COMMAND_RISE (02 R34, R37, R543; 04 R98). At the end of the dead time the command line rises; the turn-on is
not acted on where the driver blocks it, and else waits for its guards. Out of HOLD a high-side command that finds
BST_OK clear latches BST_UV. -/
def State.gateRise (s : State) (n : AxisId) (g : Fin 6) : State :=
  if !s.riseDue n g || !s.genAllows n g || (s.axis n).gdr.gates[g].cmd then s else
  let p := gatePhase g
  let d := (s.axis n).gdr
  let uv := isHigh g && !d.bstOk.getLsbD p.val && d.latches = 0 && s.gateEn n && s.axOn n &&
    !s.inHold n
  let blocked := s.driverBlocks n g
  let s := s.modPh n p fun x =>
    let t := max s.nowT (((s.axis n).pwm.dueOf g).getD s.nowT)
    if isHigh g then { x with hi := true, hiDue := none, hiAt := t }
    else { x with lo := true, loDue := none, loAt := t }
  let s := s.modGate n g fun x => { x with cmd := true, pendingOn := !blocked }
  if uv then s.latch n (BitVec.twoPow 16 (12 + p.val)) 3 false else s

def execGateCommandRise (n : AxisId) (g : Gate) (s : State) : Host.Outcome State Fault Refusal :=
  .next (s.gateRise n (gateIdx g))

/-- A turn-on that its guards held back meets a BST_OK that has cleared since: the gate stays off, and out of
HOLD BST_UV latches (02 R37). -/
def State.bstHolds (s : State) (n : AxisId) (g : Fin 6) : State :=
  let s := s.modGate n g fun x => { x with pendingOn := false }
  if s.inHold n then s else s.latch n (BitVec.twoPow 16 (12 + (gatePhase g).val)) 3 false

/-- GATE_TURN_ON (02 R34, R37, R39 to R41; 03 R69). At least 20 ns after the complement's turn-off command and
with the complement's gate below 1.8 V, which the event reports, the gate sources; blanking starts
with the codes in force, and a low side takes its comparators' thresholds. -/
def State.turnOn (s : State) (n : AxisId) (g : Fin 6) : State :=
  let d := (s.axis n).gdr
  let x := d.gates[g]
  let c := d.gates[complGate g]
  let floor := match c.offAt with | some t => decide (t + 8 ≤ s.cref) | none => true
  if !x.pendingOn || !x.cmd || c.on || c.soft || !floor then s else
  if isHigh g && !d.bstOk.getLsbD (gatePhase g).val then s.bstHolds n g else
  let lo := if isHigh g then 0 else 8
  let s := s.modGate n (complGate g) fun c => { c with high := false }
  let s := s.modGate n g fun x => { x with
    on := true, turned := true, onAt := s.cref, soft := false, pendingOn := false, waited := false, high := true
    vdsActive := false
    thr := BitVec.ofNat 6 (Nat.min 38 (bits d.vdsIn (lo + 5) lo))
    blank := BitVec.ofNat 6 (Nat.max 1 (bits d.vdsIn (lo + 21) (lo + 16))) }
  if isHigh g then s else
  s.modSns n fun q =>
    let h := BitVec.ofNat 8 (Nat.max 4 (bits q.cmpIn 7 0))
    let o := BitVec.ofNat 8 (Nat.max 16 (bits q.cmpIn 15 8))
    let b := BitVec.ofNat 6 (bits q.cfgIn 13 8)
    match gatePhase g with
    | 0 => { q with hemThr := { q.hemThr with a := h }, ochThr := { q.ochThr with a := o }, cmpBlank := { q.cmpBlank with a := b } }
    | 1 => { q with hemThr := { q.hemThr with b := h }, ochThr := { q.ochThr with b := o }, cmpBlank := { q.cmpBlank with b := b } }
    | 2 => { q with hemThr := { q.hemThr with c := h }, ochThr := { q.ochThr with c := o }, cmpBlank := { q.cmpBlank with c := b } }

def execGateTurnOn (n : AxisId) (g : Gate) (s : State) : Host.Outcome State Fault Refusal :=
  .next (s.turnOn n (gateIdx g))

/-- The scheduled fall of the gate's command has come (04 R98, R100, R113). -/
def State.fallDue (s : State) (n : AxisId) (g : Fin 6) : Bool :=
  let x := (s.axis n).pwm.ph[gatePhase g]
  match (if isHigh g then x.hiFall else x.loFall) with
  | some t => s.dueT t
  | none => false

/-- GATE_COMMAND_FALL (02 R34, R35; 04 R100): at its scheduled time the command falls, and the gate goes off at once.
In the output hold of a debug halt the commands keep their state (04 R119), but for the fall that a latched fault
forces (R101). -/
def State.commandFall (s : State) (n : AxisId) (g : Fin 6) : State :=
  let held := (s.axis n).pwm.dbgHalted && decide ((s.axis n).gdr.latches = 0)
  if s.fallDue n g && !held then s.gateFall n g else s

def execGateCommandFall (n : AxisId) (g : Gate) (s : State) : Host.Outcome State Fault Refusal :=
  .next (s.commandFall n (gateIdx g))

/-- The gate waits for its complement: its turn-on is pending, its dead time runs, or it waited when another fault
latched (02 R35). -/
def State.waits (s : State) (n : AxisId) (g : Fin 6) : Bool :=
  let x := (s.axis n).gdr.gates[g]
  x.pendingOn || x.waited || ((s.axis n).pwm.dueOf g).isSome

/-- 800 ns have passed since the turn-off command of the gate, and it has not been commanded on again (02 R35). -/
def GateSt.lateOff (c : GateSt) (cref : Nat) : Bool :=
  !c.cmd && !c.on && match c.offAt with
    | some t => decide (t + 320 ≤ cref)
    | none => false

/-- GATE_HANDSHAKE (02 R35): the complement of a gate that waits has not fallen within 800 ns of its
turn-off command, whatever the dead time. -/
def State.handshake (s : State) (n : AxisId) (g : Fin 6) : State :=
  if !s.waits n g || !(s.axis n).gdr.gates[complGate g].lateOff s.cref then s else
  let s := s.modGate n (complGate g) fun c => { c with high := true }
  s.latch n (BitVec.twoPow 16 (6 + g.val)) 2 false

def execGateHandshake (n : AxisId) (g : Gate) (s : State) : Host.Outcome State Fault Refusal :=
  .next (s.handshake n (gateIdx g))

/-- CREF at which the blanking of a gate that is on ends: 100 ns a step (02 R39, R40). -/
def GateSt.blankEnd (x : GateSt) : Nat := x.onAt + 40 * x.blank.toNat

/-- BLANKING_END (02 R40). -/
def execBlankingEnd (n : AxisId) (g : Gate) (s : State) : Host.Outcome State Fault Refusal :=
  .next (s.modGate n (gateIdx g) fun x =>
    { x with vdsActive := x.vdsActive || (x.turned && decide (x.blankEnd ≤ s.cref)) })

/-- A Vds above threshold that outlasts the 40 ns deglitch, with its start and end in the active interval of a gate,
which lasts to the gate's next turn-off command (02 R40). -/
def State.vds (s : State) (n : AxisId) (g : Fin 6) (k : Nat) : State :=
  let x := (s.axis n).gdr.gates[g]
  if x.turned && x.vdsActive && decide (x.blankEnd + 16 ≤ s.cref)
  then s.latch n (BitVec.twoPow 16 g.val) k true else s

def execVdsHigh (n : AxisId) (p : Phase) (s : State) : Host.Outcome State Fault Refusal :=
  .next (s.vds n (hiGate p.idx) 0)

def execVdsLow (n : AxisId) (p : Phase) (s : State) : Host.Outcome State Fault Refusal :=
  .next (s.vds n (loGate p.idx) 1)

/-- SOFT_STEP_END (02 R43): T_SOFT after its beginning the gates of the two-step turn-off sink at full strength. -/
def execSoftStepEnd (n : AxisId) (s : State) : Host.Outcome State Fault Refusal :=
  .next (s.modGdr n fun d =>
    if d.softRun && decide (d.softAt + 40 * d.softCode.toNat ≤ s.cref)
    then { d with softRun := false, gates := d.gates.map fun g => { g with soft := false } } else d)

/-- BST_OK_SET (02 R36): a command that was not acted on stays unacted (R37). -/
def execBstOkSet (n : AxisId) (p : Phase) (s : State) : Host.Outcome State Fault Refusal :=
  .next (s.modGdr n fun d => { d with bstOk := setBitW d.bstOk p.idx.val true })

/-- BST_OK_CLEAR (02 R36, R37): out of HOLD with the high side on, as its command stands, this latches BST_UV. -/
def State.bstClear (s : State) (n : AxisId) (p : Fin 3) : State :=
  let on := (s.axis n).gdr.gates[hiGate p].turned
  let s := s.modGdr n fun d => { d with bstOk := setBitW d.bstOk p.val false }
  if on && !s.inHold n then s.latch n (BitVec.twoPow 16 (12 + p.val)) 3 false else s

def execBstOkClear (n : AxisId) (p : Phase) (s : State) : Host.Outcome State Fault Refusal :=
  .next (s.bstClear n p.idx)

/-- BOOTSTRAP_EARLY_WARNING (02 R38): the voltage falls through 8.2 V, and so has been above it; each crossing
requests one refresh, while enabled. -/
def State.earlyWarning (s : State) (n : AxisId) (p : Fin 3) : State :=
  let d := (s.axis n).gdr
  let s := s.modGdr n fun d => { d with bstEw := setBitW d.bstEw p.val true }
  if bit d.ctrlIn 1 then s.modPh n p fun x => { x with request := x.request.orElse fun _ => some s.cref } else s

def execBootstrapEarlyWarning (n : AxisId) (p : Phase) (s : State) : Host.Outcome State Fault Refusal :=
  .next (s.earlyWarning n p.idx)

/-- The value of one phase. -/
def Tri3.at {w : Nat} (t : Tri3 w) (p : Fin 3) : BitVec w := match p with | 0 => t.a | 1 => t.b | 2 => t.c

/-- CREF from which the comparators of a phase are evaluated: CMP_BLANK × 25 ns after its low side's turn-on (03 R68). -/
def Axis.cmpFrom (a : Axis) (p : Fin 3) : Nat := a.gdr.gates[loGate p].onAt + 10 * (a.sns.cmpBlank.at p).toNat

/-- CMP_BLANK_END (03 R68): the comparators of a phase are active until its low side's turn-off command. -/
def execCmpBlankEnd (n : AxisId) (p : Phase) (s : State) : Host.Outcome State Fault Refusal :=
  .next (if (s.axis n).gdr.gates[loGate p.idx].turned && decide ((s.axis n).cmpFrom p.idx ≤ s.cref)
    then s.modSns n fun q => { q with cmpActive := setBitW q.cmpActive p.idx.val true } else s)

/-- A comparator of a phase is active and can have persisted for a deglitch time in cp (03 R68). -/
def State.cmpActs (s : State) (n : AxisId) (p : Fin 3) (deglitch : Nat) : Bool :=
  (s.axis n).sns.cmpActive.getLsbD p.val && decide ((s.axis n).cmpFrom p + deglitch ≤ s.cref)

/-- The effective dead time of a phase, in taps: never below 8 cp (04 R98). -/
def PwmGroup.dt (g : PwmGroup) (p : Fin 3) : Word :=
  match p with | 0 => g.dtA | 1 => g.dtB | 2 => g.dtC
def PwmGroup.dtr (g : PwmGroup) (p : Fin 3) : Int := (Nat.max 256 (bits (g.dt p) 14 0) : Nat)
def PwmGroup.dtf (g : PwmGroup) (p : Fin 3) : Int := (Nat.max 256 (bits (g.dt p) 30 16) : Nat)

/-- BST_MIN in taps (04 R127). -/
def Pwm.bstMin (w : Pwm) : Int := 128 * (bits w.now.bst 15 8 : Nat)

/-- The low pulse of the latest zero that a Hem cut at `t` finds, in the up half and before its up switching point,
counts with the width that the cut gives it: it ends now under HEM_LOWOFF, and else lasts past the next zero (04 R112). -/
def Pwm.hemPulse (w : Pwm) (p : Fin 3) (t : Int) : PwmPhase :=
  let x := w.ph[p]
  if w.down || x.refresh || !(x.lo || x.loDue.isSome) then x
  else
    let b := if x.lo then x.loAt else x.loDue.getD t
    let e := if w.hemLow then t else t + 32 * ((w.half - w.count : Nat) : Int) + 32 * (w.act.per.toNat : Int)
    { x with shortRun := if e - b < w.bstMin then Nat.min 64 (x.shortPrev + 1) else 0 }

/-- The gates of a Hem cut that acts: the high sides off, and the low sides off as well under
HEM_LOWOFF or else due DTF_eff after the cut (04 R115). -/
def State.hemGates (s : State) (n : AxisId) : State :=
  let w := (s.axis n).pwm
  (List.finRange 3).foldl (fun s p =>
    let was := w.ph[p].hi || w.ph[p].hiDue.isSome
    let s := s.modPh n p fun _ => w.hemPulse p (32 * s.cref)
    let s := s.gateFall n (hiGate p)
    if w.hemLow then s.gateFall n (loGate p)
    else
    let s := s.modPh n p fun x => { x with loFall := none }
    if was && !w.ph[p].lo then s.modPh n p fun x => { x with loDue := some (32 * s.cref + w.act.dtf p) }
    else s) s

/-- A Hem source acts (04 R115, R117). While the gates are forced it changes none of them, and the cut
stays in force until the next zero. -/
def State.hemCut (s : State) (n : AxisId) : State :=
  let free := s.forced n = .none
  let s := s.modPwm n fun w => { w with
    hem := true, hemLow := bit w.now.ctrl 6, hemPeriod := w.hemPeriod || free
    sticky := w.sticky ||| bitAt 23 true }
  if free then s.hemGates n else s

/-- HEM_COMPARATOR (03 R68, 04 R115). -/
def execHemComparator (n : AxisId) (p : Phase) (s : State) : Host.Outcome State Fault Refusal :=
  .next (
    if s.cmpActs n p.idx 8 && bit (s.axis n).sns.cmpIn 17
    then (s.modSns n fun q => { q with hemNow := true }).hemCut n else s)

/-- TRIP_FILT in cp, code 0 as 1 (04 R128). -/
def Pwm.tripFilt (w : Pwm) : Nat := Nat.max 1 (bits w.now.hem 15 8)

/-- TRIPb has been high for `cp` cycles: with TRIP_EN it is a Hem source once that reaches TRIP_FILT (04 R115, R116). -/
def Pwm.trips (w : Pwm) (cp : Nat) : Bool := bit w.now.ctrl 7 && decide (w.tripFilt ≤ cp)

/-- TRIP_HEM (04 R115, R116): TRIPb is high, and has been for `heldCp` cycles. -/
def execTripHem (n : AxisId) (heldCp : Nat) (s : State) : Host.Outcome State Fault Refusal :=
  .next (
    let s := s.modBank n.bank fun k => { k with trip := true }
    if (s.axis n).pwm.trips heldCp then s.hemCut n else s)

/-- OVERCURRENT_HARD (02 R42, 03 R68). -/
def execOvercurrentHard (n : AxisId) (p : Phase) (s : State) : Host.Outcome State Fault Refusal :=
  .next (if s.cmpActs n p.idx 16 then s.latch n 0x8000#16 5 true else s)

/-! The bank's enables. -/

/-- ENB_FALL (02 R48). In SERVICE mode ENb is ignored (R49). -/
def State.enbFall (s : State) (b : BankId) : State :=
  let s := s.modBank b fun k => { k with enPin := false }
  if s.sup = .service then s else (s.modBank b fun k => { k with en := false }).evalGate b

def execEnbFall (b : BankId) (s : State) : Host.Outcome State Fault Refusal :=
  .next (s.enbFall b)

/-- The latches of an axis whose cause has gone, as a mask of the bits to keep (02 R48). -/
def State.latchesKept (s : State) (n : AxisId) : BitVec 16 :=
  let d := (s.axis n).gdr
  let hsk (g : Fin 6) : BitVec 16 := if d.gates[complGate g].high then BitVec.twoPow 16 (6 + g.val) else 0#16
  let m := (List.finRange 6).foldl (fun m g => m ||| hsk g) 0#16
  let m := if (s.axis n).sns.cmpActive ≠ 0 then m ||| 0x8000#16 else m
  d.latches &&& m

/-- A clearing toggle of ENb (02 R48). -/
def State.clearLatches (s : State) (b : BankId) : State :=
  let s := s.forAxes (bankAxes b) fun n s => s.modGdr n fun d => { d with
    latches := s.latchesKept n, gates := d.gates.map fun g => { g with waited := false } }
  s.modBank b fun k => { k with clearCnt := k.clearCnt + 1 }

/-- ENB_RISE (02 R48): after a low of 10 µs or more latches are cleared, below 9.4 µs none is, and
between them either may be (a free choice). In SERVICE mode ENb is ignored (R49). -/
def State.enbRise (s : State) (b : BankId) (lowNs : Nat) : State :=
  let s := s.modBank b fun k => { k with enPin := true }
  if s.sup = .service || (s.bnk b).en then s else
  let s := s.modBank b fun k => { k with en := true }
  let clears := if 10000 ≤ lowNs then true else if lowNs < 9400 then false else Config.freeBool s.freeCtr
  let s := if 9400 ≤ lowNs && lowNs < 10000 then s.bump else s
  let s := if clears then s.clearLatches b else s
  let s := s.evalGate b
  s.forAxes (bankAxes b) fun n s => s.forceGates n

def execEnbRise (b : BankId) (lowNs : Nat) (s : State) : Host.Outcome State Fault Refusal :=
  .next (s.enbRise b lowNs)

/-- The STO levels after a change: whether they differ and since when, and whether both have been low since the
discrepancy (15 R431). DISC_RUN stays 1 for as long as the inputs differ, also after the discrepancy has been
raised (DESIGN CHOICE, log entry 127). -/
def Bank.stoLevels (k : Bank) (a b : Bool) (cref : Nat) : Bank :=
  { k with
    stoA := a, stoB := b, discRun := a != b, bothLow := k.bothLow || (!a && !b)
    discAt := if k.discRun then k.discAt else cref }

/-- STO_FALL (15 R431): the line is withdrawn, moving axes take HOLD, and STO_ACTIVE is raised at the
onset. -/
def State.stoFall (s : State) (b : BankId) (ch : StoCh) : State :=
  let k := s.bnk b
  let onset := k.stoA && k.stoB
  let s := s.modBank b fun k => match ch with
    | .chA => k.stoLevels false k.stoB s.cref
    | .chB => k.stoLevels k.stoA false s.cref
  let s := s.evalGate b
  if onset && s.hasBank b then s.raise (bankSrc b 1) else s

def execStoFall (b : BankId) (ch : StoCh) (s : State) : Host.Outcome State Fault Refusal :=
  .next (s.stoFall b ch)

/-- STO_RISE (15 R431): when both inputs are high STO ends, and the axes stay in HOLD. -/
def State.stoRise (s : State) (b : BankId) (ch : StoCh) : State :=
  let s := s.modBank b fun k => match ch with
    | .chA => k.stoLevels true k.stoB s.cref
    | .chB => k.stoLevels k.stoA true s.cref
  let k := s.bnk b
  let s := if k.stoA && k.stoB && k.bothLow
    then (s.raiseCond (bankSrc b 0) false).modBank b fun k => { k with bothLow := false } else s
  s.evalGate b

def execStoRise (b : BankId) (ch : StoCh) (s : State) : Host.Outcome State Fault Refusal :=
  .next (s.stoRise b ch)

/-- A time that Thimble measures in CKT has come. While PLL-P is unlocked CREF stands, and the model has no
other measure of time: the command then says that it has (log entry 128). -/
def State.ckt (s : State) (t : Nat) : Bool := !s.clk.pllp || decide (t ≤ s.cref)

/-- STO_DISCREPANCY (15 R431): the inputs have differed for 10 ms without a break. -/
def execStoDiscrepancy (b : BankId) (s : State) : Host.Outcome State Fault Refusal :=
  .next (if (s.bnk b).discRun && s.ckt ((s.bnk b).discAt + ms 10)
    then (s.modBank b fun k => { k with bothLow := false }).raiseCond (bankSrc b 0) true else s)

/-- VDRV_UV (02 R32, 15 R422). -/
def execVdrvUv (b : BankId) (above : Bool) (s : State) : Host.Outcome State Fault Refusal :=
  .next (
    let s := s.modBank b fun k => { k with vdrvOk := above && s.bankOn b }
    let s := if s.bankOn b then s.raiseCond (bankSrc b 4) (!above) else s
    s.evalGate b)

/-! The downward lanes. -/

/-- A register write takes effect on the driver die (02 R52, 03 R83): target 0 to 7 is an axis of the
bank, 8 the bank itself. -/
def State.applyDown (s : State) (b : BankId) (t off : Nat) (v : Word) : State :=
  if t = 8 && off = 0x024 then s.modBank b fun k => { k with brkLvlIn := v }
  else if t = 8 then s.modBank b fun k =>
    let go := v.setWidth 2 = 1#2 && k.brkIn.setWidth 2 = 1#2
    { k with
      brkIn := v, brkOn := k.brkOn && (go || (k.testRun && v.setWidth 2 = 2#2))
      testRun := k.testRun && v.setWidth 2 = 2#2, brkAsk := k.brkAsk && go }
  else
    let n : AxisId := Fin.ofNat 64 (8 * b.val + t)
    if off = 0x400 then (s.modGdr n fun d => { d with ctrlIn := v }).forceGates n
    else if off = 0x404 then s.modGdr n fun d => { d with vdsIn := v }
    else if off = 0x408 then s.modGdr n fun d => { d with softIn := v }
    else if off = 0x800 then
      let s := (s.modSns n fun q => { q with cfgIn := v }).modCh n fun c => { c with gain13 := v.setWidth 2 }
      if s.axOn n && !(s.axis n).clu.role then s.setE n 0 34 (fieldAt 0 (bits v 1 0)) else s
    else s.modSns n fun q => { q with cmpIn := v }

/-- DOWNLINK_WRITE_APPLIED (02 R52): the oldest queued write of the bank takes effect. -/
def State.downApplied (s : State) (b : BankId) : State :=
  match (s.bnk b).down with
  | [] => s
  | (t, off, v) :: rest => (s.modBank b fun k => { k with down := rest }).applyDown b t off v

def execDownlinkWriteApplied (b : BankId) (s : State) : Host.Outcome State Fault Refusal :=
  .next (s.downApplied b)

end Sys2Proof.Machine
end

