-- ==== Sys2Proof/Machine/SeamOps.lean ====
section
/-! DEFINITION. The ends of Seams and snapshots, which events elsewhere bring about too (10 R281, R289,
R294 to R298). -/

namespace Sys2Proof.Machine

def State.modSlot (s : State) (k : Fin 64) (f : SeamSlot → SeamSlot) : State :=
  s.modSeam fun u => { u with slot := u.slot.set k (f u.slot[k]) }

/-- The handle of a slot: slot number below, generation above (10 R281). -/
def State.seamHandle (s : State) (k : Fin 64) : BitVec 16 := s.seam.slot[k].gen ++ BitVec.ofNat 6 k.val

/-- The slot that a handle names, with matching generation and not FREE. -/
def State.seamOf? (s : State) (h : BitVec 16) : Option (Fin 64) :=
  let k : Fin 64 := Fin.ofNat 64 (h.toNat % 64)
  if s.seam.slot[k].st ≠ .free && s.seamHandle k = h then some k else none

/-- The Seam is armed and not yet decided. -/
def SeamSlot.waits (x : SeamSlot) : Bool := (x.st = .armed || x.st = .staged) && !x.decided

/-- The Seam was decided with go and has not reached its epoch edge (10 R280, R289). -/
def SeamSlot.going (x : SeamSlot) : Bool := x.st = .retiring && x.decided && x.hdr.isSome

/-- Some Seam has committed and its epoch edge is still to come: activations that would begin are held (10 R291). -/
def State.epochHeld (s : State) : Bool := s.seam.slot.toList.any fun x => x.going && x.t.isSome

/-- Some Seam that committed on or before CKP edge e is still to reach its epoch edge: E(e) has not come (10 R291). -/
def State.epochHeldAt (s : State) (e : Nat) : Bool := s.seam.slot.toList.any fun x => x.going && x.t.any fun t => decide (t ≤ e)

/-- A Seam commits on this CKP edge and has not yet done so: what follows it in the order of 01 R20 waits. -/
def State.commitDue (s : State) : Bool := s.seam.slot.toList.any fun x => x.going && x.t.isNone && x.dueT = s.cref

/-- A waiting snapshot completes and waits no more. -/
def State.snapEnd (s : State) (x : Snap) (st : Status) (info : Nat) : State :=
  let s := s.completeIf (fun d => d.act = Act.snapshot) x.hdr.src x.hdr.tag st (fieldAt 0 info)
  s.modSeam fun u => { u with snaps := dropFirst (fun y => y = x) u.snaps, snapDone := satInc u.snapDone }

/-- A Seam resolves: its descriptor completes, the counters and SEAM_LAST follow, the slot retires, and
snapshots on a Seam that did not commit end with its reason (10 R294, R298, R303). -/
def State.seamResolve (s : State) (k : Fin 64) (st : Status) (reason idx : Nat) (time : Dword) : State :=
  let x := s.seam.slot[k]
  let h := s.seamHandle k
  let info := fieldAt 0 reason ||| fieldAt 8 (idx % 256) ||| fieldAt 16 (Nat.min 255 x.deferrals)
  let s := match x.hdr with
    | some d => s.completeIf (fun e => e.act = Act.seam k) d.src d.tag st info (some time)
    | none => s
  let s := s.modSeam fun u => { u with
    abortCnt := if st = Status.ok then u.abortCnt else satInc u.abortCnt
    commitCnt := if st = Status.ok then satInc u.commitCnt else u.commitCnt
    last := fieldAt 24 reason ||| fieldAt 16 st.code.toNat ||| h.setWidth 32 }
  let s := s.modSlot k fun x => { x with st := .retiring, staging := false, hdr := none }
  if st = Status.ok then s
  else (s.seam.snaps.filter fun y => y.trigger = 4#8 && y.handle = h).foldl (fun s y => s.snapEnd y .aborted reason) s

/-- A Seam with a T aborts, which writes nothing anywhere. -/
def State.seamAbortAt (s : State) (k : Fin 64) (reason idx : Nat) (time : Dword) : State :=
  s.seamResolve k .aborted reason idx time

/-- A Seam with no T aborts: its completion holds the time of the abort. -/
def State.seamAbort (s : State) (k : Fin 64) (reason idx : Nat) : State := s.seamAbortAt k reason idx s.alm.time

/-- Every Seam that `p` picks among those not yet decided aborts. -/
def State.seamsAbort (s : State) (p : SeamSlot → Bool) (reason idx : Nat) : State :=
  (List.finRange 64).foldl (fun s k =>
    let x := s.seam.slot[k]
    if x.waits && p x then s.seamAbort k reason idx else s) s

/-- Axis n stops counting: Seams on its zeros and peaks abort with FAULTED_MEMBER, and snapshots on its
events with REF_STOPPED (10 R289, R298). -/
def State.refStopped (s : State) (n : AxisId) : State :=
  let s := s.seamsAbort (fun x => (x.point = 1#8 || x.point = 2#8) && x.refAxis = n) 2 n.val
  (s.seam.snaps.filter fun y => y.trigger = 1#8 && y.ref.toNat = n.val && y.t.isNone).foldl (fun s y => s.snapEnd y .aborted 8) s

end Sys2Proof.Machine
end

