-- ==== Sys2Proof/Machine/Start.lean ====
section
/-! DEFINITION. Leaving HOLD, Basting, stall and the end of a stop (07 R201 to R209, R215, R216).
Times of the records are in seconds; a command that ends a wait acts once it has passed. -/

namespace Sys2Proof.Machine

open F32

/-- 2π as binary32. -/
def twoPi : Word := lit 628318530717958648 100000000000000000
def fOne : Word := 0x3F800000#32
def fHalf : Word := 0x3F000000#32
def fTwo : Word := 0x40000000#32

/-- A time in cp as binary32 seconds. -/
def secs (cp : Int) : Word := (F32.ofQ cp 400000000 0).1

/-- `cp` cycles are at least the time `t` in seconds, compared exactly. -/
def secsPassed (cp : Nat) (t : Word) : Bool :=
  isFinite t && decide (F32.at_ t (-149) * 400000000 ≤ (cp : Int) * 2 ^ 149)

/-- `cp` cycles are at most the time `t` in seconds, compared exactly. -/
def secsWithin (cp : Nat) (t : Word) : Bool :=
  isFinite t && decide ((cp : Int) * 2 ^ 149 ≤ F32.at_ t (-149) * 400000000)

/-- cos(2π·θ) as an engine's TCOS gives it, with the i-th free value (09 R250). -/
def State.cosT (s : State) (i : Nat) (theta : Word) : Word := trig (Config.freeWord (s.freeCtr + i)) (cosRef theta.toNat)
/-- sin(2π·θ) as an engine's TSIN gives it. -/
def State.sinT (s : State) (i : Nat) (theta : Word) : Word := trig (Config.freeWord (s.freeCtr + i)) (sinRef theta.toNat)

/-- The difference of two angles in turns, as wrap() gives it: −1/2 to 1/2 (06 R177). -/
def wrapTurns (a b : Word) : Word := fmul (ofInt (a - b).toInt) (lit 1 4294967296)

/-- FLAGS of a start record: ALIGN, DIR and START_TRIES (07 R199). -/
def alignOf (r : List Byte) : Nat := bits (wordAt r 0) 1 0
def dirOf (r : List Byte) : Nat := bits (wordAt r 0) 3 2
def triesOf (r : List Byte) : Nat := bits (wordAt r 0) 7 4

/-- A current clamped to I_LIM, E12.0 (07 R199). -/
def State.clampI (s : State) (n : AxisId) (v : Word) : Word := F32.min v (s.e n 12 0)

/-- The attempt current I_ALIGN × (1 + 0.25 × (a − 1)), clamped (07 R202). -/
def State.attemptI (s : State) (n : AxisId) : Word :=
  let c := (s.axis n).ch
  s.clampI n (fmul (wordAt c.startRec 4) (fadd fOne (fmul (lit 1 4) (ofInt ((c.attempt : Int) - 1)))))

/-- The time `f` of a record has passed since the attempt, the alignment or the wait began. -/
def Chain.sinceStart (c : Chain) (cref f : Nat) : Bool := secsPassed (cref - c.startAt) (wordAt c.startRec f)

/-- Whether the commanded direction of a Basting is backward (07, Basting). -/
def State.backward (s : State) (n : AxisId) : Bool :=
  let c := (s.axis n).ch
  let d := dirOf c.startRec
  let ref := if c.mode = .torque then s.e n 12 16 else s.e n 8 0
  if d = 1 then false else if d = 2 then true else F32.lt ref 0#32

/-- E8's integral is set so that i_dem = `target` on the present reference, speed and load (07 R203, R214). -/
def State.setIdem (s : State) (n : AxisId) (target : Word) : State :=
  let c := (s.axis n).ch
  let kt := fmul (fmul (lit 3 2) (ofInt (s.param n 3 68).toNat)) (s.param n 3 67)
  let mx := s.param n 8 69
  let ref := if c.st = .stopping then c.wr else F32.max (negate mx) (F32.min (s.refWordOf n 8 0) mx)
  let aff := if c.mode = .position then s.e n 10 0 else 0#32
  let rest := fadd (fdiv (s.own n 8 2) kt) (fdiv (fmul (s.param n 8 66) aff) kt)
  let prop := fmul (s.param n 8 64) (fsub ref (s.e n 4 3))
  s.modCh n fun c => { c with xi := fsub (fsub target rest) prop }

/-- A start attempt begins: the start record is read (07 R198, R202). -/
def State.beginAttempt (s : State) (n : AxisId) (a : Nat) : State :=
  let r := s.startRecord n
  let al := alignOf r
  let c := (s.axis n).ch
  let th := if al = 1 then wordAt r 12 else if al = 2 then c.carry.getD (wordAt r 12) else s.e n 3 0
  let s := s.modCh n fun c => { c with
    st := .starting, startRec := r, attempt := a, startAt := s.cref, thetaF := th, omegaF := 0#32
    start := if al = 0 then .ramp else .align, travel := none, back := 0#32, hoRun := 0, failDue := false }
  ((s.setOut n 4 0 th).setE n 4 2 th).noteTorque n

/-- The electrical speed with which a sensored start begins (07 R201). -/
def State.startSpeed (s : State) (n : AxisId) : Word :=
  let f := (s.axis n).fbk.words
  if s.param n 4 64 = 1#32 || f[3] = 0#32 then 0#32
  else
    let w := fmul (fdiv (fmul (ofInt f[2].toInt) (lit 400000000 1)) (ofInt f[3].toNat)) twoPi
    fdiv (fmul w (ofInt (s.param n 3 68).toNat)) (ofInt (s.param n 4 73).toNat)

/-- The axis leaves HOLD at an update point once charging is done: into RUN, or into STARTING for a
Basting (06 R168, 07 R201). -/
def State.leaveHold (s : State) (n : AxisId) : State :=
  let s := s.modPwm n Pwm.toSafe
  let c := (s.axis n).ch
  let s :=
    if s.param n 4 64 = 2#32 || c.mode = .fan then (s.modCh n fun c => { c with failRaised := false }).beginAttempt n 1
    else
      let w := s.startSpeed n
      let s := s.modCh n fun c => { c with st := .run, start := .none }
      ((s.setOut n 4 0 (s.e n 4 4)).setOut n 4 1 w).noteTorque n
  s.settleRuns

/-- ALIGNMENT_END (07 R202, R204), once T_ALIGN has passed: the seed of E3, whose angle is then θ_f, the travel's reference, and the
ramp begins. -/
def State.alignEnd (s : State) (n : AxisId) : State :=
  let c := (s.axis n).ch
  if c.st ≠ .starting || c.start ≠ .align || !c.sinceStart s.cref 8 then s else
  let m := fadd (s.param n 3 67) (fmul (s.param n 3 65) (s.attemptI n))
  let pa := fmul m (s.cosT 0 c.thetaF)
  let pb := fmul m (s.sinT 1 c.thetaF)
  ((s.bumpBy 2).setOut n 3 0 c.thetaF).modCh n fun c => { c with
    start := .ramp, travel := some 0#32, back := 0#32
    psi := (((c.psi.set 0 pa).set 1 pb).set 4 0#32).set 5 0#32 }

def execAlignmentEnd (n : AxisId) (s : State) : Host.Outcome State Fault Refusal := .next (s.alignEnd n)

/-- The backward travel exceeds BACK_MAX, on an axis that is not a FAN axis (07 R205, R215). -/
def Chain.backFail (c : Chain) : Bool := c.mode ≠ .fan && lt (wordAt c.startRec 32) c.back

/-- A current step of an attempt judges it (07 R205): backward travel beyond BACK_MAX, or T_START gone by without
handover. -/
def State.judgeAttempt (s : State) (n : AxisId) : State :=
  let c := (s.axis n).ch
  if c.st = .starting && (c.start = .align || c.start = .ramp) && (c.backFail || c.sinceStart s.cref 36)
  then s.modCh n fun c => { c with failDue := true } else s

/-- START_ATTEMPT_FAIL (07 R205, R215) on an attempt that a current step has found to fail: the safe state and
RETRY_WAIT; after attempt START_TRIES START_FAIL is raised and the axis enters HOLD, or, on a FAN axis, keeps
retrying. -/
def State.attemptFail (s : State) (n : AxisId) : State :=
  let c := (s.axis n).ch
  if c.st ≠ .starting || !(c.start = .align || c.start = .ramp) || !c.failDue then s
  else if triesOf c.startRec ≤ c.attempt then
    if c.mode = .fan then
      let s := if c.failRaised then s else s.raise (axisSrc n 9)
      (s.modCh n fun c => { c with start := .wait, startAt := s.cref, failRaised := true, failDue := false }).forceGates n
    else (s.raise (axisSrc n 9)).sendSafe n .hold
  else (s.modCh n fun c => { c with start := .wait, startAt := s.cref, failDue := false }).forceGates n

def execStartAttemptFail (n : AxisId) (s : State) : Host.Outcome State Fault Refusal := .next (s.attemptFail n)

/-- RETRY_WAIT_END (07 R205, R215), once RETRY_WAIT has passed: the next attempt, at most the last one's current again. -/
def State.retryEnd (s : State) (n : AxisId) : State :=
  let c := (s.axis n).ch
  if c.st ≠ .starting || c.start ≠ .wait || c.hardBrake || !c.sinceStart s.cref 40 then s
  else s.beginAttempt n (Nat.min (c.attempt + 1) (Nat.max 1 (triesOf c.startRec)))

def execRetryWaitEnd (n : AxisId) (s : State) : Host.Outcome State Fault Refusal := .next (s.retryEnd n)

/-- The stall conditions have held for T_STALL (07 R206). -/
def State.stallDue (s : State) (n : AxisId) : Bool :=
  let c := (s.axis n).ch
  (c.st = .run || c.st = .stopping) && !c.hardBrake &&
  c.stallFrom.any fun t => secsPassed (s.cref - t) (wordAt (s.stopRecord n) 32)

/-- STALL (07 R206): the conditions have held for T_STALL; raised once for the run. -/
def execStall (n : AxisId) (s : State) : Host.Outcome State Fault Refusal :=
  .next (if s.stallDue n then s.raiseCond (axisSrc n 10) true else s)

/-- The start record last read, or the one in CTM where none was (DEDUCED, log entry 137). -/
def State.recordNow (s : State) (n : AxisId) : List Byte :=
  let r := (s.axis n).ch.startRec
  if r.isEmpty then s.startRecord n else r

/-- One of the three ends of a stop holds (07 R209): eight speed steps at or below STOP_SPD, with SOURCE OBSERVER a
speed at or below max(STOP_SPD, HO_SPD/PP), or T_STOP gone by. HO_SPD is that of `recordNow`. -/
def State.stopDone (s : State) (n : AxisId) : Bool :=
  let c := (s.axis n).ch
  let ho := fdiv (wordAt (s.recordNow n) 24) (ofInt (s.param n 3 68).toNat)
  c.st = .stopping &&
  (decide (8 ≤ c.lowRun) || (s.param n 4 64 = 2#32 && F32.le (abs (s.e n 4 3)) (F32.max (wordAt c.stopRec 8) ho)) ||
   secsPassed (s.cref - c.stopAt) (wordAt c.stopRec 16))

/-- STOP_END (07 R209), on a stop that is at its end: the axis enters HOLD with its configured safe state. -/
def execStopEnd (n : AxisId) (s : State) : Host.Outcome State Fault Refusal :=
  .next (if s.stopDone n then s.sendSafe n .hold else s)

/-- A FAN axis with TACH_EN turns fast and confidently enough for its tach to be missed (07 R216). -/
def State.tachWatched (s : State) (n : AxisId) : Bool :=
  let c := (s.axis n).ch
  let r := s.stopRecord n
  s.axOn n && c.mode = .fan && bit (wordAt r 0) 4 && F32.le (wordAt (s.recordNow n) 28) (s.e n 3 1) &&
  F32.le (wordAt r 40) (abs (s.e n 4 3))

/-- TACH_LOSS (07 R216): no tach edge for TACH_T while both conditions held; raised again only after edges have
returned. -/
def execTachLoss (n : AxisId) (s : State) : Host.Outcome State Fault Refusal :=
  .next (if s.tachWatched n && secsPassed (s.cref - (s.axis n).ch.tachAt) (wordAt (s.stopRecord n) 36)
    then s.raiseCond (1152 + n.val) true else s)

end Sys2Proof.Machine
end

