-- ==== Sys2Proof/Machine/Pwm.lean ====
section
/-! DEFINITION. The pulse-width generator of an axis (04). Its events are commands: each acts at the
CKP edge on which CREF stands. Gate edges are kept in taps, 32 to a cp; an edge that falls within the
present cp acts at once, and a later one is noted as due and comes as a gate command of its own. -/

namespace Sys2Proof.Machine

open F32 (fsub)

/-! Compare words. -/

def PwmGroup.cmpWord (g : PwmGroup) (p : Fin 3) : Word :=
  match p with | 0 => g.cmpA | 1 => g.cmpB | 2 => g.cmpC

/-- The compare value of a phase in taps (04 R96). -/
def PwmGroup.cmp (g : PwmGroup) (p : Fin 3) : Int := (bits (g.cmpWord p) 20 0 : Nat)

/-- PER of the group in taps. -/
def PwmGroup.perT (g : PwmGroup) : Int := 32 * (g.per.toNat : Int)

/-- The level that a compare holds for a whole half: high at 0x00_0000, low at 0x1F_FFFF and from PER up
(04 R97, R542); none where the phase switches. -/
def PwmGroup.level (g : PwmGroup) (p : Fin 3) : Option Bool :=
  if g.cmp p = 0 then some true
  else if bits (g.cmpWord p) 20 0 = 0x1FFFFF || g.perT ≤ g.cmp p then some false
  else none

/-- The compares that set CMP_RANGE: above PER and not 0x1F_FFFF (04 R97). -/
def PwmGroup.outOfRange (g : PwmGroup) (p : Fin 3) : Bool :=
  bits (g.cmpWord p) 20 0 ≠ 0x1FFFFF && decide (g.perT < g.cmp p)

/-- MINPW, WIN_MIN, BST_MIN and the refresh on-time max(BST_PW, MINPW), in taps (04 R113, R126, R127). -/
def Pwm.minpw (w : Pwm) : Int := 32 * (bits w.now.win 7 0 : Nat)
def Pwm.winMin (w : Pwm) : Int := 128 * (Nat.max 1 (bits w.now.win 15 8) : Nat)
def Pwm.bstOn (w : Pwm) : Int :=
  let b : Int := 128 * (Nat.max 1 (bits w.now.bst 7 0) : Nat)
  if b < w.minpw then w.minpw else b
def Pwm.refreshN (w : Pwm) : Nat := if bits w.now.bst 21 16 = 0 then 64 else bits w.now.bst 21 16
def Pwm.hemLimit (w : Pwm) : Nat := Nat.max 1 (bits w.now.hem 7 0)
/-- UPD_MODE (04 R120): 0 BOUNDARY, 1 MID, 2 BOTH; 3 acts as MID. -/
def Pwm.updMode (w : Pwm) : Nat := let m := bits w.now.ctrl 1 0; if m = 3 then 1 else m
def Pwm.updZero (w : Pwm) : Bool := w.updMode = 0 || w.updMode = 2
def Pwm.updPeak (w : Pwm) : Bool := w.updMode = 1 || w.updMode = 2

/-! The shadow group (04 R102, R104; 01 R20, R21). -/

/-- The bits that a compare register has; the others read 0 (04 R122). -/
def cmpMask : Word := 0xC01FFFFF#32

/-- A released duty group whose path to the compare shadows has passed is in them, step 1 of R20 (01 R19, R22). -/
def Pwm.capture (w : Pwm) (cref : Nat) : Pwm :=
  match w.dutyWait with
  | none => w
  | some (a, b, c) => if cref < w.dutyAt then w else { w with dutyWait := none, shadow := { w.shadow with
      cmpA := a &&& cmpMask, cmpB := b &&& cmpMask, cmpC := c &&& cmpMask } }

/-- The duty port releases a group: it reaches the shadows 4 or 5 cp after the store, at a CKP edge no sooner than 10 ns
and no later than 13.75 ns (01 R19, R22); a group that waits there is replaced whole (R21). -/
def State.dutyRelease (s : State) (n : AxisId) (a b c : Word) : State :=
  let lag := if Config.freeBool s.freeCtr then 5 else 4
  s.bump.modPwm n fun w =>
    { w.capture s.cref with dutyWait := some (a, b, c), dutyAt := s.cref + lag, dutyHold := Vector.replicate 3 none }

/-- The whole group loads, step 3 of R20. -/
def Pwm.load (w : Pwm) : Pwm :=
  let f (p : Fin 3) : Word := bitAt (19 + p.val) (w.shadow.outOfRange p)
  { w with act := w.shadow, sticky := w.sticky ||| f 0 ||| f 1 ||| f 2 }

/-- The axis is switching: its gate commands follow the compares. -/
def State.switching (s : State) (n : AxisId) : Bool := s.forced n = .none && !(s.axis n).pwm.dbgHalted

/-! Gate edges. A turn-off comes at its time or, under R100, not before the pulse has lasted MINPW. -/

/-- The turn-on of the low side that stands or is due, and of the high side. -/
def PwmPhase.lowSince (x : PwmPhase) : Option Int := if x.lo then some x.loAt else x.loDue
def PwmPhase.highSince (x : PwmPhase) : Option Int := if x.hi then some x.hiAt else x.hiDue

/-- The later of two times. -/
def laterT (a b : Int) : Int := if a < b then b else a

/-- When the low side of a phase turns off that is to do so at `t`: not before it has lasted MINPW, and a refresh its
on-time (04 R100, R113). -/
def Pwm.lowOffAt (w : Pwm) (p : Fin 3) (t : Int) : Int :=
  let x := w.ph[p]
  match x.lowSince with
  | none => t
  | some b =>
    let t := laterT t (b + w.minpw)
    match x.refreshEnd with | some e => laterT t e | none => t

/-- When the high side of a phase turns off that is to do so at `t` (04 R100). -/
def Pwm.highOffAt (w : Pwm) (p : Fin 3) (t : Int) : Int :=
  match w.ph[p].highSince with
  | none => t
  | some b => laterT t (b + w.minpw)

/-- The low side of a phase turns off at `t`, and the high side on DTR_eff later. A low side that is still to
turn on is on for MINPW first, and a refresh for its on-time (04 R98, R100, R113). -/
def State.lowOff (s : State) (n : AxisId) (p : Fin 3) (t : Int) : State :=
  let w := (s.axis n).pwm
  let x := w.ph[p]
  match x.lowSince with
  | none => if x.hi || x.hiDue.isSome then s else s.modPh n p fun x => { x with hiDue := some t }
  | some _ =>
    let t := w.lowOffAt p t
    let s := if x.lo && s.dueT t then s.gateFall n (loGate p) else s.modPh n p fun x => { x with loFall := some t }
    s.modPh n p fun x => { x with hiDue := some (t + w.act.dtr p) }

/-- The high side of a phase turns off at `t`, and the low side on DTF_eff later. A high side that is still to
turn on is on for MINPW first (04 R98, R100). -/
def State.highOff (s : State) (n : AxisId) (p : Fin 3) (t : Int) : State :=
  let w := (s.axis n).pwm
  let x := w.ph[p]
  match x.highSince with
  | none => if x.lo || x.loDue.isSome then s else s.modPh n p fun x => { x with loDue := some t }
  | some _ =>
    let t := w.highOffAt p t
    let s := if x.hi && s.dueT t then s.gateFall n (hiGate p) else s.modPh n p fun x => { x with hiFall := some t }
    s.modPh n p fun x => { x with loDue := some (t + w.act.dtf p) }

/-- The boundary rule of R542 for one phase: a half that holds one level finds the gates in it, or
changes them at the boundary. A phase with both gates off takes the level of its reference at the
boundary (DEDUCED, log entry 10): high at a peak, low at a zero. -/
def State.boundaryPhase (s : State) (n : AxisId) (peak : Bool) (p : Fin 3) : State :=
  let w := (s.axis n).pwm
  let x := w.ph[p]
  let idle := !x.hi && !x.lo && x.hiDue.isNone && x.loDue.isNone
  match w.act.level p with
  | some true => if x.hi || x.hiDue.isSome then s else s.lowOff n p s.nowT
  | some false => if x.lo || x.loDue.isSome then s else s.highOff n p s.nowT
  | none => if idle then (if peak then s.lowOff n p s.nowT else s.highOff n p s.nowT) else s

/-- A phase at a boundary under a Hem cut that leaves the low sides their complementary timing: with its high side cut,
a low side that is off turns on (04 R115). -/
def State.hemPhase (s : State) (n : AxisId) (p : Fin 3) : State :=
  let x := (s.axis n).pwm.ph[p]
  if x.lo || x.loDue.isSome then s else s.modPh n p fun x => { x with loDue := some s.nowT }

/-- The phases at a boundary, while the axis switches. -/
def State.boundaryLevels (s : State) (n : AxisId) (peak : Bool) : State :=
  let w := (s.axis n).pwm
  if !s.switching n || (w.hem && w.hemLow) then s
  else (List.finRange 3).foldl (fun s p => if w.hem then s.hemPhase n p else s.boundaryPhase n peak p) s

/-! Windows and the Gusset shift (04 R108 to R110, R118). -/

/-- The time, before an instant `t`, for which the low-side command of a phase has been on. -/
def PwmPhase.heldLow (x : PwmPhase) (t : Int) : Int := if x.lo && x.loAt < t then t - x.loAt else 0

/-- Phases whose window is narrow, as a mask, from a window of each. -/
def narrowMask (min : Int) (win : Fin 3 → Int) : BitVec 3 :=
  (List.finRange 3).foldl (fun m p => if win p < min then setBitW m p.val true else m) 0#3

def count3 (m : BitVec 3) : Nat := (if m.getLsbD 0 then 1 else 0) + (if m.getLsbD 1 then 1 else 0) + (if m.getLsbD 2 then 1 else 0)

/-- A phase has a down switching point before the coming zero: its compare switches and its low pulse
is not suppressed (04 R99, R109). -/
def Pwm.hasDown (w : Pwm) (p : Fin 3) : Bool :=
  w.act.level p = none && decide (0 < 2 * w.act.cmp p - w.act.dtf p) && decide (w.minpw ≤ 2 * w.act.cmp p - w.act.dtf p)

/-- A phase is due a refresh at the coming zero, `z` in taps (04 R112). -/
def Pwm.refreshDue (w : Pwm) (p : Fin 3) (z : Int) : Bool :=
  decide (w.refreshN ≤ w.ph[p].shortRun) ||
  match w.ph[p].request with
  | some t => decide (32 * (t : Int) + 128 ≤ z)
  | none => false

/-- The window that a phase will have at the coming zero, decided at the peak `t`. -/
def State.planWindow (s : State) (n : AxisId) (t : Int) (p : Fin 3) : Int :=
  let w := (s.axis n).pwm
  let x := w.ph[p]
  let z := t + w.act.perT
  let on : Int := if x.lo then z - x.loAt else match x.loDue with | some d => if d < z then z - d else 0 | none => 0
  match s.forced n with
  | .open => 0
  | .short => on
  | .none =>
    if w.hem then (if w.hemLow then 0 else on)
    else match w.act.level p with
      | some true => 0
      | some false => if x.lo || x.loDue.isSome then on else w.act.perT - w.act.dtf p
      | none =>
        if x.lo then on
        else if w.hasDown p && w.act.dtf p < w.act.cmp p then w.act.cmp p - w.act.dtf p else 0

/-- The two phases of a mask, EARLY by default the one with the longer window, the lower one where they
are equal. -/
def autoRoles (m : BitVec 3) (win : Fin 3 → Int) : Fin 3 × Fin 3 :=
  let l := (List.finRange 3).filter fun p => m.getLsbD p.val
  let a := l.getD 0 0
  let b := l.getD 1 0
  if win a < win b then (b, a) else (a, b)

/-- The roles under GUS_MODE, with the swaps of R109. -/
def Pwm.roles (w : Pwm) (m : BitVec 3) (win : Fin 3 → Int) (lateOnly : Fin 3 → Bool) : Fin 3 × Fin 3 :=
  let named (b : Nat) : List (Fin 3) := (List.finRange 3).filter fun p => m.getLsbD p.val && bit (w.act.cmpWord p) b
  let r :=
    if bits w.now.ctrl 5 4 = 2 then
      match named 31, named 30 with
      | [e], [l] => if e = l then autoRoles m win else (e, l)
      | _, _ => autoRoles m win
    else autoRoles m win
  if lateOnly r.1 then (r.2, r.1) else r

/-- The Gusset decision at a peak: the marks for the coming zero, the shifts, GUS_FAIL and GUS_CNT. -/
def State.gussetPlan (s : State) (n : AxisId) : State :=
  let w := (s.axis n).pwm
  let t := s.nowT
  let z := t + w.act.perT
  let win := s.planWindow n t
  let m := narrowMask w.winMin win
  let s := s.modPwm n fun w => { w with narrow := m, gusset := false,
                                         ph := w.ph.map fun x => { x with shiftDn := 0, shiftUp := 0 } }
  if count3 m ≠ 2 || bits w.now.ctrl 5 4 = 0 then s
  else
    let lateOnly (p : Fin 3) : Bool := w.refreshDue p z || !w.hasDown p
    let r := w.roles m win lateOnly
    let e := r.1
    let l := r.2
    let ce := w.act.cmp e
    let cl := w.act.cmp l
    let se := w.winMin - win e
    let sl : Int := if w.hasDown l then cl + 128 else 0
    let free := s.forced n = .none && !w.dbgHalted
    let ok1 := decide (128 < ce - se)
    let hiStart := if w.ph[e].hi then w.ph[e].hiAt else w.ph[e].hiDue.getD t
    let ok2 := decide (w.minpw ≤ z - ce - se - hiStart) &&
      (decide (sl = 0) || decide (w.minpw ≤ 2 * (w.act.perT - cl) - w.act.dtr l - sl))
    let ok3 := decide (ce + se ≤ w.act.perT) && decide (cl + sl ≤ w.act.perT)
    if free && !w.hem && !lateOnly e && ok1 && ok2 && ok3 then
      let s := s.modPh n e fun x => { x with shiftDn := -se, shiftUp := -se }
      let s := s.modPh n l fun x => { x with shiftDn := sl, shiftUp := sl }
      s.modPwm n fun w => { w with narrow := BitVec.twoPow 3 l.val, gusset := true, gusCnt := satInc w.gusCnt }
    else s.modPwm n fun w => { w with sticky := w.sticky ||| bitAt 25 true }

/-- The compensating up-half shift after a load at the zero, placed as near as conditions 2 and 3 of R110
allow, and not before the zero, which has come (DEDUCED, log entry 157); GUS_SHORT notes that it had to move (04
R110). -/
def State.gussetUp (s : State) (n : AxisId) : State :=
  let w := (s.axis n).pwm
  if !w.gusset || !w.updZero then s
  else (List.finRange 3).foldl (fun s p =>
    let x := w.ph[p]
    if x.shiftUp = 0 || w.act.level p ≠ none then s
    else
      let c := w.act.cmp p
      let u := c + x.shiftUp
      let hi1 := w.act.perT
      let hi2 := 2 * w.act.perT - c - w.act.dtr p - w.minpw
      let hi := if hi1 < hi2 then hi1 else hi2
      let lo : Int := if x.lo && s.nowT < x.loAt + w.minpw then x.loAt + w.minpw - s.nowT else 0
      let v := if u < lo then lo else if hi < u then hi else u
      let s := s.modPh n p fun x => { x with shiftUp := v - c }
      if v = u then s else s.modPwm n fun w => { w with sticky := w.sticky ||| bitAt 24 true }) s

/-! Bootstrap refresh (04 R112 to R114). -/

/-- The refresh of one phase at the present zero (04 R113). Where the zero also begins a 0 % up half with the high
side on, the high side goes off at Z + 4 cp, as R113 has it, and not at the boundary of R542 (DESIGN CHOICE, log
entry 129). -/
def State.refreshPhase (s : State) (n : AxisId) (p : Fin 3) : State :=
  let w := (s.axis n).pwm
  let x := w.ph[p]
  let z := s.nowT
  let on := w.bstOn
  if x.lo then s.modPh n p fun x => { x with refresh := true, refreshEnd := some (z + on) }
  else if x.hi then
    let off := if z + 128 < x.hiAt + w.minpw then x.hiAt + w.minpw else z + 128
    let up := off + w.act.dtf p
    s.modPh n p fun x => { x with
      refresh := true, hiFall := some off, hiDue := none, loDue := some up, refreshEnd := some (up + on)
      loFall := if w.act.level p = some true then some (up + on) else none }
  else
    let up := x.loDue.getD (z + 128)
    s.modPh n p fun x => { x with
      refresh := true, hiDue := none, loDue := some up, refreshEnd := some (up + on)
      loFall := if w.charging then some (up + on) else none }

/-- The width of the low-side pulse around the present zero, by the compares in force and the Gusset
shift, before the boundary changes any gate; 0 where there is none (04 R112). The low side of a LATE phase turns on
after its high side has turned off at Z + 4 cp, and that of a 0 % half after its high side has turned off at the
zero or once it has lasted MINPW (R100, R542). -/
def Pwm.lowWidth (w : Pwm) (p : Fin 3) (cref : Nat) : Int :=
  let x := w.ph[p]
  let z : Int := 32 * cref
  let since : Option Int := if x.lo then some x.loAt else
    match x.loDue with | some d => some d | none => if 0 < x.shiftDn then some (z + 128 + w.act.dtf p) else none
  match since with
  | none =>
    if w.act.level p = some false && !w.hem then
      let off := if x.hi && z < x.hiAt + w.minpw then x.hiAt + w.minpw else z
      z + w.act.perT - (off + w.act.dtf p)
    else 0
  | some b =>
    if w.hem then (if w.hemLow then (if x.lo then z - b else 0) else z + w.act.perT - b)
    else match w.act.level p with
      | some true => z - b
      | some false => z + w.act.perT - b
      | none => 32 * (Nat.max cref w.goAt : Nat) + w.act.cmp p + x.shiftUp - b

/-- The refresh decisions of a switching axis at a zero (04 R112, R113). -/
def State.refreshes (s : State) (n : AxisId) : State :=
  if !s.switching n then s
  else (List.finRange 3).foldl (fun s p =>
    let w := (s.axis n).pwm
    let z := s.nowT
    if !w.refreshDue p z then s.modPh n p fun x => { x with refresh := false }
    else if w.hem && w.hemLow then
      (s.modPh n p fun x => { x with refresh := false }).modPwm n fun w => { w with sticky := w.sticky ||| bitAt 22 true }
    else
      let s := s.modPh n p fun x => { x with shortRun := 0, request := match x.request with
        | some t => if 32 * (t : Int) + 128 ≤ z then none else some t
        | none => none }
      if w.hem then s.modPh n p fun x =>
        let up := x.loDue.getD (z + 128)
        if x.lo then { x with refresh := true, refreshEnd := some (z + w.bstOn) }
        else { x with refresh := true, loDue := some up, refreshEnd := some (up + w.bstOn) }
      else s.refreshPhase n p) s

/-- The generator with the low-side command of a phase still on where it was before the zero. -/
def Pwm.asBefore (w : Pwm) (p : Fin 3) (b : PwmPhase) : Pwm :=
  if b.lo then { w with ph := w.ph.set p { w.ph[p] with lo := true, loAt := b.loAt } } else w

/-- The short low pulses of a switching axis count at each zero that makes no refresh (04 R112). `b` holds the phases
before the zero changed any command, so that a pulse which a Hem cut ends at the zero counts with its width. -/
def State.shortPulses (s : State) (n : AxisId) (b : Vector PwmPhase 3) : State :=
  if !s.switching n then s
  else (List.finRange 3).foldl (fun s p =>
    let w := (s.axis n).pwm
    if w.ph[p].refresh then s
    else s.modPh n p fun x => { x with
      shortPrev := b[p].shortRun
      shortRun := if (w.asBefore p b[p]).lowWidth p s.cref < w.bstMin then Nat.min 64 (b[p].shortRun + 1) else 0 }) s

/-- BST_OK of the three phases as the latest STATUS frame reported them, GDR_LIVE bits 2 to 0 (02 R57). -/
def Gdr.bstLive (d : Gdr) : BitVec 3 := BitVec.ofNat 3 (bits d.live 2 0)

/-- The charging refreshes of a zero (04 R114): from the first zero after any calibration, every phase
whose BST_OK is clear; once all are set the axis leaves HOLD at the next update point. -/
def State.chargeZero (s : State) (n : AxisId) : State :=
  let a := s.axis n
  if !a.pwm.charging || a.sns.calRun || 64 ≤ a.pwm.chargeZeros then s
  else if a.gdr.bstLive = 7#3 then s.modPwm n fun w => { w with leaveHold := true }
  else
    let s := (List.finRange 3).foldl (fun s p =>
      if a.gdr.bstLive.getLsbD p.val then s else s.refreshPhase n p) s
    s.modPwm n fun w => { w with chargeZeros := w.chargeZeros + 1 }

/-- The axis leaves HOLD at an update point once charging is done. -/
def State.updatePoint (s : State) (n : AxisId) : State :=
  if (s.axis n).pwm.leaveHold && (s.axis n).ch.st = .charging && !s.inAnyFit n then s.leaveHold n else s

/-! Hem at a zero (04 R115, R117). -/

/-- The Hem accounting of the period that ends. -/
def State.hemPeriodEnd (s : State) (n : AxisId) : State :=
  let w := (s.axis n).pwm
  if !w.hemPeriod && !s.switching n then s
  else
    let s := s.modPwm n fun w => { w with hemRun := if w.hemPeriod then satInc w.hemRun else 0#8, hemPeriod := false }
    if !w.hemPeriod then s.raiseCond (axisSrc n 4) false
    else if w.hemLimit < w.hemRun.toNat + 1 then s.raiseCond (axisSrc n 4) true else s

/-- The cut of the past period ends, and a source still active cuts the new one from its start: the comparator of a
phase that is active and can have stood for 20 ns (03 R68), and TRIPb after its filter (R116). TRIP_LEVEL follows the
level of TRIPb that the zero finds (02 R59). -/
def State.hemZero (s : State) (n : AxisId) (live : HemLive) : State :=
  let stands := (List.finRange 3).any fun p => live.comparator.getLsbD p.val && s.cmpActs n p 8
  let s := s.modBank n.bank fun k => { k with trip := decide (0 < live.tripCp) }
  let s := s.modSns n fun q => { q with hemNow := stands }
  let s := s.modPwm n fun w => { w with hem := false, hemLow := false }
  if (stands && bit (s.axis n).sns.cmpIn 17) || (s.axis n).pwm.trips live.tripCp then s.hemCut n else s

/-! Sample pulses and the window word (04 R107, R111). -/

/-- TRIG_SEL as the generator applies it: bit 0 zero, 1 peak, 2 TRG0, 3 TRG1 (03 R84). -/
def Sns.trigSel (q : Sns) (i : Nat) : Bool := bit q.cfg (4 + i)

/-- The window word of a hold (04 R111). -/
def Pwm.windowWord (w : Pwm) (kind : Nat) (narrow : BitVec 3) (gusset : Bool) (refresh : BitVec 3) : Word :=
  fieldAt 16 (w.pcount.toNat % 65536) ||| bitAt 12 w.resumed ||| bitAt 11 w.hem ||| fieldAt 8 refresh.toNat |||
  bitAt 7 gusset ||| fieldAt 4 narrow.toNat ||| fieldAt 2 kind ||| bitAt 1 (decide (2 ≤ count3 narrow))

/-- A sample hold of the axis on the control die: its window word waits for its frame, and the feedback
interface latches. -/
def State.sampleHold (s : State) (n : AxisId) (word : Word) : State :=
  let s := (s.modPwm n fun w => { w with resumed := false }).holdLatch n
  let fb := (s.axis n).fbk.words
  s.modSns n fun q => { q with wins := q.wins ++ [(s.cref, word, fb)] }

/-- A boundary pulse is issued: it enters the control die's record (03 R544). `half` is the generator in the half
period that it closes. -/
def State.boundaryPulse (s : State) (n : AxisId) (peak : Bool) (half : Pwm) : State :=
  let pc := (s.axis n).pwm.pcount
  s.modSns n fun q => { q with
    record := q.record ++ [{ peak := peak, pcount := pc, at_ := s.cref, per := half.half
                             cmp := #v[half.act.cmpA, half.act.cmpB, half.act.cmpC] }]
    trigHigh := none }

/-- The windows as the gate commands stand at a hold now; in OPEN no phase is measured (04 R108, R118). -/
def State.heldMask (s : State) (n : AxisId) : BitVec 3 :=
  let w := (s.axis n).pwm
  narrowMask w.winMin fun p => if s.cutOpen n then 0 else w.ph[p].heldLow s.nowT

/-- Phases under refresh at this zero. -/
def Pwm.refreshMask (w : Pwm) : BitVec 3 :=
  (List.finRange 3).foldl (fun m p => setBitW m p.val w.ph[p].refresh) 0#3

/-! Starting, stopping and the boundaries. -/

/-- The distance in cp from CREF to the next target zero (04 R95). -/
def Pwm.toTarget (w : Pwm) (cref : Nat) : Nat :=
  let per := 2 * w.act.per.toNat
  let ph := w.act.phase.toNat % per
  (ph + per - cref % per) % per

/-- The counter starts or restarts: it waits for the first target zero at least 16 cp away (04 R94). -/
def Pwm.startWait (w : Pwm) (cref : Nat) (m : CntMode) : Pwm :=
  { w with mode := m, count := 0, down := false, goAt := cref + 16 + w.toTarget (cref + 16) }

/-- COUNTER_START (04 R94): the axis domain is on and DLL_LOCK is 1 after either was not. In a debug halt the counter
stays frozen until the restart of R119. -/
def State.counterStart (s : State) (n : AxisId) : State :=
  if !s.axOn n || !s.clk.dll || (s.axis n).pwm.mode ≠ .stopped then s
  else
    let s := s.modPwm n fun w =>
      let w := w.startWait s.cref .waiting
      { w with pcount := 0#32, mode := if w.dbgHalted then .frozen else w.mode }
    s.modFbk n fun f => f.noRef s.cref

def execCounterStart (n : AxisId) (s : State) : Host.Outcome State Fault Refusal := .next (s.counterStart n)

/-- The counter of an axis stops: its domain went off or the delay lines unlocked (04 R94). COUNT and DIR read 0
while it is stopped (DESIGN CHOICE, log entry 129). -/
def State.counterStop (s : State) (n : AxisId) : State :=
  if (s.axis n).pwm.mode = .stopped then s
  else (s.modPwm n fun w => { w with mode := .stopped, count := 0, down := false }).refStopped n

/-- The counter stands at a zero now: it has counted down to 0, or a start or restart has come to a target zero that
lies far enough away (04 R93, R94). -/
def Pwm.atZero (w : Pwm) (cref : Nat) : Bool :=
  match w.mode with
  | .waiting | .restarting => decide (w.goAt ≤ cref) && decide (w.toTarget cref = 0)
  | .counting => w.down && w.count = 0
  | .stopped | .slipping | .frozen => false

/-- A short brake of the regen reaction that has been marked ends at its axis' zero (07 R214). -/
def State.hardRelease (s : State) (n : AxisId) : State :=
  let c := (s.axis n).ch
  if !(c.hardBrake && c.hardRelease) then s
  else
    let s := (s.modCh n fun c => { c with hardBrake := false, hardRelease := false }).setIdem n 0#32
    ((s.setOut n 5 4 0#32).setOut n 5 5 0#32).setE n 8 1 0#32

/-- The counter at its zero: PCOUNT, the half, and the slip where this is not a target zero. A restart counts, also
where the debug halt came before the start zero (04 R106; DESIGN CHOICE, log entry 129). -/
def Pwm.countZero (w : Pwm) (cref : Nat) : Pwm :=
  let pc := if w.mode = .waiting then w.pcount else w.pcount + 1#32
  let d := w.toTarget cref
  let slip := w.mode = .counting && d ≠ 0
  { w with
    pcount := pc, count := 0, down := false, half := w.act.per.toNat, issued := 0#8
    slip := if slip then Nat.min d 64 else 0
    mode := if slip then .slipping else .counting, goAt := if slip then cref + Nat.min d 64 else cref }

/-- ZERO (04 R93 to R95, R102 to R118): the registers load, the period ends and the next begins, the
boundary pulse falls, the gates are decided in the order of R118, and the event is issued. -/
def State.zero (s : State) (n : AxisId) (live : HemLive) : State :=
  let w := (s.axis n).pwm
  if !s.axOn n || !s.clk.dll || !w.atZero s.cref || s.commitDue then s
  else
    let first := w.mode = .waiting || w.mode = .restarting
    let halted := w.mode = .restarting
    let hemAt := w.hem
    let s := s.hemPeriodEnd n
    let s := s.modPwm n fun w =>
      let w := { w.capture s.cref with now := w.setup }
      let w := if w.updZero then w.load else w
      w.countZero s.cref
    let s := if halted then s.modPwm n fun w => { w with dbgHalted := false } else s
    let s := if (s.axis n).pwm.updZero then s.updatePoint n else s
    let s := s.hardRelease n
    let plan := s.forced n = .none && !first
    let held := s.heldMask n
    let s := s.boundaryPulse n false w
    let before := (s.axis n).pwm.ph
    let s := s.hemZero n live
    let s := s.gussetUp n
    let s := s.forceGates n
    let s := (s.refreshes n).shortPulses n before
    let s := (s.boundaryLevels n false).chargeZero n
    let w := (s.axis n).pwm
    let word := { w with hem := hemAt }.windowWord 0 (if plan then w.narrow else held) (plan && w.gusset) w.refreshMask
    let s := if (s.axis n).sns.trigSel 0 && w.smpPeriod then s.sampleHold n word else s
    s.pwmEvent n .zero

def execZero (n : AxisId) (live : HemLive) (s : State) : Host.Outcome State Fault Refusal := .next (s.zero n live)

/-- PEAK (04 R93, R102, R105, R107, R109): the counter turns, the group loads, the Gusset decision for the
coming zero is made, and the event is issued. -/
def State.peak (s : State) (n : AxisId) : State :=
  let w := (s.axis n).pwm
  if !s.axOn n || !s.clk.dll || w.mode ≠ .counting || w.down || w.count ≠ w.half || s.commitDue then s
  else
    let s := s.modPwm n fun w =>
      let w := w.capture s.cref
      let w := if w.updPeak then w.load else w
      { w with count := w.act.per.toNat, down := true, half := w.act.per.toNat, issued := 0#8 }
    let held := s.heldMask n
    let s := s.boundaryPulse n true w
    let s := if (s.axis n).pwm.updPeak then s.updatePoint n else s
    let s := s.forceGates n
    let s := s.boundaryLevels n true
    let s := s.gussetPlan n
    let w := (s.axis n).pwm
    let s := if (s.axis n).sns.trigSel 1 && w.smpPeriod
      then s.sampleHold n (w.windowWord 1 held false 0#3) else s
    s.pwmEvent n .peak

def execPeak (n : AxisId) (s : State) : Host.Outcome State Fault Refusal := .next (s.peak n)

/-! Switching points (04 R96 to R100, R105). -/

/-- The down switching point of a LATE phase lies 4 cp after the zero, and so in the up half (04 R109). -/
def PwmPhase.late (x : PwmPhase) : Bool := decide (0 < x.shiftDn)

/-- The gates of a phase at a switching point, moved by its Gusset shift. A low side that a Hem cut without
HEM_LOWOFF finds on stays on past its up switching point, as the complement of the high side that is cut (04 R115;
DESIGN CHOICE, log entry 129). A pulse narrower than MINPW, or not positive, is suppressed: it is counted from the
turn-off that MINPW or a refresh delays, on which its dead time follows (R99, R100, R113, step 6 of R118). A Hem cut in
force holds the gates. -/
def State.switchPoint (s : State) (n : AxisId) (p : Fin 3) (up : Bool) : State :=
  let w := (s.axis n).pwm
  let x := w.ph[p]
  let c := w.act.cmp p
  if !s.switching n || w.hem then s
  else if up then
    let t := s.nowT + (c + x.shiftUp) % 32
    let width := 2 * (w.act.perT - c) - x.shiftUp - w.act.dtr p - (w.lowOffAt p t - t)
    if width ≤ 0 || width < w.minpw then s else s.lowOff n p t
  else
    let t := s.nowT - if x.late then 0 else (c - x.shiftDn) % 32
    let width := (if x.late then c + x.shiftUp - 128 else 2 * c) - w.act.dtf p - (w.highOffAt p t - t)
    if width ≤ 0 || width < w.minpw then s else s.highOff n p t

/-- The counter value of a switching point of a phase, the tap ignored and the Gusset shift included; a LATE phase's
down point lies 4 cp after the zero (04 R96, R105, R109). -/
def Pwm.pointAt (w : Pwm) (p : Fin 3) (up : Bool) : Int :=
  let x := w.ph[p]
  let c := w.act.cmp p
  if up then (c + x.shiftUp) / 32 else if x.late then 4 else (c - x.shiftDn) / 32

/-- The bit of a switching point among the events issued in a half. -/
def pointBit (p : Fin 3) (up : Bool) : Nat := if up then p.val else 3 + p.val

/-- The counter stands at a switching point of a phase that has not been issued in this half. -/
def Pwm.atPoint (w : Pwm) (p : Fin 3) (up : Bool) : Bool :=
  w.mode = .counting && w.down = !(up || w.ph[p].late) && (w.count : Int) = w.pointAt p up &&
  !w.issued.getLsbD (pointBit p up)

/-- CMP_EVENT (04 R105, R109): the counter reaches a switching point of a phase in the half in progress. -/
def State.cmpEvent (s : State) (n : AxisId) (p : Fin 3) (up : Bool) : State :=
  let w := (s.axis n).pwm
  let c := w.act.cmp p
  if !s.axOn n || !w.atPoint p up || c = 0 || w.act.perT < c || s.commitDue then s
  else
    let s := s.modPwm n fun w => { w with issued := setBitW w.issued (pointBit p up) true }
    let s := if w.act.level p = none then s.switchPoint n p up else s
    s.pwmEvent n (match p with | 0 => .cmpA | 1 => .cmpB | 2 => .cmpC)

def execCmpEvent (n : AxisId) (p : Phase) (up : Bool) (s : State) : Host.Outcome State Fault Refusal :=
  .next (s.cmpEvent n p.idx up)

/-! Trigger events (04 R105, R107). -/

/-- TRGk and its direction field. -/
def Pwm.trg (w : Pwm) (k : Fin 2) : Nat := if k = 0 then bits w.act.trg 15 0 else bits w.act.trg 31 16
def Pwm.trgDir (w : Pwm) (k : Fin 2) (down : Bool) : Bool := bit w.now.trgCfg (2 * k.val + (if down then 1 else 0))

/-- The PCOUNT of the hold at the coming boundary: a zero's hold belongs to the period it begins (04 R106). -/
def Pwm.holdPc (w : Pwm) (peak : Bool) : Word := if peak || w.mode = .waiting then w.pcount else w.pcount + 1#32

/-- The pulse at the coming boundary is a sample: its event is selected, in a sampling period (04 R106, R107). -/
def State.boundSample (s : State) (n : AxisId) (peak : Bool) : Bool :=
  let w := (s.axis n).pwm
  (s.axis n).sns.trigSel (if peak then 1 else 0) && { w with pcount := w.holdPc peak }.smpPeriod

/-- The lead of the boundary pulse at a zero or a peak: 16 cp for a sample, 4 cp for a mark. -/
def State.pulseLead (s : State) (n : AxisId) (peak : Bool) : Nat := if s.boundSample n peak then 16 else 4

/-- A mid-half pulse, 24 cp long, would overlap or come within 4 cp of a boundary pulse, or of the other
trigger's pulse scheduled before it in this half. A slip parts the pulses of an up half from its zero's. -/
def State.trgClash (s : State) (n : AxisId) (k : Fin 2) : Bool :=
  let w := (s.axis n).pwm
  let from_ (i : Fin 2) : Nat := if w.down then w.half - w.trg i else w.trg i
  let edge := from_ k
  let bound (i : Fin 2) : Bool :=
    decide (from_ i + (if w.down then 0 else w.slip) < 28) || decide (w.half < from_ i + 4 + s.pulseLead n (!w.down))
  let o : Fin 2 := if k = 0 then 1 else 0
  let other := w.trgDir o w.down && decide (w.trg o ≤ w.half) && (s.axis n).sns.trigSel (2 + o.val) && !bound o &&
    (decide (from_ o < edge) || (decide (from_ o = edge) && o.val = 0)) && decide (edge < from_ o + 28)
  bound k || other

/-- The counter stands at TRGk in a direction set for it, and the event has not been issued in this half. -/
def Pwm.atTrg (w : Pwm) (k : Fin 2) : Bool :=
  w.mode = .counting && w.trgDir k w.down && w.count = w.trg k && !w.issued.getLsbD (6 + k.val)

/-- TRG_EVENT: the event, and the hold of a selected mid-half sample or TRG_CLASH. -/
def State.trgEvent (s : State) (n : AxisId) (k : Fin 2) : State :=
  let w := (s.axis n).pwm
  if !s.axOn n || !w.atTrg k || s.commitDue then s
  else
    let s := s.modPwm n fun w => { w with issued := setBitW w.issued (6 + k.val) true }
    let sel := (s.axis n).sns.trigSel (2 + k.val) && w.smpPeriod
    let s :=
      if !sel then s
      else if s.trgClash n k then s.modPwm n fun w => { w with sticky := w.sticky ||| bitAt 26 true }
      else
        let s := s.modSns n fun q => { q with trigHigh := none }
        s.sampleHold n (w.windowWord (2 + k.val) (s.heldMask n) false 0#3)
    s.pwmEvent n (if k = 0 then .trg0 else .trg1)

def execTrgEvent (n : AxisId) (k : Fin 2) (s : State) : Host.Outcome State Fault Refusal := .next (s.trgEvent n k)

/-- The next boundary of the counter, a peak or not, and its distance in cp; none while the counter does not run. -/
def Pwm.toBoundary (w : Pwm) (cref : Nat) : Option (Bool × Nat) :=
  match w.mode with
  | .waiting | .restarting => some (false, w.goAt - cref)
  | .counting => some (if w.down then (false, w.count) else (true, w.half - w.count))
  | .slipping => some (true, w.goAt - cref + w.half)
  | .stopped | .frozen => none

/-- The distance in cp to the TRGk edge of the half in progress, where there is one ahead. -/
def Pwm.toTrg (w : Pwm) (k : Fin 2) (cref : Nat) : Option Nat :=
  if !w.trgDir k w.down || w.half < w.trg k then none
  else match w.mode with
  | .counting => if w.down then (if w.trg k < w.count then some (w.count - w.trg k) else none)
                 else (if w.count < w.trg k then some (w.trg k - w.count) else none)
  | .slipping => some (w.goAt - cref + w.trg k)
  | .waiting | .restarting | .stopped | .frozen => none

/-- The instant calls for the rise of a pulse: a boundary sample 16 cp and a boundary mark 4 cp before the boundary, a
mid-half sample 24 cp before the edge of a selected TRG in a sampling period that no other pulse keeps from it (04
R107). -/
def State.riseCalled (s : State) (n : AxisId) (k : PulseKind) : Bool :=
  let w := (s.axis n).pwm
  let bound (sample : Bool) (lead : Nat) : Bool :=
    match w.toBoundary s.cref with
    | some (peak, d) => s.boundSample n peak = sample && decide (0 < d) && decide (d ≤ lead)
    | none => false
  match k with
  | .boundarySample => bound true 16
  | .mark => bound false 4
  | .midHalf => (List.finRange 2).any fun i => (s.axis n).sns.trigSel (2 + i.val) && w.smpPeriod && !s.trgClash n i &&
      match w.toTrg i s.cref with
      | some d => decide (d ≤ 24)
      | none => false

/-- SAMPLE_TRIGGER_RISE (04 R107): the trigger line goes high with the pulse that the instant calls for,
unless one is high already. -/
def execSampleTriggerRise (n : AxisId) (k : PulseKind) (s : State) : Host.Outcome State Fault Refusal :=
  .next (
    if s.axOn n && s.riseCalled n k && (s.axis n).sns.trigHigh.isNone && !s.commitDue
    then s.modSns n fun q => { q with trigHigh := some (k, s.cref) } else s)

/-- SLIP_END (04 R95): min(d, 64) cp after the zero the counter counts on. -/
def execSlipEnd (n : AxisId) (s : State) : Host.Outcome State Fault Refusal :=
  .next (if (s.axis n).pwm.mode = .slipping && decide ((s.axis n).pwm.goAt ≤ s.cref)
    then s.modPwm n fun w => { w with mode := .counting } else s)

/-- REFRESH_END (04 R113): the guaranteed on-time is over; a low side whose turn-off it delayed goes off,
and the high side follows DTR_eff later while the axis switches. In the output hold of a debug halt it keeps its
state (R119). -/
def State.refreshEnd (s : State) (n : AxisId) (p : Fin 3) : State :=
  let w := (s.axis n).pwm
  let x := w.ph[p]
  let over_ := match x.refreshEnd with | some t => s.dueT t | none => false
  if !x.refresh || !over_ || (w.dbgHalted && decide ((s.axis n).gdr.latches = 0)) then s
  else
    let s := s.modPh n p fun x => { x with refresh := false, refreshEnd := none }
    match x.loFall with
    | some t =>
      if s.dueT t && x.lo && s.forced n ≠ .short then
        let s := s.gateFall n (loGate p)
        let off := if t < s.nowT then s.nowT else t
        if s.switching n && !w.hem then s.modPh n p fun x => { x with hiDue := some (off + w.act.dtr p) } else s
      else s
    | none => s

def execRefreshEnd (n : AxisId) (p : Phase) (s : State) : Host.Outcome State Fault Refusal :=
  .next (s.refreshEnd n p.idx)

/-- CHARGE_FAIL (04 R114, 06 R168): BST_OK is not set on all phases after 64 zeros; the axis stays in HOLD
with REFUSE CHARGE. -/
def State.chargeFail (s : State) (n : AxisId) : State :=
  if !((s.axis n).ch.st = .charging) || (s.axis n).pwm.chargeZeros < 64 || (s.axis n).gdr.bstLive = 7#3 then s
  else
    let s := s.modPwm n fun w => { w with sticky := w.sticky ||| bitAt 29 true }
    let s := (s.modCh n fun c => { c with refuse := 7#8 }).endFittings n .faulted 7#8
    s.sendSafe n .hold

def execChargeFail (n : AxisId) (s : State) : Host.Outcome State Fault Refusal := .next (s.chargeFail n)

/-! Debug halt (04 R119, 16 R458 to R460). -/

/-- Engine debug is open: by the life-cycle state or by a token, while the module is not in SLEEP. -/
def State.engDebug (s : State) : Bool :=
  s.pwr.mode.live &&
  (s.sec.lc = 0#3 || s.sec.lc = 1#3 || s.sec.lc = 2#3 || s.sec.lc = 4#3 ||
   (s.sec.lc = 3#3 && s.sec.tokenOpen && s.sec.scope.getLsbD 1))

/-- OEM_DEV or RETURN, where DBG_FOLLOW and DBG_HOLD act. -/
def State.dbgFree (s : State) : Bool := s.sec.lc = 2#3 || s.sec.lc = 4#3

/-- The generator's part of a debug halt: the counter freezes, and the axis goes to OPEN at once or after
DBG_HOLD. -/
def State.genHalt (s : State) (n : AxisId) : State :=
  let w := (s.axis n).pwm
  if w.dbgHalted || (s.dbgFree && !bit w.now.dbg 8) then s
  else
    let hold := s.dbgFree && bits w.now.dbg 7 0 ≠ 0
    let s := s.modPwm n fun w => { w with dbgHalted := true, dbgHold := hold, dbgAt := s.cref,
                                           mode := if w.mode = .stopped then .stopped else .frozen }
    let s := s.refStopped n
    if hold then s else s.dropToHold n

/-- DEBUG_HALT: the debugger halts an engine of the cluster. -/
def State.debugHalt (s : State) (n : AxisId) (j : EngId) : State :=
  if !s.axOn n || !s.engDebug || (s.eng n j).st = .halted then s
  else
    let s := s.modEng n j fun x => { x with haltedFrom := x.st, haltedAt := s.cref, st := .halted }
    let s := s.modClu n fun c => { c with dbg := setBitW c.dbg j.val true }
    (s.modSec fun t => { t with jtagActive := true }).genHalt n

def execDebugHalt (n : AxisId) (j : EngId) (s : State) : Host.Outcome State Fault Refusal := .next (s.debugHalt n j)

/-- DBG_HOLD in cp: 10 ns a step, codes above 200 as 200 (04 R130). -/
def Pwm.holdCp (w : Pwm) : Nat := 4 * Nat.min 200 (bits w.now.dbg 7 0)

/-- DBG_HOLD_END (04 R119): DBG_HOLD after the freeze the axis goes to OPEN, whatever its configured safe state. -/
def execDbgHoldEnd (n : AxisId) (s : State) : Host.Outcome State Fault Refusal :=
  .next (if (s.axis n).pwm.dbgHalted && (s.axis n).pwm.dbgHold &&
      decide ((s.axis n).pwm.dbgAt + (s.axis n).pwm.holdCp ≤ s.cref)
    then (s.modPwm n fun w => { w with dbgHold := false }).dropToHold n else s)

/-- DEBUG_RESUME (04 R119): the debugger resumes the cluster. Its engines go on, with the time halted left
out of their activations (09 R266), and the counter waits for its target zero. -/
def State.debugResume (s : State) (n : AxisId) : State :=
  let a := s.axis n
  if a.clu.dbg = 0#16 then s
  else
    let s := s.modClu n fun c => { c with
      dbg := 0#16
      eng := c.eng.map fun x => if x.st = .halted
        then { x with st := x.haltedFrom, actAt := x.actAt + (s.cref - x.haltedAt) } else x }
    if !a.pwm.dbgHalted then s
    else
      let s := (s.modPwm n fun w => { w with dbgHold := false, resumed := true }).dropToHold n
      if (s.axis n).pwm.mode = .frozen then s.modPwm n fun w => w.startWait s.cref .restarting
      else s.modPwm n fun w => { w with dbgHalted := false }

end Sys2Proof.Machine
end

