-- ==== Sys2Proof/Machine/Sensing.lean ====
section
/-! DEFINITION. Current, voltage and temperature sensing (03): sample pulses and conversions on the driver
die, the frames of the bank link as the control die takes them, offset calibration, VIN with the brake
chopper and the hard regen reaction, and the temperatures. -/

namespace Sys2Proof.Machine

/-- A bank that can measure: fitted, with its domain on. -/
def State.senses (s : State) (n : AxisId) : Bool := s.axOn n && s.bankOn n.bank

/-! Sample pulses (03 R66, R67, R71). -/

/-- An integral of 24 bits that stops at its ends, and whether it did. -/
def sat24 (v : Int) : BitVec 24 := BitVec.ofInt 24 (if v < -8388608 then -8388608 else if 8388607 < v then 8388607 else v)
def ovf24 (v : Int) : Bool := decide (v < -8388608) || decide (8388607 < v)

/-- The integrators close: the integrals latch and start anew, and the alternating bit turns (03 R71,
R74). -/
def Sns.close (q : Sns) (vs : Tri) : Sns :=
  { q with
    vs := ⟨sat24 vs.a, sat24 vs.b, sat24 vs.c⟩
    vsOvf := ovf24 vs.a || ovf24 vs.b || ovf24 vs.c, alt := !q.alt }

/-- A phase-voltage code of 12 bits that stops at its ends (03 R70). -/
def code12 (v : Int) : BitVec 12 := BitVec.ofInt 12 (if v < 0 then 0 else if 4095 < v then 4095 else v)
def codes12 (v : Tri) : Tri3 12 := ⟨code12 v.a, code12 v.b, code12 v.c⟩

/-! The lanes (03 R72). A frame takes 32 ns, 13 cp. -/

/-- CREF of the hold of the calibration conversion that no pulse begins: 2 µs after the calibration's beginning and 200
ns after the previous converted hold. A trigger line that is high by then makes it wait for that pulse's hold; a boundary mark has none, and keeps
nothing waiting (DESIGN CHOICE, log entry 155). -/
def Sns.calHold (q : Sns) : Option Nat :=
  if q.calRun && q.conv.isNone && decide (q.calCount < 64) then
    let h := match q.holdAt with
      | some h => Nat.max (q.calStart + 800) (h + 80)
      | none => q.calStart + 800
    match q.trigHigh with
    | some (.mark, _) | none => some h
    | some (_, r) => if r ≤ h then none else some h
  else none

/-- A frame that starts at `b` ends before the pending conversion of the axis completes, 180 ns after its hold, be it a
sample pulse's or a calibration conversion, which is pending from its hold on. -/
def Sns.mayStart (q : Sns) (b : Nat) : Bool :=
  match q.conv, q.calHold with
  | some c, _ => decide (b + 13 ≤ c.at_ + 72)
  | none, some h => decide (b < h) || decide (b + 13 ≤ h + 72)
  | none, none => true

/-- The first frame of a list that has not started starts at `b`. -/
def startFirst (b : Nat) : List LaneFrame → List LaneFrame
  | [] => []
  | f :: l => if f.ends.isNone then { f with ends := some (b + 13) } :: l else f :: startFirst b l

/-- The INTEGRAL frame that waits longest, else the STATUS frame that waits, starts where the lanes are free by `t` and
R72 lets it. -/
def Sns.startOne (q : Sns) (t : Nat) : Sns :=
  match q.laneI.find? fun f => f.ends.isNone with
  | some f =>
    let b := Nat.max q.laneEnd f.at_
    if b ≤ t && q.mayStart b then { q with laneI := startFirst b q.laneI, laneEnd := b + 13 } else q
  | none =>
    match q.statusWait with
    | some (r, d) =>
      let b := Nat.max q.laneEnd d
      if b ≤ t && q.mayStart b && q.statusSent.isNone
      then { q with statusSent := some (r, b + 13), statusWait := none, laneEnd := b + 13 } else q
    | none => q

/-- What the lanes have started by `t`. A waiting frame starts as soon as it may. -/
def Sns.lanes (q : Sns) (t : Nat) : Sns := ((q.startOne t).startOne t).startOne t

/-- An INTEGRAL frame of the latest closing waits for the lanes (03 R74). -/
def Sns.sendIntegral (q : Sns) (t : Nat) : Sns :=
  { q with laneI := q.laneI ++ [{ vsOvf := q.vsOvf, boundary := q.alt, vs := q.vs, vph := q.vphIn, at_ := t }] }

/-! Holds and conversions (03 R66, R81). -/

/-- A hold at `t` of a pulse that rose at `r` comes less than 200 ns after the previous converted hold, a calibration
conversion's included (03 R66, R81). -/
def Sns.overrun (q : Sns) (r t : Nat) : Bool :=
  let near (h : Nat) : Bool := decide (h ≤ t) && decide (t < h + 80)
  (match q.holdAt with | some h => near h | none => false) ||
  (match q.calHold with | some h => decide (h < r) && near h | none => false)

/-- SAMPLE_PULSE: the driver die sorts the pulse by its width. Its operands are the integrals and the phase voltages at
its falling edge, which is now. -/
def State.samplePulse (s : State) (n : AxisId) (widthNs : Nat) (vs vph : Tri) : State :=
  if !s.senses n then s
  else
    let boundary := decide (widthNs ≤ 50)
    let sample := decide (25 ≤ widthNs)
    let s := s.modSns n fun q => q.lanes s.cref
    let s := if boundary then s.modSns n fun q => { q.close vs with vphIn := codes12 vph } else s
    let q := (s.axis n).sns
    if sample && !q.overrun (s.cref - widthNs * 2 / 5) s.cref then
      s.modSns n fun q => { q with holdAt := some s.cref, conv := some { at_ := s.cref, boundary := boundary, cal := q.calRun } }
    else
      let s := if sample then s.modSns n fun q => { q with drops := q.drops + 1 } else s
      if boundary then s.modSns n fun q => (q.sendIntegral s.cref).lanes s.cref else s

def execSamplePulse (n : AxisId) (widthNs : Nat) (vs vph : Tri) (s : State) : Host.Outcome State Fault Refusal :=
  .next (s.samplePulse n widthNs vs vph)

/-- A current code of 14 bits that stops at its ends (03 R65). -/
def code14 (v : Int) : BitVec 14 := BitVec.ofInt 14 (if v < -8192 then -8192 else if 8191 < v then 8191 else v)
def sat14 (v : Int) : Bool := decide (v ≤ -8192) || decide (8191 ≤ v)

/-- A calibration conversion counts among the 64 (03 R81). -/
def Sns.calCode (q : Sns) (c : Tri) : Sns :=
  if 64 ≤ q.calCount then q else
  { q with
    calCount := q.calCount + 1
    calSum := ⟨q.calSum.a + (code14 c.a).toInt, q.calSum.b + (code14 c.b).toInt, q.calSum.c + (code14 c.c).toInt⟩ }

/-- The SAMPLE frame of a conversion (03 R73). The integrals of a mid-half frame are those latched as its conversion
ends (DESIGN CHOICE, log entry 156). -/
def Sns.sampleOf (q : Sns) (c : Conv) (codes : Tri) (t : Nat) : LaneFrame :=
  { vsOvf := q.vsOvf, cal := c.cal, boundary := c.boundary
    sat := sat14 codes.a || sat14 codes.b || sat14 codes.c
    vs := q.vs, i := ⟨code14 codes.a, code14 codes.b, code14 codes.c⟩, at_ := c.at_, ends := some (t + 13) }

/-- CONVERSION_COMPLETE, 180 ns after its hold: a sample pulse's conversion starts its SAMPLE frame, and counts among the
64 of a calibration when its hold came past the first 2 µs; a calibration conversion that no pulse began counts. -/
def State.convDone (s : State) (n : AxisId) (codes : Tri) : State :=
  if !s.senses n then s
  else
    let s := s.modSns n fun q => q.lanes s.cref
    let q := (s.axis n).sns
    match q.conv with
    | none =>
      match q.calHold with
      | some h => if h + 72 ≤ s.cref
          then s.modSns n fun q => { q.calCode codes with holdAt := some h, laneEnd := Nat.max q.laneEnd (h + 72) } else s
      | none => s
    | some c =>
      if s.cref < c.at_ + 72 then s
      else
        let b := Nat.max q.laneEnd s.cref
        let s := s.modSns n fun q => { q with conv := none, laneS := q.laneS ++ [q.sampleOf c codes b], laneEnd := b + 13 }
        if c.cal && q.calRun && decide (q.calStart + 800 ≤ c.at_) then s.modSns n fun q => q.calCode codes else s

def execConversionComplete (n : AxisId) (codes : Tri) (s : State) : Host.Outcome State Fault Refusal :=
  .next (s.convDone n codes)

/-! STATUS frames at their due time (02 R57; 03 R75, R76). -/

/-- GDR_LIVE as the driver die has it. -/
def State.gdrLive (s : State) (n : AxisId) (m : StatusMeas) : Word :=
  let d := (s.axis n).gdr
  let st := if d.softRun then 3 else match s.forced n with | .none => 0 | .open => 1 | .short => 2
  fieldAt 13 st ||| fieldAt 6 m.gateHi.toNat ||| fieldAt 3 m.bstEw.toNat ||| d.bstOk.setWidth 32

/-- The mean of the latest 16 VIN samples, to nearest with halves up (03 R76). A sample not yet taken since the bank came
up counts as 0 (DESIGN CHOICE, log entry 131). -/
def Bank.vinMean (k : Bank) : BitVec 12 := BitVec.ofNat 12 ((k.vinWin.foldl (fun a c => a + c.toNat) 0 + 8) / 16)

/-- What a STATUS frame of an axis carries that falls due now. -/
def State.statusOf (s : State) (n : AxisId) (m : StatusMeas) : StatusRec :=
  let q := (s.axis n).sns
  let k := s.bnk n.bank
  { live := s.gdrLive n m, vph := ⟨m.vphA, m.vphB, m.vphC⟩, ofs := q.ofsIn, ofsBad := q.ofsBadIn, drops := q.drops
    calRun := q.calRun, vinRaw := k.vinWin.headD 0#12, vinAvg := k.vinMean, temps := k.tempsIn, vdrv := m.vdrv }

/-- The due time of the 1 µs grid at or before `t`, when a new one has come (03 R75). -/
def Sns.gridAt (q : Sns) (t : Nat) : Option Nat :=
  match q.statusAt with
  | none => some t
  | some d => if d + 400 ≤ t then some (t - (t - d) % 400) else none

/-- STATUS_FRAME_DUE (03 R72, R75): on the 1 µs grid the frame starts where nothing keeps it from it, and else waits,
with the values of its due time in place of those of one that waited. -/
def State.statusDue (s : State) (n : AxisId) (m : StatusMeas) : State :=
  if !s.senses n then s
  else match (s.axis n).sns.gridAt s.cref with
  | none => s
  | some d =>
    let r := s.statusOf n m
    let s := s.modGdr n fun g => { g with
      bstEw := m.bstEw, gates := g.gates.mapFinIdx fun i x _ => { x with high := m.gateHi.getLsbD i } }
    s.modSns n fun q => { q.lanes s.cref with statusAt := some d, statusWait := some (r, d) }.lanes s.cref

def execStatusFrameDue (n : AxisId) (m : StatusMeas) (s : State) : Host.Outcome State Fault Refusal :=
  .next (s.statusDue n m)

/-! The layout of the frames (03 R73, R74). -/

/-- One bit of the CRC-8 of R73, polynomial 0x2F, bits taken from the highest down (DESIGN CHOICE, log entry 131). -/
def crc8Bit (c : BitVec 8) (b : Bool) : BitVec 8 :=
  let x := c.getLsbD 7 != b
  let c := c <<< 1
  if x then c ^^^ 0x2F#8 else c

/-- CRC-8 over bits 119 to 0, initial value 0xFF. -/
def crc8 (w : BitVec 120) : BitVec 8 := (List.range 120).foldl (fun c k => crc8Bit c (w.getLsbD (119 - k))) 0xFF#8

/-- A flag as one bit. -/
def flag (b : Bool) : BitVec 1 := if b then 1#1 else 0#1

/-- Bits 119 to 42, which SAMPLE and INTEGRAL frames share. -/
def LaneFrame.upper (f : LaneFrame) (type : BitVec 2) : BitVec 78 :=
  type ++ flag f.vsOvf ++ flag f.cal ++ flag f.boundary ++ flag f.sat ++ f.vs.c ++ f.vs.b ++ f.vs.a

/-- The 128 bits of a SAMPLE frame. -/
def LaneFrame.sampleBits (f : LaneFrame) : BitVec 128 :=
  let w : BitVec 120 := f.upper 0#2 ++ f.i.c ++ f.i.b ++ f.i.a
  crc8 w ++ w

/-- The 128 bits of an INTEGRAL frame. -/
def LaneFrame.integralBits (f : LaneFrame) : BitVec 128 :=
  let w : BitVec 120 := f.upper 1#2 ++ 0#6 ++ f.vph.c ++ f.vph.b ++ f.vph.a
  crc8 w ++ w

/-- Bits `lo` up of a received frame. -/
def part (w : BitVec 128) (lo k : Nat) : BitVec k := (w >>> lo).setWidth k

/-- A received frame passes its CRC, and its TYPE is the one its place on the lanes has: TYPE 0b11 counts as a failure
(R72), and so does a type that only bit errors can have made (DESIGN CHOICE, log entry 131). -/
def frameOk (w : BitVec 128) (type : BitVec 2) : Bool :=
  crc8 (w.setWidth 120) = part w 120 8 && part w 118 2 = type

/-- The fields that SAMPLE and INTEGRAL frames share, as received. -/
def LaneFrame.take (f : LaneFrame) (w : BitVec 128) : LaneFrame :=
  { f with
    vsOvf := w.getLsbD 117, cal := w.getLsbD 116, boundary := w.getLsbD 115, sat := w.getLsbD 114
    vs := ⟨part w 42 24, part w 66 24, part w 90 24⟩ }

/-- A SAMPLE frame as received. -/
def LaneFrame.takeSample (f : LaneFrame) (w : BitVec 128) : LaneFrame :=
  { f.take w with i := ⟨part w 0 14, part w 14 14, part w 28 14⟩ }

/-- An INTEGRAL frame as received. -/
def LaneFrame.takeIntegral (f : LaneFrame) (w : BitVec 128) : LaneFrame :=
  { f.take w with vph := ⟨part w 0 12, part w 12 12, part w 24 12⟩ }

/-! Frames on the control die (03 R73 to R75, R544; 01 R10). -/

/-- A frame fails its CRC: it counts, and more than 16 of the bank within 1 ms raise BANK_LINK (03 R75, 15
R422). -/
def State.badFrame (s : State) (n : AxisId) : State :=
  let b := n.bank
  let s := s.modSns n fun q => { q with crcCnt := satInc q.crcCnt }
  let fails := ((s.bnk b).crcFails.filter fun t => decide (s.cref < t + ms 1)) ++ [s.cref]
  let s := s.modBank b fun k => { k with crcFails := fails, linkAt := s.cref }
  if 16 < fails.length then s.raiseCond (bankSrc b 6) true else s

/-- The condition of BANK_LINK does not hold: every powered axis of the bank has sent a frame within 4 µs, and
at most 16 frames failed within 1 ms. -/
def State.linkLive (s : State) (b : BankId) : Bool :=
  ((bankAxes b).all fun n => !s.axOn n || decide (s.cref < (s.axis n).sns.frameAt + us 4)) &&
  decide (((s.bnk b).crcFails.filter fun t => decide (s.cref < t + ms 1)).length ≤ 16)

/-- The oldest boundary of the record is matched to a frame that carries integrals (03 R544). -/
def State.matchBoundary (s : State) (n : AxisId) : Option Boundary × State :=
  match (s.axis n).sns.record with
  | [] => (none, s)
  | b :: l => (some b, s.modSns n fun q => { q with record := l })

/-- The half period that a boundary closes, as E2 takes it (06 R173, R174). -/
def Boundary.half (b : Boundary) (vs : Tri3 24) (bad : Bool) : Half :=
  { vs := vs, bad := bad, peak := b.peak, cmp := b.cmp, per := b.per }

/-- The flags word E0.23 of a closing (06 R195). -/
def closingWord (peak : Bool) (pc : Word) (ovf byIntegral : Bool) : Word :=
  fieldAt 16 (pc.toNat % 65536) ||| bitAt 2 byIntegral ||| bitAt 1 ovf ||| bitAt 0 peak

/-- A powered axis of the bank has sent no frame for 4 µs (15 R422). -/
def State.linkSilent (s : State) (b : BankId) : Bool :=
  (bankAxes b).any fun n => s.axOn n && decide ((s.axis n).sns.frameAt + us 4 ≤ s.cref)

/-- A frame arrives without error; with it BANK_LINK's condition can break (15 R541). After a silence the time without
error runs from this frame (15 R422). -/
def State.goodFrame (s : State) (n : AxisId) (ovf : Bool) : State :=
  let s := if s.linkSilent n.bank then s.modBank n.bank fun k => { k with linkAt := s.cref } else s
  let s := s.modSns n fun q => { q with frameAt := s.cref, sticky := q.sticky ||| bitAt 21 ovf }
  if s.flt.met.getLsbD (bankSrc n.bank 6) && s.linkLive n.bank
  then s.modFlt fun f => { f with met := setBitW f.met (bankSrc n.bank 6) false } else s

/-- The hold that a frame belongs to, by its CREF, with older ones dropped. -/
def Sns.takeWin (q : Sns) (t : Nat) : Word × Option (Vector Word 6) × Sns :=
  match q.wins.find? fun e => e.1 = t with
  | some e => (e.2.1, some e.2.2, { q with wins := q.wins.filter fun e => t < e.1 })
  | none => (0#32, none, q)

/-- The frame has ended on the lanes. -/
def LaneFrame.arrived (f : LaneFrame) (t : Nat) : Bool := match f.ends with | some e => decide (e ≤ t) | none => false

/-- SAMPLE_FRAME: a frame that has crossed the lanes, with the bit errors `err`, is checked, matched and queued for E0,
or discarded; a seventeenth frame is a wedge of E0 (03 R73, 09 R264). -/
def State.sampleFrame (s : State) (n : AxisId) (err : BitVec 128) : State :=
  if !s.senses n then s
  else match (s.axis n).sns.laneS with
  | [] => s
  | f :: rest =>
    if !f.arrived s.cref then s else
    let word := f.sampleBits ^^^ err
    let crcOk := frameOk word 0#2
    let f := f.takeSample word
    let w := (s.axis n).sns.takeWin f.at_
    let s := s.modSns n fun q => { (q.takeWin f.at_).2.2 with laneS := rest }
    if s.injected 3 n.val then s.useInj.badFrame n
    else if !crcOk then s.badFrame n
    else
      let s := s.goodFrame n f.vsOvf
      let s := s.modSns n fun q => { q with
        cur := f.i, sampleCnt := q.sampleCnt + 1#16, sticky := q.sticky ||| bitAt 22 f.sat }
      let m := if f.boundary then s.matchBoundary n else (none, s)
      let s := m.2
      let c := (s.axis n).clu
      if c.recovering || s.openStopped n 0 || !s.enginesRun then s
      else if 16 ≤ c.frames.length then
        (s.modEng n 0 fun x => { x with sticky := x.sticky ||| 0x10#7 }).wedged n 0
      else s.modClu n fun c => { c with frames := c.frames ++
        [{ frame := f, win := w.1, fb := w.2.1.getD (s.axis n).fbk.words, closing := m.1 }] }

def execSampleFrame (n : AxisId) (err : BitVec 128) (s : State) : Host.Outcome State Fault Refusal :=
  .next (s.sampleFrame n err)

/-- A 24-bit integral as the int32 that a sensing word holds. -/
def vsWord (v : BitVec 24) : Word := v.signExtend 32

/-- INTEGRAL_FRAME: its integrals and voltages reach the sensing words (03 R74); the volt-seconds wait for
E2 (06 R173, R174). -/
def State.integralFrame (s : State) (n : AxisId) (err : BitVec 128) : State :=
  if !s.senses n then s
  else match ((s.axis n).sns.lanes s.cref).laneI with
  | [] => s
  | f :: rest =>
    if !f.arrived s.cref then s else
    let s := s.modSns n fun q => q.lanes s.cref
    let word := f.integralBits ^^^ err
    let crcOk := frameOk word 1#2
    let f := f.takeIntegral word
    let s := s.modSns n fun q => { q with laneI := rest }
    if !crcOk then s.badFrame n
    else
      let m := (s.goodFrame n f.vsOvf).matchBoundary n
      let s := m.2.modSns n fun q => { q with vph := f.vph }
      if (s.axis n).clu.recovering || s.openStopped n 0 then s
      else
        let s := ((s.setE n 0 20 (vsWord f.vs.a)).setE n 0 21 (vsWord f.vs.b)).setE n 0 22 (vsWord f.vs.c)
        let b := m.1.getD { peak := false, pcount := 0#32, at_ := 0 }
        let s := s.setE n 0 23 (closingWord b.peak b.pcount f.vsOvf true)
        let s := (s.setE n 0 30 (fieldAt 16 f.vph.b.toNat ||| f.vph.a.setWidth 32)).setE n 0 31 (f.vph.c.setWidth 32)
        if (s.axis n).clu.role || !s.enginesRun then s
        else s.modCh n fun c => { c with halves := c.halves ++ [b.half f.vs f.vsOvf] }

def execIntegralFrame (n : AxisId) (err : BitVec 128) (s : State) : Host.Outcome State Fault Refusal :=
  .next (s.integralFrame n err)

/-- BOUNDARY_MISSING (03 R544): 1 µs after its falling edge the oldest boundary leaves the record, and its half period is one whose
integrals did not arrive (06 R174). -/
def State.boundaryMissing (s : State) (n : AxisId) : State :=
  match s.matchBoundary n with
  | (none, s) => s
  | (some b, s') => if s.cref < b.at_ + 400 then s else if !s.enginesRun then s' else s'.modCh n fun c => { c with halves := c.halves ++ [b.half {} true] }

def execBoundaryMissing (n : AxisId) (s : State) : Host.Outcome State Fault Refusal := .next (s.boundaryMissing n)

/-! The regen hard reaction (07 R214). -/

/-- The axes of the regen mask, and with a stale mask also those whose gates switch (07 R213). -/
def State.regenAxes (s : State) : Dword :=
  if s.gov.stale then
    allAxes.foldl (fun m n => if s.axOn n && bits (s.axis n).gdr.live 14 13 = 0 then m ||| axisMask n else m) s.gov.mask
  else s.gov.mask

/-- A start attempt that a hard short brake meets is abandoned and not counted; the next follows after
RETRY_WAIT (07 R210). -/
def Chain.hardBraked (c : Chain) (cref : Nat) : Chain :=
  let c := { c with hardBrake := true, hardRelease := false }
  if c.st = .starting && (c.start = .align || c.start = .ramp) then
    { c with start := .wait, startAt := cref, attempt := c.attempt - 1, failDue := false }
  else c

/-- A powered bank's VIN_AVG is at or above VIN_HARD: an episode begins unless one runs, the mask is
frozen, and its axes go into short brake. -/
def State.regenHard (s : State) (b : BankId) : State :=
  if s.gov.hard || !s.bankOn b || decide ((s.bnk b).vinAvg.toNat < bits s.gov.lvl 27 16) then s
  else
    let s := (s.modGov fun g => { g with hard := true, hardAt := s.cref, hardCnt := satInc g.hardCnt }).raise 1106
    s.forAxes ((axesOf s.regenAxes).filter s.axOn) fun n s =>
      (s.modCh n fun c => c.hardBraked s.cref).forceGates n

/-! STATUS frames (02 R57, 03 R75, R88). -/

/-- The words E0.30 to E0.33, which hardware writes with each frame from the latest STATUS values (03 R75, 06 R160, R195). -/
def State.statusWords (s : State) (n : AxisId) : State :=
  let q := (s.axis n).sns
  let k := s.bnk n.bank
  let s := s.setE n 0 30 (fieldAt 16 q.vph.b.toNat ||| q.vph.a.setWidth 32)
  let s := s.setE n 0 31 (q.vph.c.setWidth 32)
  let s := s.setE n 0 32 (fieldAt 20 q.ofs.c.toNat ||| fieldAt 10 q.ofs.b.toNat ||| q.ofs.a.setWidth 32)
  s.setE n 0 33 (fieldAt 16 k.vinAvg.toNat ||| k.vinRaw.setWidth 32)

/-- STATUS_FRAME: a frame that has crossed the lanes without error updates the registers with the values it carries. A
failed one leaves them as they are. -/
def State.statusFrame (s : State) (n : AxisId) (crcOk : Bool) : State :=
  if !s.senses n then s
  else
    let b := n.bank
    match ((s.axis n).sns.lanes s.cref).statusSent with
    | none => s
    | some (r, e) =>
      if s.cref < e then s
      else
        let s := s.modSns n fun q => { q.lanes s.cref with statusSent := none }
        if !crcOk then s.badFrame n
        else
          let s := s.goodFrame n false
          let s := s.modGdr n fun d => { d with live := r.live }
          let s := s.modSns n fun q => { q with
            vph := r.vph, ofs := r.ofs, ofsBad := r.ofsBad, calShow := r.calRun, dropsSeen := r.drops
            sticky := q.sticky ||| bitAt 23 (q.dropsSeen ≠ r.drops) }
          let s := s.modBank b fun k => { k with
            vinRaw := r.vinRaw, vinAvg := r.vinAvg, temps := r.temps, vdrvLevel := r.vdrv }
          let s := if (s.axis n).clu.recovering || s.openStopped n 0 then s else s.statusWords n
          let s := s.modGov fun g => { g with lvlNow := maskWrite g.lvlNow g.lvl 0x0FFF0000#32 }
          let s := if (s.axis n).pwm.charging && !(s.axis n).sns.calRun && (s.axis n).gdr.bstLive = 7#3
            then s.modPwm n fun w => { w with leaveHold := true } else s
          (s.regenHard b).fanEval

def execStatusFrame (n : AxisId) (crcOk : Bool) (s : State) : Host.Outcome State Fault Refusal :=
  .next (s.statusFrame n crcOk)

/-- BANK_LINK (15 R422): no frame for 4 µs from a powered axis; more than 16 failed in 1 ms raise it as they come
(`State.badFrame`). -/
def execBankLink (b : BankId) (s : State) : Host.Outcome State Fault Refusal :=
  .next (if s.bankOn b && s.linkSilent b
    then (s.modBank b fun k => { k with linkAt := s.cref }).raiseCond (bankSrc b 6) true else s)

/-! Offset calibration (03 R80, R81). -/

/-- The conditions of a calibration: HOLD, or SAFE, which is otherwise as HOLD (06 R165), OPEN, trims written, and the bank's CKL locked. -/
def State.calOk (s : State) (n : AxisId) : Bool :=
  s.senses n && s.atRest n && bits (s.axis n).gdr.live 14 13 = 1 &&
  (s.bnk n.bank).trimOk && s.clk.ckl.getLsbD n.bank.val

/-- A calibration begins. -/
def State.calBegin (s : State) (n : AxisId) : State :=
  s.modSns n fun q => { q with calRun := true, calReq := false, calStart := s.cref, calCount := 0, calSum := {} }

/-- The present cp is the instant 100 µs after entry into HOLD, or a tick of the series of 100 ms from it (03 R80). -/
def State.calTickNow (s : State) (n : AxisId) : Bool :=
  match (s.axis n).ch.holdAt with
  | some h => decide (h + us 100 ≤ s.cref) && decide ((s.cref - (h + us 100)) % ms 100 = 0)
  | none => false

/-- CALIBRATION_TICK: at the first instant and at each tick a calibration begins where the conditions hold; a tick is
taken once. -/
def State.calTick (s : State) (n : AxisId) : State :=
  if !s.calTickNow n || (s.axis n).sns.calTickAt = some s.cref then s
  else
    let s := s.modSns n fun q => { q with calTickAt := some s.cref }
    if bit (s.axis n).sns.cfgIn 3 && s.calOk n && !(s.axis n).sns.calRun then s.calBegin n else s

def execCalibrationTick (n : AxisId) (s : State) : Host.Outcome State Fault Refusal := .next (s.calTick n)

/-- CAL_REQ: refused where the conditions do not hold, held while a calibration runs. -/
def State.calRequest (s : State) (n : AxisId) : State :=
  if (s.axis n).sns.calRun then s.modSns n fun q => { q with calReq := true, calReqAt := s.cref }
  else if s.calOk n then s.calBegin n
  else s.modSns n fun q => { q with calReq := false }

def execCalReq (n : AxisId) (s : State) : Host.Outcome State Fault Refusal := .next (s.calRequest n)

/-- A sum of 64 codes divided by 64, to nearest with halves away from zero (03 R81). -/
def calMean (v : Int) : Int := if 0 ≤ v then (v + 32) / 64 else -((-v + 32) / 64)

/-- The offset of one phase and its OFS_BAD after a calibration. -/
def calPhase (old : BitVec 10) (sum : Int) : BitVec 10 × Bool :=
  let m := calMean sum
  if -256 ≤ m && m ≤ 256 then (BitVec.ofInt 10 m, false) else (old, true)

/-- The axis has been in HOLD since `t`, and so has not been commanded out of it meanwhile (03 R80). -/
def State.heldSince (s : State) (n : AxisId) (t : Nat) : Bool :=
  match (s.axis n).ch.holdAt with
  | some h => decide (h ≤ t)
  | none => true

/-- CALIBRATION_COMPLETE, 14.8 µs after the beginning at the earliest: after its 64th conversion each phase takes its mean or its OFS_BAD, and a held request is served by one
further calibration or refused. -/
def State.calDone (s : State) (n : AxisId) : State :=
  if !(s.axis n).sns.calRun || (s.axis n).sns.calCount < 64 || decide (s.cref < (s.axis n).sns.calStart + 5920) then s
  else
    let s := s.modSns n fun q =>
      let a := calPhase q.ofsIn.a q.calSum.a
      let b := calPhase q.ofsIn.b q.calSum.b
      let c := calPhase q.ofsIn.c q.calSum.c
      { q with
        calRun := false, calAt := some s.cref, ofsIn := ⟨a.1, b.1, c.1⟩
        ofsBadIn := setBitW (setBitW (setBitW 0#3 0 a.2) 1 b.2) 2 c.2 }
    let s := s.modCh n fun c => { c with calDone := true }
    if !(s.axis n).sns.calReq then s
    else if s.calOk n && s.heldSince n (s.axis n).sns.calReqAt then s.calBegin n
    else s.modSns n fun q => { q with calReq := false }

def execCalibrationComplete (n : AxisId) (s : State) : Host.Outcome State Fault Refusal := .next (s.calDone n)

/-! VIN and the brake chopper (02 R50, R51; 03 R76; 07 R211). -/

/-- BRK_MODE as the driver die has it. -/
def Bank.brkMode (k : Bank) : Nat := bits k.brkIn 1 0

/-- CHOP_ON lies above CHOP_OFF on the driver die; else the chopper never turns on in GOVERNOR (07 R211). -/
def Bank.chopLevels (k : Bank) : Bool := decide (bits k.brkLvlIn 27 16 < bits k.brkLvlIn 11 0)

/-- BRKGb in GOVERNOR follows what is asked of it, within its guards. -/
def State.chopper (s : State) (b : BankId) : State :=
  let k := s.bnk b
  let on := k.brkAsk && k.chopLevels && !k.minoff && s.brkAllowed b
  if k.brkMode = 1 then s.modBank b fun k => { k with brkOn := on, brkOnAt := if on && !k.brkOn then s.cref else k.brkOnAt }
  else s

/-- What a VIN sample asks of the chopper in GOVERNOR: on from CHOP_ON, off down to CHOP_OFF, and in between as before
(07 R211). -/
def Bank.ask (k : Bank) (code : BitVec 12) : Bool :=
  if k.brkMode ≠ 1 || !k.chopLevels then false
  else if bits k.brkLvlIn 11 0 ≤ code.toNat then true
  else if code.toNat ≤ bits k.brkLvlIn 27 16 then false else k.brkAsk

/-- VIN_SAMPLE: the raw value and the mean of 16 on the driver die, and in GOVERNOR mode the chopper. -/
def State.vinSample (s : State) (b : BankId) (code : BitVec 12) : State :=
  if !s.bankOn b then s
  else (s.modBank b fun k => { k with vinWin := (code :: k.vinWin).take 16, brkAsk := k.ask code }).chopper b

def execVinSample (b : BankId) (code : BitVec 12) (s : State) : Host.Outcome State Fault Refusal :=
  .next (s.vinSample b code)

/-- MAXON, MINOFF and TEST_PW in cp, code 0 as 1 (02 R61). -/
def Bank.maxonCp (k : Bank) : Nat := us 10 * Nat.max 1 (bits k.brkIn 15 8)
def Bank.minoffCp (k : Bank) : Nat := us 10 * Nat.max 1 (bits k.brkIn 23 16)
def Bank.testCp (k : Bank) : Nat := 40 * Nat.max 1 (bits k.brkIn 31 24)

/-- MAXON_CUTOFF (02 R50): the longest on-time is reached; MINOFF begins and the cut-off counts. A test pulse that it
cuts is over. -/
def execMaxonCutoff (b : BankId) (s : State) : Host.Outcome State Fault Refusal :=
  .next (if (s.bnk b).brkOn && decide ((s.bnk b).brkOnAt + (s.bnk b).maxonCp ≤ s.cref)
    then s.modBank b fun k =>
      let k := if k.testRun then k.testEnd else k
      { k with brkOn := false, minoff := true, minoffAt := s.cref, maxonCnt := satInc k.maxonCnt }
    else s)

/-- MINOFF_END (02 R50): the chopper may go on again, and does where it is asked for. -/
def execMinoffEnd (b : BankId) (s : State) : Host.Outcome State Fault Refusal :=
  .next (if (s.bnk b).minoff && decide ((s.bnk b).minoffAt + (s.bnk b).minoffCp ≤ s.cref)
    then (s.modBank b fun k => { k with minoff := false }).chopper b else s)

/-- BRK_TEST_PULSE (02 R51): one pulse in mode TEST_PULSE, while every axis of the bank is in HOLD. Where the write was
accepted and BRKGb is then held off (R49), its MINOFF runs or an axis has left HOLD, BRK_MODE stays TEST_PULSE and the
pulse is issued once none of these holds (DESIGN CHOICE, log entry 154). -/
def execBrkTestPulse (b : BankId) (s : State) : Host.Outcome State Fault Refusal :=
  .next (
    let k := s.bnk b
    if k.brkMode = 2 && !k.testRun && !k.minoff && s.brkAllowed b && (bankAxes b).all s.inHold
    then s.modBank b fun k => { k with testRun := true, brkOn := true, brkOnAt := s.cref } else s)

/-- TEST_PULSE_END (02 R51): after TEST_PW the gate goes off and BRK_MODE reads back OFF. -/
def execTestPulseEnd (b : BankId) (s : State) : Host.Outcome State Fault Refusal :=
  .next (if (s.bnk b).testRun && decide ((s.bnk b).brkOnAt + (s.bnk b).testCp ≤ s.cref)
    then s.modBank b Bank.testEnd else s)

/-! Temperatures (03 R77, R78; 14 R414, R415). -/

/-- A source with hysteresis: raised from `hi` up, its cause gone below `lo`. -/
def State.hyst (s : State) (src : Nat) (t hi lo : Int) : State :=
  if hi ≤ t then s.raiseCond src true else if t < lo then s.raiseCond src false else s

/-- A BANK_OVERTEMP of bank b has been raised and its reaction is not cleared (14 R414). -/
def State.hotHeld (s : State) (b : BankId) : Bool :=
  s.flt.raised.contains (bankSrc b 2) || s.flt.reacted.any fun e => e.2 = bankSrc b 2

/-- TEMP_SAMPLE of a driver die or of the control die, acted on against the levels of R414. From 125 °C a bank's line is
held withdrawn, until the die is below 115 °C and the reaction is cleared. -/
def State.tempSample (s : State) (d : Die) (t0 t1 t2 t3 : BitVec 16) : State :=
  match d with
  | .driver b =>
    if !s.bankOn b then s
    else
      let t := hottest [t0, t1, t2, t3]
      let s := s.modBank b fun k => { k with tempsIn := #v[t0, t1, t2, t3], hot := decide (2000 ≤ t) || (k.hot && (decide (1840 ≤ t) || s.hotHeld b)) }
      let s := s.hyst (bankSrc b 3) t 1840 1760
      (s.hyst (bankSrc b 2) t 2000 1840).evalGate b
  | .control =>
    let t := hottest [t0, t1]
    let s := s.modPwr fun p => { p with ctrlT0 := t0, ctrlT1 := t1 }
    (s.hyst 1107 t 1840 1760).hyst 1108 t 2000 1840

/-- PWR_NTC_CFG is written: an input that is disabled reads 0 and is not flagged (03 R78, R92). -/
def State.ntcEnable (s : State) (v : Word) : State :=
  let s := { s with ntcCfg := v &&& 0x0000FFFF#32 }
  (List.finRange 16).foldl (fun s i =>
    if bit v i.val then s else ({ s with ntc := s.ntc.set i 0#32 }).raiseCond (1120 + i.val) false) s

/-- The natural logarithm of a positive number between 1/2 and 2, by the series of the area tangent to within 10^-20. -/
def lnNear (x : Rat) : Rat :=
  let z := (x - 1) / (x + 1)
  (List.range 24).foldl (fun a i => a + 2 * z ^ (2 * i + 1) / (2 * i + 1 : Nat)) 0

/-- The natural logarithm of a positive number. -/
def lnRat (x : Rat) : Rat :=
  let k : Int := (Nat.log2 x.num.natAbs : Int) - (Nat.log2 x.den : Int)
  k * lnNear 2 + lnNear (if 0 ≤ k then x / (2 ^ k.toNat : Nat) else x * (2 ^ (-k).toNat : Nat))

/-- R415's temperature in 1/16 °C for an NTC code: the next step below or above the number that the β model gives, whose
rounding the spec does not state, and a free value where the model gives none (DESIGN CHOICE, log entry 25). -/
def ntcTemp (r25 beta : Rat) (code ctr : Nat) : BitVec 16 :=
  let inv := 1 / (29815 / 100 : Rat) + lnRat (10000 * code / (4096 - code : Nat) / r25) / beta
  if r25 ≤ 0 || beta ≤ 0 || inv = 0 || code = 0 || 4096 ≤ code then (Config.freeWord ctr).setWidth 16
  else BitVec.ofInt 16 ((16 * (1 / inv - 27315 / 100)).floor + if Config.freeBool ctr then 1 else 0)

/-- NTC_CONVERSION: the code with OPEN and SHORT, the temperature by R415's model, and NTC_FAULT at each
onset. A disabled input reads 0 and is never flagged. -/
def State.ntcConv (s : State) (i : Fin 16) (code : BitVec 12) : State :=
  if !bit s.ntcCfg i.val then
    ({ s with ntc := s.ntc.set i 0#32 }).raiseCond (1120 + i.val) false
  else
    let opn := decide (4080 ≤ code.toNat)
    let sh := decide (code.toNat ≤ 16)
    let s := { s with ntc := s.ntc.set i (bitAt 31 opn ||| bitAt 30 sh ||| code.setWidth 32) }
    let v : Word := if opn || sh then s.pwr.ntcT[i] ||| bitAt 31 true
      else (ntcTemp (Config.ntcR25 i.val) (Config.ntcBeta i.val) code.toNat s.freeCtr).setWidth 32
    let s := s.bump.modPwr fun p => { p with ntcT := p.ntcT.set i v }
    s.raiseCond (1120 + i.val) (opn || sh)

def execNtcConversion (i : Fin 16) (code : BitVec 12) (s : State) : Host.Outcome State Fault Refusal :=
  .next (s.ntcConv i code)

end Sys2Proof.Machine
end

