-- ==== Sys2Proof/Machine/Patterns.lean ====
section
/-! DEFINITION. Patterns: their format, the store with its two slots, and their loading into the chain
(08 R226, R227, R230, R231, R234, R235). -/

namespace Sys2Proof.Machine

/-- The code of a KIND. -/
def fitCode : FitKind → Nat
  | .motorId => 0 | .inertia => 1 | .ripple => 2 | .resonance => 3
/-- The KIND of a byte. -/
def kindOf? (v : BitVec 8) : Option FitKind :=
  if v = 0 then some .motorId else if v = 1 then some .inertia else if v = 2 then some .ripple
  else if v = 3 then some .resonance else none
/-- PAYLOAD_LEN of a KIND. -/
def fitLen : FitKind → Nat
  | .motorId => 20 | .inertia => 12 | .ripple => 4224 | .resonance => 3124

/-- The payload of a Pattern. -/
def Pattern.payload (p : Pattern) : List Byte := p.bytes.drop 64
/-- PFLAGS. -/
def Pattern.flags (p : Pattern) : Byte := byteAt p.bytes 7
def Pattern.partial_ (p : Pattern) : Bool := p.flags.getLsbD 0
def Pattern.generation (p : Pattern) : Word := wordAt p.bytes 8
def Pattern.setId (p : Pattern) : Word := wordAt p.bytes 24
def Pattern.cpr (p : Pattern) : Word := wordAt p.bytes 36

/-- The CRC of a Pattern: over bytes 0 to 59 and the payload. -/
def Pattern.crc (p : Pattern) : Word := crc32c (p.bytes.take 60 ++ p.payload)
/-- The CRC matches. -/
def Pattern.crcOk (p : Pattern) : Bool := wordAt p.bytes 60 = p.crc
/-- FORMAT is 1. -/
def Pattern.formatOk (p : Pattern) : Bool := byteAt p.bytes 4 = 1 && byteAt p.bytes 5 = 0

/-- A Pattern with its CRC formed afresh. -/
def Pattern.seal (p : Pattern) : Pattern := { bytes := p.bytes.take 60 ++ wordBytes p.crc ++ p.payload }

/-- A Pattern with some header bytes replaced and its CRC formed afresh. -/
def Pattern.put (p : Pattern) (at_ : Nat) (bs : List Byte) : Pattern :=
  Pattern.seal { bytes := p.bytes.take at_ ++ bs ++ p.bytes.drop (at_ + bs.length) }

/-- The pending Pattern of an axis and kind. -/
def findPat (l : List PatKey) (n : AxisId) (k : FitKind) : Option Pattern :=
  (l.find? fun e => e.axis = n && e.kind = k).map (·.pat)
/-- A list with the Pattern of an axis and kind replaced or removed. -/
def putPat (l : List PatKey) (n : AxisId) (k : FitKind) (p : Option Pattern) : List PatKey :=
  let l := l.filter fun e => !(e.axis = n && e.kind = k)
  match p with | some p => l ++ [{ axis := n, kind := k, pat := p }] | none => l

/-! The store (R230). -/

/-- The slots of an axis and kind. -/
def slotsOf (l : List PatSlots) (n : AxisId) (k : FitKind) : PatSlots :=
  (l.find? fun e => e.axis = n && e.kind = k).getD { axis := n, kind := k }

/-- The current Pattern of a pair of slots. -/
def PatSlots.current (x : PatSlots) : Option Pattern := x.cur.bind fun i => x.slot[i]

/-- The current Pattern of an axis and kind. -/
def State.current (s : State) (n : AxisId) (k : FitKind) : Option Pattern := (slotsOf s.img.store n k).current

/-- A commit writes the slot that does not hold the current Pattern; `good` says that what it reads back has its
CRC. Only then is that slot marked current; else it holds no whole Pattern. -/
def PatSlots.commit (x : PatSlots) (p : Pattern) (good : Bool) : PatSlots :=
  let i : Fin 2 := match x.cur with | some 0 => 1 | some 1 => 0 | none => 0
  if good then { x with slot := x.slot.set i (some p), cur := some i } else { x with slot := x.slot.set i none }

/-- The store with a commit made in it. -/
def putSlots (l : List PatSlots) (x : PatSlots) : List PatSlots :=
  l.filter (fun e => !(e.axis = x.axis && e.kind = x.kind)) ++ [x]

/-! Loading (R231). -/

/-- Writes a parameter that a Pattern gives: one marked H waits until the axis is in HOLD. -/
def State.loadParam (s : State) (n : AxisId) (j k : Nat) (v : Word) : State :=
  let h := match paramSpec j k with | some p => p.hold | none => false
  let a := sigAddr n j k
  if h && !s.inHold n then s.modImg fun i => { i with waitH := (i.waitH.filter fun e => e.1 ≠ a) ++ [(a, v)] }
  else s.sigWrite a v

/-- The words E11.64 to E11.76 in order. -/
def notchWords : List Nat := (List.range 13).map (64 + ·)

/-- Bit b of the coverage bitmap of a ripple payload: bit b is bin b. -/
def covered (d : List Byte) (b : Nat) : Bool := (byteAt d (b / 8)).getLsbD (b % 8)

/-- The bins of a ripple payload with 0 in those that it does not cover, for P₀ (R234). -/
def coveredBins (d : List Byte) : List Word :=
  (List.range 1024).map fun b => if covered d b then wordAt d (128 + 4 * b) else 0#32

/-- P₀ is the Pattern in `p`, and no bin has reached its bound since. -/
def State.setP0 (s : State) (n : AxisId) (p : Pattern) : State :=
  (s.modClu n fun c => { c with p0 := Mem.wrList [] 0 (coveredBins p.payload) }).setOut n 7 1 (s.own n 7 1 &&& 0xFFFFFFFB#32)

/-- A load is skipped: the skip is logged, and E7.1 says why where the Pattern is a ripple Pattern (R231, R235). -/
def State.skipLoad (s : State) (n : AxisId) (k : FitKind) (format cpr : Bool) : State :=
  let s := s.modImg fun i => { i with skips := i.skips ++ [(n, k)] }
  if k = .ripple then s.setOut n 7 1 ((s.own n 7 1 &&& 0xFFFFFFE7#32) ||| bitAt 4 format ||| bitAt 3 cpr) else s

/-- A ripple Pattern is written into CTM. -/
def State.loadRipple (s : State) (n : AxisId) (p : Pattern) : State :=
  let bins := (wordsOf (p.payload.drop 128)).take 1024
  let s := s.modClu n fun c => { c with ctm := (c.ctm.clear 0 1024).wrList 0 bins, ripHdr := p.bytes.take 192 }
  (s.setP0 n p).setOut n 7 1 (fieldAt 16 (p.generation.toNat % 65536) ||| bitAt 0 true)

/-- A current Pattern is loaded into the parameters or into CTM, or skipped (08 R231). -/
def State.loadPattern (s : State) (n : AxisId) (k : FitKind) (p : Pattern) : State :=
  let d := p.payload
  if !s.axOn n || (s.axis n).clu.role || (s.axis n).clu.recovering then s
  else if (s.axis n).ch.reduced && k ≠ .motorId then s
  else if !p.crcOk || !p.formatOk then s.skipLoad n k true false
  else match k with
  | .motorId => [64, 65, 66, 67].foldl (fun s w => s.loadParam n 3 w (wordAt d (4 * (w - 64)))) s
  | .inertia => s.loadParam n 8 66 (wordAt d 0)
  | .ripple => if p.cpr.toNat ≠ (s.axis n).fbk.cprVal then s.skipLoad n k false true else s.loadRipple n p
  | .resonance => notchWords.foldl (fun s w => s.loadParam n 11 w (wordAt d (3072 + 4 * (w - 64)))) s

/-- Every current Pattern of an axis is loaded. -/
def State.loadPatterns (s : State) (n : AxisId) (which : FitKind → Bool := fun _ => true) : State :=
  (s.img.store.filter fun e => e.axis = n && which e.kind).foldl
    (fun s e => match e.current with | some p => s.loadPattern n e.kind p | none => s) s

end Sys2Proof.Machine
end

