-- ==== Sys2Proof/Machine/Sweeps.lean ====
section
/-! DEFINITION. The sweeps of the Fittings: their excitation, what they measure, and the results they form from
it (08 R221, R223 to R225). Where R223 gives no settling or averaging time, direction or rounding, the model's own are
in log entry 133. -/

namespace Sys2Proof.Machine

open F32 (fadd fsub fmul fdiv fsqrt ofInt lit lt le isZero isFinite negate rne smant ex)

/-! Means. -/

/-- A term is added; one that is not finite is left out. -/
def Mean.add (m : Mean) (v : Word) : Mean :=
  if isFinite v then { sum := m.sum + F32.at_ v (-149), cnt := m.cnt + 1 } else m
/-- The mean as binary32; of no terms it is not a number. -/
def Mean.val (m : Mean) : Word := if m.cnt = 0 then F32.nan else (F32.ofQ m.sum m.cnt (-149)).1
/-- A term is added to mean i of a sweep. -/
def Sweep.note (x : Sweep) (i : Fin 8) (v : Word) : Sweep := { x with mean := x.mean.set i (x.mean[i].add v) }

/-- The next step of a sweep begins. -/
def Sweep.next (x : Sweep) (cref : Nat) : Sweep := { x with step := x.step + 1, at_ := cref, cnt := 0 }

def State.modSweep (s : State) (n : AxisId) (f : Sweep → Sweep) : State :=
  s.modCh n fun c => { c with sweep := c.sweep.map f }

/-- The sweep that excites an axis in RUN. -/
def State.sweepOn (s : State) (n : AxisId) : Option Sweep :=
  let c := (s.axis n).ch
  if c.st = .run then c.sweep.bind fun x => if x.over_ then none else some x else none

/-! Logarithmic frequencies, with 32 fractional bits. -/

/-- The fractional bits of log2 of m / 2^32, 1 ≤ m / 2^32 < 2, from its highest bit on. -/
def log2Bits : Nat → Nat → Nat
  | 0, _ => 0
  | k + 1, m => let q := m * m / 2 ^ 32; if 2 ^ 33 ≤ q then 2 ^ k + log2Bits k (q / 2) else log2Bits k q
/-- log2 of v / 2^32, for v at least 2^32. -/
def log2Fix (v : Nat) : Nat := let i := Nat.log2 (v / 2 ^ 32); i * 2 ^ 32 + log2Bits 32 (v / 2 ^ i)

/-- The product of 2^(2^−i) over the set bits of a fraction; `r` is the root for the present bit. -/
def exp2Bits : Nat → Nat → Nat → Nat
  | 0, _, _ => 2 ^ 62
  | k + 1, r, f =>
    let r := F32.isqrt (r * 2 ^ 62)
    let t := exp2Bits k r (f % 2 ^ k)
    if 2 ^ k ≤ f then t * r / 2 ^ 62 else t
/-- 2^(y / 2^32), with 32 fractional bits. -/
def exp2Fix (y : Nat) : Nat := 2 ^ (y / 2 ^ 32) * exp2Bits 32 (2 ^ 63) (y % 2 ^ 32) / 2 ^ 30

/-- A positive binary32 value with 32 fractional bits. -/
def fix32 (w : Word) : Nat := (rne (smant w) (ex w + 32)).toNat
/-- f_top^(a / b) in Hz, with 32 fractional bits: the frequency at the fraction a / b of a sweep from 1 Hz to f_top. -/
def sweepFreq (fTop : Word) (a b : Nat) : Nat := exp2Fix (log2Fix (Nat.max (2 ^ 32) (fix32 fTop)) * a / Nat.max 1 b)

/-- The number of correlation frequencies. -/
def corrCount : Nat := 256
/-- Frequency k of the correlation (08 R223). -/
def Sweep.freq (x : Sweep) (k : Nat) : Nat := sweepFreq x.fTop k (corrCount - 1)

/-- LEN of RESONANCE in cp. -/
def Sweep.lenCp (x : Sweep) : Nat := ms x.op.len.toNat

/-- The chirp's phase at `el` cp, as a fraction of 2^32 turns: (T / ln f_top) × (f − 1). -/
def Sweep.chirp (x : Sweep) (el : Nat) : Nat :=
  let f := sweepFreq x.fTop el x.lenCp
  let lg := log2Fix (Nat.max (2 ^ 32) (fix32 x.fTop))
  if lg = 0 then el * 2 ^ 32 / 400000000
  else (f - 2 ^ 32) * x.lenCp * 6196328019 / (lg * 400000000)

/-! Excitation. -/

/-- The sign of a square wave's half h. -/
def squareSign (h : Nat) : Word := if h % 2 = 0 then fOne else negate fOne

/-- The square wave that MOTOR_ID puts on a voltage: ±0.1 × V_dc, four current steps a half wave (08 R223). -/
def Sweep.squareV (x : Sweep) (vdc : Word) : Word := fmul (squareSign (x.cnt / 4)) (fmul (lit 1 10) vdc)

/-- What a sweep adds to i_q at CREF `cref`: the square wave of INERTIA or the chirp of RESONANCE (08 R223). -/
def Sweep.addIq (x : Sweep) (cref : Nat) : Word :=
  let el := cref - x.at_
  match x.kind with
  | .inertia => if x.step = 2 then fmul (squareSign (el / ms 100)) x.op.iTest else 0#32
  | .resonance => fmul x.op.iTest (F32.ofQ (F32.sinRef (x.chirp el)) 1 (-62)).1
  | .motorId | .ripple => 0#32

/-- The requests of MOTOR_ID (08 R223): half and whole I_TEST on d, and I_TEST on q from the ramp on. -/
def Sweep.motorRefs (x : Sweep) : Word × Word :=
  match x.step with
  | 0 => (fmul fHalf x.op.iTest, 0#32)
  | 1 => (x.op.iTest, 0#32)
  | 2 | 3 => (0#32, 0#32)
  | _ => (0#32, x.op.iTest)

/-- The electrical speed that MOTOR_ID's ramp ends at. -/
def State.sweepEl (s : State) (n : AxisId) (x : Sweep) : Word := fmul x.op.fitSpd (ofInt (s.param n 3 68).toNat)

/-- The forced angle of MOTOR_ID at a current step: it stands, then follows the ramp of R202 up to FIT_SPD × PP. -/
def State.sweepAngle (s : State) (n : AxisId) (x : Sweep) (t : Word) : Sweep :=
  if x.step < 4 then x
  else
    let w := if x.step = 4 then F32.min (s.sweepEl n x) (fadd x.omega (fmul (wordAt (s.startRecord n) 20) t)) else x.omega
    { x with omega := w, theta := x.theta + BitVec.ofInt 32 (rne (smant (fdiv (fmul w t) twoPi)) (ex (fdiv (fmul w t) twoPi) + 32)) }

/-! Measurement. -/

/-- MOTOR_ID at a current step (08 R223). A half wave of its square wave is measured with the voltage of that half wave,
which the step that ends it has already followed by the next. `hold` is the CREF of its hold, `t` its interval, `vd` and `vq` the voltages
that E2's volt-seconds give. -/
def State.motorStep (s : State) (n : AxisId) (x : Sweep) (hold : Nat) (vd vq : Word) : Sweep :=
  let id := s.e n 1 0
  let iq := s.e n 1 1
  let el := hold - x.at_
  match x.step with
  | 0 | 1 =>
    let i : Fin 8 := if x.step = 0 then 0 else 2
    let x := if ms 100 ≤ el then (x.note i vd).note (i + 1) id else x
    if ms 200 ≤ el then x.next hold else x
  | 2 | 3 =>
    let i := if x.step = 2 then id else iq
    let v := { x with cnt := x.cnt - 1 }.squareV (s.e n 2 4)
    let k : Fin 8 := if x.step = 2 then 4 else 5
    if x.cnt % 4 ≠ 0 then { x with cnt := x.cnt + 1 }
    else
      let x := if x.cnt = 0 then x
        else x.note k (fdiv (fmul v (F32.ofQ (hold - x.markAt : Nat) 400000000 0).1) (fsub i x.mark))
      if ms 100 ≤ el then x.next hold else { x with cnt := x.cnt + 1, mark := i, markAt := hold }
  | 4 => if le (s.sweepEl n x) x.omega then x.next hold else x
  | _ =>
    let x := (x.note 6 vq).note 7 iq
    if ms 100 ≤ el then { x with over_ := true } else x

/-- The bin of L, not wrapped: floor(1,024 × L / CPR). -/
def ripIndex (l : Int) (cpr : Nat) : Int := l * 1024 / (cpr : Int)

/-- A bin changes, or is entered for the first time. -/
def modBin (b : Nat) (f : RipBin → RipBin) (l : List (Nat × RipBin)) : List (Nat × RipBin) :=
  if l.any fun e => e.1 = b then l.map fun e => if e.1 = b then (b, f e.2) else e else l ++ [(b, f {})]

/-- The bins that a step from `u` to `v` passes, at most one revolution of them. -/
def passedBins (u v : Int) : List Nat :=
  (List.range (Nat.min 1024 (v - u).natAbs)).map fun (i : Nat) =>
    ((if u < v then u + 1 + (i : Int) else u - 1 - (i : Int)) % 1024).toNat

/-- A current step of RIPPLE in its bin (08 R224). -/
def Sweep.ripBin (x : Sweep) (l : Int) (cpr : Nat) (iq : Word) : Sweep :=
  let u := ripIndex l cpr
  let b := (u % 1024).toNat
  let v := if isFinite iq then F32.at_ iq (-149) else 0
  let bins := modBin b (fun r => if x.back then { r with bwd := r.bwd + v, nBwd := r.nBwd + 1 }
    else { r with fwd := r.fwd + v, nFwd := r.nFwd + 1 }) x.bins
  let bins := (passedBins (x.lastBin.getD u) u).foldl (fun l b => modBin b (fun r =>
    if x.back then { r with passB := r.passB + 1 } else { r with passF := r.passF + 1 }) l) bins
  { x with bins := bins, lastBin := some u }

/-- TRAVEL_MAX in whole counts: the first count that reaches it; 0 is unlimited. -/
def Sweep.travel (x : Sweep) : Int := (F32.at_ x.op.travelMax (-149) + 2 ^ 149 - 1) / 2 ^ 149

/-- Every bin within TRAVEL_MAX of the start has been passed LEN times in each direction (08 R224). -/
def Sweep.passedAll (x : Sweep) (cpr : Nat) : Bool :=
  let lo := ripIndex (x.startL - x.travel) cpr
  let hi := ripIndex (x.startL + x.travel) cpr
  (List.range (Nat.min 1024 (hi - lo + 1).toNat)).all fun (i : Nat) =>
    x.bins.any fun e => decide (e.1 = ((lo + (i : Int)) % 1024).toNat) && decide (x.op.len.toNat ≤ e.2.passF) && decide (x.op.len.toNat ≤ e.2.passB)

/-- RIPPLE turns round, in the bin of L: it passes that bin again in the new direction (08 R224). -/
def Sweep.turn (x : Sweep) (l : Int) (cpr : Nat) : Sweep :=
  { x with back := !x.back, legL := l, bins := modBin (ripIndex l cpr % 1024).toNat (fun r =>
      if x.back then { r with passF := r.passF + 1 } else { r with passB := r.passB + 1 }) x.bins }

/-- The reversals of RIPPLE (08 R224): after LEN revolutions, or at TRAVEL_MAX. -/
def Sweep.ripTurn (x : Sweep) (l : Int) (cpr : Nat) : Sweep :=
  if x.travel = 0 then
    if x.op.len.toNat * cpr ≤ (l - x.legL).natAbs then
      if x.back then { x with over_ := true } else x.turn l cpr
    else x
  else if x.passedAll cpr then { x with over_ := true }
  else if !x.back && decide (x.travel ≤ l - x.startL) then x.turn l cpr
  else if x.back && decide (x.travel ≤ x.startL - l) then x.turn l cpr
  else x

/-- A sweep at a current step, after E4, with the step's interval. RIPPLE's direction goes into E8.0. -/
def State.sweepCur (s : State) (n : AxisId) (t : Word) : State :=
  match s.sweepOn n with
  | none => s
  | some x =>
    let hold := (s.axis n).ch.thisHold
    match x.kind with
    | .motorId =>
      let co := (F32.ofQ (F32.cosRef x.theta.toNat) 1 (-62)).1
      let si := (F32.ofQ (F32.sinRef x.theta.toNat) 1 (-62)).1
      let vd := fdiv (fadd (fmul (s.e n 2 5) co) (fmul (s.e n 2 6) si)) t
      let vq := fdiv (fsub (fmul (s.e n 2 6) co) (fmul (s.e n 2 5) si)) t
      s.modSweep n fun x => s.motorStep n x hold vd vq
    | .ripple =>
      let l := (join64 (s.e n 4 8) (s.e n 4 7)).toInt
      let cpr := (s.param n 4 73).toNat
      let y := (x.ripBin l cpr (s.e n 1 1)).ripTurn l cpr
      let s := s.modSweep n fun _ => y
      if y.back ≠ x.back then s.setE n 8 0 (if y.back then negate x.op.fitSpd else x.op.fitSpd) else s
    | .inertia | .resonance => s

/-- INERTIA at a speed step; `applied` is what its excitation added to i_q after the limits (08 R221, R223). -/
def State.inertiaStep (s : State) (n : AxisId) (x : Sweep) (hold : Nat) (applied : Word) : Sweep :=
  let el := hold - x.at_
  let wm := s.e n 4 3
  match x.step with
  | 0 | 3 => if ms 1000 ≤ el then x.next hold else x
  | 1 =>
    let x := x.note 0 (s.e n 1 1)
    if ms 1000 ≤ el then { x.next hold with mark := wm, markAt := hold } else x
  | 2 =>
    let h := x.cnt
    let x := x.note (if h % 2 = 0 then 4 else 5) applied
    if el / ms 100 = h then x
    else
      let a := fdiv (fsub wm x.mark) (F32.ofQ (hold - x.markAt : Nat) 400000000 0).1
      let x := { x.note (if h % 2 = 0 then 2 else 3) a with cnt := el / ms 100, mark := wm, markAt := hold }
      if 20 ≤ el / ms 100 then x.next hold else x
  | _ =>
    let x := x.note 1 (s.e n 1 1)
    if ms 1000 ≤ el then { x with over_ := true } else x

/-- One more term of the correlation at each frequency (08 R223). -/
def Sweep.correlate (x : Sweep) (el : Nat) (wm iq : Word) : Sweep :=
  let w := F32.at_ wm (-149)
  let i := F32.at_ iq (-149)
  { x with corr := (List.range corrCount).map fun k =>
      let th := x.freq k * el / 400000000
      let c := F32.cosRef th
      let d := F32.sinRef th
      let o := x.corr.getD k (0, 0, 0, 0)
      (o.1 + w * c, o.2.1 + w * d, o.2.2.1 + i * c, o.2.2.2 + i * d) }

/-- A sweep at a speed step. INERTIA's last speed goes into E8.0. -/
def State.sweepSpd (s : State) (n : AxisId) (applied : Word) : State :=
  match s.sweepOn n with
  | none => s
  | some x =>
    let hold := (s.axis n).ch.thisHold
    match x.kind with
    | .inertia =>
      let y := s.inertiaStep n x hold applied
      let s := s.modSweep n fun _ => y
      if y.step = 3 && x.step = 2 then s.setE n 8 0 (fmul fTwo x.op.fitSpd) else s
    | .resonance =>
      let el := hold - x.at_
      let x := if isFinite (s.e n 4 3) && isFinite (s.e n 1 1) then x.correlate el (s.e n 4 3) (s.e n 1 1) else x
      s.modSweep n fun _ => { x with over_ := decide (x.lenCp ≤ el) }
    | .motorId | .ripple => s

/-! Results (08 R223 to R225, R227). -/

/-- A result clamped to the range of its parameter (08 R223); one that is not finite takes the default. -/
def clampParam (j k : Nat) (v : Word) : Word :=
  match paramSpec j k with
  | none => v
  | some p =>
    if p.inRange v then v
    else if !isFinite v then p.dflt
    else if lt v p.lo then (if p.zero then 0#32 else p.lo) else p.hi

/-- RS, LD, LQ, PSI_M and t_w. -/
def State.motorPayload (s : State) (n : AxisId) (x : Sweep) : List Byte :=
  let m := fun (i : Fin 8) => x.mean[i].val
  let rs := fdiv (fsub (m 2) (m 0)) (fsub (m 3) (m 1))
  let psi := fdiv (fsub (m 6) (fmul rs (m 7))) x.omega
  [clampParam 3 64 rs, clampParam 3 65 (m 4), clampParam 3 66 (m 5), clampParam 3 67 psi, s.e n 12 3].flatMap wordBytes

/-- J, F_C and B: i_q = F_C + B × ω at FIT_SPD and at twice it. -/
def State.inertiaPayload (s : State) (n : AxisId) (x : Sweep) : List Byte :=
  let m := fun (i : Fin 8) => x.mean[i].val
  let kt := fmul (fmul (lit 3 2) (ofInt (s.param n 3 68).toNat)) (s.param n 3 67)
  let j := fdiv (fmul kt (fsub (m 4) (m 5))) (fsub (m 2) (m 3))
  let b := fdiv (fsub (m 1) (m 0)) x.op.fitSpd
  [clampParam 8 66 j, fsub (m 0) (fmul b x.op.fitSpd), b].flatMap wordBytes

/-- A covered bin: at least 8 steps in each direction. -/
def RipBin.covered (r : RipBin) : Bool := decide (8 ≤ r.nFwd) && decide (8 ≤ r.nBwd)
/-- Its mean, forward and backward weighted equally. -/
def RipBin.mean (r : RipBin) : Word := (F32.ofQ (r.fwd * r.nBwd + r.bwd * r.nFwd) (2 * r.nFwd * r.nBwd) (-149)).1

/-- The coverage bitmap and the 1,024 values of a RIPPLE sweep. -/
def Sweep.ripplePayload (x : Sweep) : List Byte :=
  let at_ (b : Nat) : Option Word := (x.bins.find? fun e => e.1 = b && e.2.covered).map fun e => e.2.mean
  let vals := (List.range 1024).map at_
  let all := (vals.filterMap id).foldl Mean.add {}
  let bitmap := (List.range 128).map fun i => (List.range 8).foldl
    (fun (v : Byte) k => setBitW v k (vals.getD (8 * i + k) none).isSome) 0#8
  bitmap ++ vals.flatMap fun v => wordBytes (match v with | some w => fsub w all.val | none => 0#32)

/-- √(a / b) × 2^e as binary32. -/
def sqrtRatio (a b : Nat) : Word :=
  if b = 0 then (if a = 0 then F32.nan else F32.inf false)
  else (F32.ofQ (F32.isqrt (a * 2 ^ 128 / b) : Nat) 1 (-64)).1

/-- Gain and phase of a correlation: E4.3 over i_q as complex numbers. -/
def corrResult (o : Int × Int × Int × Int) : Word × Word :=
  let re := o.1 * o.2.2.1 + o.2.1 * o.2.2.2
  let im := o.1 * o.2.2.2 - o.2.1 * o.2.2.1
  let g := sqrtRatio (o.1 * o.1 + o.2.1 * o.2.1).toNat (o.2.2.1 * o.2.2.1 + o.2.2.2 * o.2.2.2).toNat
  (g, (F32.ofQ (if re = 0 && im = 0 then 0 else F32.atan2Ref (decide (im < 0)) im.natAbs (decide (re < 0)) re.natAbs) 1 (-40)).1)

/-- The gain over the rigid-body line 1 / (J × 2πf). -/
def overLine (j f g : Word) : Word := fmul g (fmul j (fmul twoPi f))

/-- A peak of the response: its frequency, its gain and its height over the line. -/
structure Peak where
  f : Word
  g : Word
  h : Word
  deriving DecidableEq, Repr

/-- The peaks of a response: local maxima at least 6 dB above the line. An end of the response needs one neighbour
below it. -/
def peaksOf (j : Word) (r : List (Word × Word)) : List Peak :=
  (List.range r.length).filterMap fun k =>
    let e := r.getD k (0#32, 0#32)
    let above := (k = 0 || lt (r.getD (k - 1) e).2 e.2) && (k + 1 = r.length || lt (r.getD (k + 1) e).2 e.2)
    let h := overLine j e.1 e.2
    if above && le (lit 19952623 10000000) h then some { f := e.1, g := e.2, h := h } else none

/-- Inserts a peak among peaks in descending gain, and in ascending frequency. -/
def insertPeak (before : Peak → Peak → Bool) (p : Peak) : List Peak → List Peak
  | [] => [p]
  | q :: l => if before p q then p :: q :: l else q :: insertPeak before p l

/-- The notch set of a response (08 R225): f, ζ_z and ζ_p of up to four notches in order of frequency, and LP_FC 0. -/
def notchesOf (j limit : Word) (r : List (Word × Word)) : List Word :=
  let low := (peaksOf j r).filter fun p => lt p.f limit
  let high4 := (low.foldr (insertPeak fun a b => lt b.g a.g) []).take 4
  let set := (high4.foldr (insertPeak fun a b => lt a.f b.f) []).flatMap fun p =>
    [clampParam 11 64 p.f, clampParam 11 65 (fdiv (lit 3 10) p.h), lit 3 10]
  (set ++ List.replicate 13 0#32).take 13

/-- The response of a RESONANCE sweep: frequency, gain and phase. -/
def Sweep.response (x : Sweep) : List (Word × Word × Word) :=
  (List.range corrCount).map fun k =>
    let c := corrResult (x.corr.getD k (0, 0, 0, 0))
    ((F32.ofQ (x.freq k : Nat) 1 (-32)).1, c.1, c.2)

/-- 0.45 × the speed-step rate of an axis as its registers and parameters give it. -/
def State.rateLimit (s : State) (n : AxisId) : Word :=
  let w := (s.axis n).pwm
  (F32.ofQ 180000000 (Nat.max 1 (2 * w.act.per.toNat * (bits w.now.evt 7 4 + 1) * (s.param n 8 68).toNat)) 0).1

/-- The response and the notch set. -/
def State.resonancePayload (s : State) (n : AxisId) (x : Sweep) : List Byte :=
  let r := x.response
  (r.flatMap fun e => wordBytes e.1 ++ wordBytes e.2.1 ++ wordBytes e.2.2) ++
    (notchesOf (s.param n 8 66) (s.rateLimit n) (r.map fun e => (e.1, e.2.1))).flatMap wordBytes

/-- A peak lies at or above 0.45 × the speed-step rate: ABOVE_RATE (08 R225). -/
def State.aboveRate (s : State) (n : AxisId) (x : Sweep) : Bool :=
  x.kind = .resonance && (peaksOf (s.param n 8 66) (x.response.map fun e => (e.1, e.2.1))).any fun p => le (s.rateLimit n) p.f

/-- The payload that a sweep gives as it stands (08 R227). -/
def State.sweepPayload (s : State) (n : AxisId) (x : Sweep) : List Byte :=
  match x.kind with
  | .motorId => s.motorPayload n x
  | .inertia => s.inertiaPayload n x
  | .ripple => x.ripplePayload
  | .resonance => s.resonancePayload n x

/-- The sweep of an axis as a Fitting begins it (08 R223): MOTOR_ID at ALIGN_ANG, the others at FIT_SPD. -/
def State.newSweep (s : State) (n : AxisId) (k : FitKind) (op : FitOp) : Sweep :=
  let l := (join64 (s.e n 4 8) (s.e n 4 7)).toInt
  let lim := s.rateLimit n
  { kind := k, op := op, at_ := s.cref, startL := l, legL := l
    theta := if k = .motorId then wordAt (s.startRecord n) 12 else 0#32
    fTop := F32.min (lit 2000 1) lim }

end Sys2Proof.Machine
end

