-- ==== Sys2Proof/Machine/ChainFast.lean ====
section
/-! DEFINITION. The fast stages of the vendor chain (06 R169 to R185, R193; 07 R202 to R204; 08 R221,
R234): E0 on a sample frame, and E1 to E7 and E13 at a current step. Every operation is a binary32
operation of R250, applied in the order in which the rule writes it (DEDUCED, log entry 11). -/

namespace Sys2Proof.Machine

open F32 (fadd fsub fmul fdiv fsqrt ofInt lit lt le isZero isFinite negate rne smant ex)

/-! Shared pieces. -/

/-- A value held between two bounds. -/
def clampF (lo hi v : Word) : Word := F32.max lo (F32.min v hi)
/-- An angle in float turns as unsigned turns (00 R1 conventions). -/
def toTurns (f : Word) : Word := if isFinite f then BitVec.ofInt 32 (rne (smant f) (ex f + 32)) else 0#32
/-- √3 and its inverse. -/
def sqrt3 : Word := lit 17320508075688772935 10000000000000000000
def invSqrt3 : Word := lit 5773502691896257645 10000000000000000000

/-- atan2(y, x) as unsigned turns, as TATAN gives it (09 R250): both zero gives 0, and the result is one of
the two words next to the exact value (log entry 12). -/
def turnsOf (free : Bool) (y x : Word) : Word :=
  if isZero y && isZero x then 0#32
  else
    let e := if ex y < ex x then ex y else ex x
    let m (w : Word) : Nat := F32.mant w * 2 ^ (ex w - e).toNat
    let r := F32.atan2Ref (F32.neg y) (m y) (F32.neg x) (m x)
    BitVec.ofInt 32 (r / 256 + (if free && r % 256 ≠ 0 then 1 else 0))

/-- i_α and i_β of three phase values (06 R172). -/
def clarke (a b c : Word) : Word × Word :=
  (fdiv (fsub (fsub (fmul fTwo a) b) c) (lit 3 1), fdiv (fsub b c) sqrt3)

/-- The three phase values of α and β (06 R183). -/
def invClarke (al be : Word) : Word × Word × Word :=
  let h := fmul (fdiv sqrt3 fTwo) be
  let m := fdiv (negate al) fTwo
  (al, fadd m h, fsub m h)

/-- The axis' gates follow its compares, or it is held in a short brake. -/
def State.driven (s : State) (n : AxisId) : Bool :=
  s.forced n = .none || (s.axis n).ch.shortBrake || (s.axis n).ch.hardBrake

/-- E6 writes duty groups: STARTING outside the safe-state wait, RUN and STOPPING, and no short brake (06
R165, R181; 07 R205, R209, R214). -/
def State.controls (s : State) (n : AxisId) : Bool :=
  let c := (s.axis n).ch
  (c.st = .run || c.st = .stopping || (c.st = .starting && c.start ≠ .wait)) && !c.shortBrake && !c.hardBrake

/-- The current step belongs to this sample: a boundary at a zero, or at a peak in BOTH (06 R164). -/
def Pwm.stepKind (w : Pwm) (peak : Bool) : Bool := !peak || w.updMode = 2

/-- The number of a sampling step by PCOUNT (06 R169). -/
def Pwm.stepNo (w : Pwm) (pc : Word) (peak : Bool) : Nat :=
  let k := pc.toNat / (bits w.now.evt 7 4 + 1)
  if w.updMode = 2 then 2 * k + (if peak then 1 else 0) else k

/-! E0 (06 R169 to R171). -/

/-- The sensing input words of a frame, E0.16 to E0.34 (06 R195). -/
def State.sensingWords (s : State) (n : AxisId) (f : SampleIn) : State :=
  let q := (s.axis n).sns
  let w (s : State) (k : Nat) (v : Word) : State := s.setE n 0 k v
  let s := w (w (w s 16 (f.frame.i.a.signExtend 32)) 17 (f.frame.i.b.signExtend 32)) 18 (f.frame.i.c.signExtend 32)
  let s := w s 19 f.win
  let s := w (w (w s 20 (vsWord f.frame.vs.a)) 21 (vsWord f.frame.vs.b)) 22 (vsWord f.frame.vs.c)
  let s := match f.closing with
    | some b => w s 23 (closingWord b.peak b.pcount f.frame.vsOvf false)
    | none => s
  let s := w (w (w s 24 f.fb[0]) 25 f.fb[1]) 26 f.fb[2]
  let s := w (w (w s 27 f.fb[3]) 28 f.fb[4]) 29 f.fb[5]
  w (s.statusWords n) 34 (fieldAt 0 (bits q.cfgIn 1 0))

/-- The gain of a code (03 R64). -/
def gainOf (c : Nat) : Nat := match c with | 0 => 5 | 1 => 10 | 2 => 20 | _ => 40

/-- A phase current of a raw code (06 R169). -/
def State.phaseI (s : State) (n : AxisId) (code : BitVec 14) (ofs : BitVec 10) : Word :=
  let g := lit (gainOf (s.e n 0 34).toNat) 1
  let k := fdiv (lit 200 1000000) (fmul g (s.param n 0 64))
  negate (fmul k (ofInt (code.toInt - ofs.toInt)))

/-- The predicted current of E5 as phase currents (06 R169). -/
def State.predicted (s : State) (n : AxisId) : Word × Word × Word :=
  let c := (s.axis n).ch
  let th := s.e n 4 2
  let co := s.cosT 0 th
  let si := s.sinT 1 th
  invClarke (fsub (fmul c.ihat[0] co) (fmul c.ihat[1] si)) (fadd (fmul c.ihat[0] si) (fmul c.ihat[1] co))

/-- The phase currents of a frame, with a narrow phase formed from the other two. -/
def State.currents (s : State) (n : AxisId) (f : SampleIn) : Word × Word × Word :=
  let o := (s.axis n).sns.ofs
  let a := s.phaseI n f.frame.i.a o.a
  let b := s.phaseI n f.frame.i.b o.b
  let c := s.phaseI n f.frame.i.c o.c
  match bits f.win 6 4 with
  | 1 => (negate (fadd b c), b, c)
  | 2 => (a, negate (fadd a c), c)
  | 4 => (a, b, negate (fadd a b))
  | _ => (a, b, c)

/-- E0's counts of failed and UNUSABLE steps, and CURRENT_SUM at their onsets (06 R170). -/
def State.sumChecks (s : State) (n : AxisId) (missed : Nat) (failed unus peak : Bool) : State :=
  let c := (s.axis n).ch
  if !s.driven n then s.modCh n fun c => { c with failRun := 0, unusRun := 0, unusMet := false }
  else
    let r1 := c.failRun + missed
    let r2 := if failed then r1 + 1 else 0
    let onset := (c.failRun < 2 && 2 ≤ r1) || (r1 < 2 && 2 ≤ r2)
    let u := if peak then c.unusRun else if unus then c.unusRun + 1 else 0
    let met := if peak then c.unusMet else decide ((s.param n 0 66).toNat < u)
    let s := s.modCh n fun c => { c with failRun := r2, unusRun := u, unusMet := met }
    let s := if onset then s.raise (axisSrc n 6) else s
    if met && !c.unusMet then s.raise (axisSrc n 6) else s

/-- The conditioned currents of a step and the quality word (06 R170, R171). -/
def State.conditioned (s : State) (n : AxisId) (f : SampleIn) (pc : Word) (peak : Bool) : State :=
  let w := (s.axis n).pwm
  let no := w.stepNo pc peak
  let missed := match (s.axis n).ch.lastPc with | some p => no - p - 1 | none => 0
  let unus := bit f.win 1
  let deg := bit f.win 11
  let narrow := bits f.win 6 4
  let i := if unus then s.predicted n else s.currents n f
  let s := if unus then s.bumpBy 2 else s
  let s := ((s.setE n 0 0 i.1).setE n 0 1 i.2.1).setE n 0 2 i.2.2
  let sum := fadd (fadd i.1 i.2.1) i.2.2
  let three := !unus && narrow = 0
  let fail := three && lt (s.param n 0 65) (F32.abs sum)
  let s := if three then s.setOut n 0 4 sum else s.publish n 0 4
  let s := ((s.publish n 0 5).publish n 0 6).publish n 0 7
  let recon := if unus then 0 else narrow
  let q := bitAt 9 (decide (0 < missed)) ||| bitAt 8 fail ||| bitAt 7 deg ||| bitAt 6 unus |||
    fieldAt 3 recon ||| fieldAt 0 (7 - narrow)
  let s := s.setE n 0 3 q
  let s := s.sumChecks n missed (fail && !deg) unus peak
  s.modCh n fun c => { c with curDue := true, thisHold := f.frame.at_, thisPc := pc, thisPeak := peak, lastPc := some no }

/-- A sample that starts no current step updates E0.5 to E0.7 and nothing else (06 R164). -/
def State.noStep (s : State) (n : AxisId) (f : SampleIn) : State :=
  let unus := bit f.win 1
  let i := if unus then s.predicted n else s.currents n f
  let s := if unus then s.bumpBy 2 else s
  ((s.setOut n 0 5 i.1).setOut n 0 6 i.2.1).setOut n 0 7 i.2.2

/-- The sampling step of a discarded CAL frame had its SAMPLE frame, and is not missing; those missed before
it stay missing for the next activation (06 R169). -/
def State.calStep (s : State) (n : AxisId) (pc : Word) (peak : Bool) : State :=
  let no := (s.axis n).pwm.stepNo pc peak
  s.modCh n fun c => { c with lastPc := some (match c.lastPc with | some p => if p < no then p + 1 else no | none => no) }

/-- SAMPLE_CONDITIONING (06 R164, R169): E0 takes the oldest frame. -/
def State.sampleCond (s : State) (n : AxisId) : State :=
  let c := (s.axis n).clu
  if !s.axOn n || !s.enginesRun || c.role || c.recovering || s.epochHeld then s
  else match c.frames with
  | [] => s
  | f :: rest =>
    s.stageInj n [0] fun s =>
    let s := (s.modClu n fun c => { c with frames := rest }).activate n [0]
    let s := (s.sensingWords n f).readParams n 0
    let s := match f.closing with
      | some b => s.modCh n fun c => { c with halves := c.halves ++ [{ b.half f.frame.vs f.frame.vsOvf with resumed := bit f.win 12 }] }
      | none => s
    match f.frame.boundary, f.closing with
    | true, some b =>
      if (s.axis n).pwm.stepKind b.peak then
        if f.frame.cal then s.calStep n b.pcount b.peak else s.conditioned n f b.pcount b.peak
      else if f.frame.cal then s else s.noStep n f
    | _, _ => if f.frame.cal then s else s.noStep n f

def execSampleConditioning (n : AxisId) (s : State) : Host.Outcome State Fault Refusal := .next (s.sampleCond n)

/-! E1 and E2 (06 R172 to R174). -/

/-- E1: Clarke and Park, by the angle predicted for this hold. -/
def State.e1 (s : State) (n : AxisId) : State :=
  let ab := clarke (s.e n 0 0) (s.e n 0 1) (s.e n 0 2)
  let th := s.e n 4 2
  let co := s.cosT 0 th
  let si := s.sinT 1 th
  let id := fadd (fmul ab.1 co) (fmul ab.2 si)
  let iq := fadd (fmul (negate ab.1) si) (fmul ab.2 co)
  ((((((s.bumpBy 2).setE n 1 0 id).setE n 1 1 iq).setE n 1 2 ab.1).setE n 1 3 ab.2).setE n 1 4 th)

/-- The fraction of a half for which a duty word holds its phase high. -/
def dutyFrac (word : Word) (per : Nat) : Word :=
  let c := bits word 20 0
  if c = 0 then fOne else if 32 * per ≤ c then 0#32 else (F32.ofQ ((32 * per : Nat) - (c : Int)) (32 * per) 0).1

/-- The volt-seconds of a half period: measured, or substituted by what its duty words, as the generator had them in
force, and V_dc command (06 R173, R174). -/
def Half.lambda (h : Half) (vdc : Word) : Word × Word × Word :=
  if h.bad then
    let f (k : Fin 3) : Word := fmul (fmul vdc (dutyFrac h.cmp[k] h.per)) (secs h.per)
    (f 0, f 1, f 2)
  else
    let f (v : BitVec 24) : Word := fmul (ofInt v.toInt) (lit 2 1000000000)
    (f h.vs.a, f h.vs.b, f h.vs.c)

/-- The common mode removed. -/
def commonMode (l : Word × Word × Word) : Word × Word × Word :=
  let m := fdiv (fadd (fadd l.1 l.2.1) l.2.2) (lit 3 1)
  (fsub l.1 m, fsub l.2.1 m, fsub l.2.2 m)

/-- E2: the volt-seconds of every half period since the previous step; E2.0 to E2.3 are those and the duration of the
latest, and stand where none came (06 R173). -/
def State.e2 (s : State) (n : AxisId) : State :=
  let hs := (s.axis n).ch.halves
  let disc := hs.any fun h => h.resumed
  let sub := hs.any fun h => h.bad && !h.resumed
  let vdc := fmul (ofInt (bits (s.e n 0 33) 27 16 : Nat)) (lit 25 1000)
  let ls := (hs.filter fun h => !h.resumed).map fun h => commonMode (h.lambda vdc)
  let sum := ls.foldl (fun (a : Word × Word) l => let c := clarke l.1 l.2.1 l.2.2; (fadd a.1 c.1, fadd a.2 c.2)) (0#32, 0#32)
  let s := match ls.getLast? with
    | some l => ((s.setOut n 2 0 l.1).setOut n 2 1 l.2.1).setOut n 2 2 l.2.2
    | none => ((s.publish n 2 0).publish n 2 1).publish n 2 2
  let s := match (hs.filter fun h => !h.resumed).getLast? with
    | some h => s.setOut n 2 3 (secs h.per)
    | none => s.publish n 2 3
  let s := s.setE n 2 4 vdc
  let s := ((s.setE n 2 5 sum.1).setE n 2 6 sum.2).setE n 2 7 (bitAt 0 sub ||| bitAt 1 disc)
  s.modCh n fun c => { c with
    halves := [], confHold := if sub then 8 else c.confHold
    psi := if disc then (((c.psi.set 0 0#32).set 1 0#32).set 4 0#32).set 5 0#32 else c.psi }

/-! E3: the observer (06 R175, R176). -/

/-- A first-order low-pass step with time constant `tau`: y + (t / (t + tau)) × (x − y). -/
def lowPass (y x t tau : Word) : Word := fadd y (fmul (fdiv t (fadd t tau)) (fsub x y))

def State.e3 (s : State) (n : AxisId) (t : Word) (degraded : Bool) : State :=
  let s := s.readParams n 3
  let c := (s.axis n).ch
  let rs := s.param n 3 64
  let ld := s.param n 3 65
  let lq := s.param n 3 66
  let psim := s.param n 3 67
  let g := s.param n 3 69
  let ia := s.e n 1 2
  let ib := s.e n 1 3
  let step (psi lam i ip corr : Word) : Word :=
    fadd (fsub (fadd psi lam) (fdiv (fmul (fmul rs t) (fadd i ip)) fTwo)) (fmul (fmul t g) corr)
  let psA := step c.psi[0] (s.e n 2 5) ia c.psi[2] c.psi[4]
  let psB := step c.psi[1] (s.e n 2 6) ib c.psi[3] c.psi[5]
  let paA := fsub psA (fmul lq ia)
  let paB := fsub psB (fmul lq ib)
  let mag := fsqrt (fadd (fmul paA paA) (fmul paB paB))
  let pexp := fadd psim (fmul (fsub ld lq) (s.e n 1 0))
  let k := fsub pexp mag
  let none_ := isZero mag || degraded
  let cA := if none_ then 0#32 else fdiv (fmul k paA) mag
  let cB := if none_ then 0#32 else fdiv (fmul k paB) mag
  let th := turnsOf (Config.freeBool s.freeCtr) paB paA
  let wraw := fdiv (fmul (wrapTurns th (s.own n 3 0)) twoPi) t
  let w := lowPass (s.own n 3 2) wraw t (lit 1 1000)
  let em := fdiv (F32.abs (fsub mag pexp)) psim
  let craw := fmul (F32.min fOne (fdiv (F32.abs w) (s.param n 3 70)))
    (F32.max 0#32 (fsub fOne (fdiv em (s.param n 3 71))))
  let c0 := s.own n 3 1
  let c1 := lowPass c0 craw t (lit 2 1000)
  let conf := if 0 < c.confHold && lt c0 c1 then c0 else c1
  let s := s.bump
  let s := (((s.setOut n 3 0 th).setOut n 3 1 conf).setOut n 3 2 w).setE n 3 3 mag
  s.modCh n fun c => { c with psi := #v[psA, psB, ia, ib, cA, cB], confHold := c.confHold - 1 }

/-! E4: angle and speed (06 R177 to R180). -/

/-- The mechanical angle in turns that the WORD source holds. -/
def State.wordAngle (s : State) (n : AxisId) : Word := s.sigRead (s.param n 4 67).toNat

/-- The angle of the sensor at its latest edge, or the word at SENS_ADDR, by COUNT and DIR (06 R178, R193). -/
def State.thetaEdge (s : State) (n : AxisId) : Word :=
  let ofs := s.param n 4 65
  let pp := (s.param n 3 68).toNat
  if s.param n 4 64 = 1#32 then ofs + BitVec.ofNat 32 pp * s.wordAngle n
  else
    let cpr := (s.param n 4 73).toNat
    let x := ((s.e n 0 24).toNat + (if bit (s.e n 0 29) 1 then 1 else 0)) * pp
    ofs + BitVec.ofNat 32 (x % cpr * 2 ^ 32 / cpr)

/-- The measured angle θ_s of the axis' sensor (06 R178), with ω of the previous step. -/
def State.thetaS (s : State) (n : AxisId) : Word :=
  if s.param n 4 64 = 1#32 then s.thetaEdge n
  else
    let pp := (s.param n 3 68).toNat
    let cpr := (s.param n 4 73).toNat
    let adv := fdiv (fmul (fmul (s.own n 4 1) (ofInt (s.e n 0 28).toNat)) (lit 25 10000000000)) twoPi
    let lim := fdiv (ofInt pp) (ofInt cpr)
    s.thetaEdge n + toTurns (clampF (negate lim) lim adv)

/-- An SP_DONE has reached E4 within WORD_TMO; with WORD_TMO 0 the source is always valid (06 R180). -/
def State.wordFresh (s : State) (n : AxisId) : Bool :=
  isZero (s.param n 4 74) || (s.axis n).ch.spDoneAt.any fun t => secsWithin (s.cref - t) (s.param n 4 74)

/-- E4 judges the WORD source: it is valid while an SP_DONE lies within WORD_TMO, and FEEDBACK_LOSS is raised at each
onset of its invalidity (06 R180). -/
def State.wordJudge (s : State) (n : AxisId) : State :=
  let fresh := s.wordFresh n
  let was := (s.axis n).ch.wordValid
  let s := s.modCh n fun c => { c with wordValid := fresh }
  if was && !fresh then s.raiseCond (axisSrc n 7) true
  else if fresh then s.raiseCond (axisSrc n 7) false
  else s

/-- The angle source is valid (06 R179, R180). -/
def State.sourceValid (s : State) (n : AxisId) : Bool :=
  match (s.param n 4 64).toNat with
  | 0 | 3 => bit (s.e n 0 29) 0
  | 1 => isZero (s.param n 4 74) || (s.axis n).ch.wordValid
  | _ => true

/-- L for E4.7 and E4.8 (06 R178). -/
def State.linear (s : State) (n : AxisId) : Int :=
  (join64 (s.e n 4 8) (s.e n 4 7)).toInt

def State.setLinear (s : State) (n : AxisId) (l : Int) : State :=
  let d : Dword := BitVec.ofInt 64 l
  (s.setOut n 4 7 (lo32 d)).setOut n 4 8 (hi32 d)

/-- L at a current step: from the feedback words, or unwrapped from the WORD source in counts of 2^−24
turn. -/
def State.stepLinear (s : State) (n : AxisId) : State :=
  if s.param n 4 64 = 1#32 then
    let a := s.wordAngle n >>> 8
    match (s.axis n).ch.wordPrev with
    | none => (s.setLinear n a.toNat).modCh n fun c => { c with wordPrev := some a }
    | some p =>
      let d := ((a - p).setWidth 24).toInt
      (s.setLinear n ((join64 (s.own n 4 8) (s.own n 4 7)).toInt + d)).modCh n fun c => { c with wordPrev := some a }
  else
    let cpr : Int := (s.param n 4 73).toNat
    s.setLinear n ((s.e n 0 25).toInt * cpr + (s.e n 0 24).toNat)

/-- The plausibility run of a current step: where it begins, goes on or breaks; with SOURCE OBSERVER there is none (06
R179). -/
def State.plausRun (s : State) (n : AxisId) (valid : Bool) : State :=
  let on := valid && le (s.param n 4 71) (s.e n 3 1) && lt (s.param n 4 69) (F32.abs (s.e n 4 6))
  if on then s.modCh n fun c => { c with plausFrom := c.plausFrom.orElse fun _ => some c.thisHold }
  else (s.modCh n fun c => { c with plausFrom := none }).raiseCond (axisSrc n 8) false

/-- The published words of the loop. -/
def State.publishE4 (s : State) (n : AxisId) (th w t : Word) (src : Nat) : State :=
  let s := ((s.setOut n 4 0 th).setOut n 4 1 w).setE n 4 2 (th + toTurns (fdiv (fmul w t) twoPi))
  (s.setE n 4 3 (fdiv w (ofInt (s.param n 3 68).toNat))).setE n 4 5 (BitVec.ofNat 32 src)

/-- The loop of R177 on the measured angle `tm`; none extrapolates at the last speed. -/
def State.loop (s : State) (n : AxisId) (t : Word) (tm : Option Word) (src : Nat) : State :=
  let w0 := s.own n 4 1
  let tp := s.own n 4 0 + toTurns (fdiv (fmul w0 t) twoPi)
  match tm with
  | none => s.publishE4 n tp w0 t src
  | some m =>
    let e := wrapTurns m tp
    let wn := F32.min (fmul twoPi (s.param n 4 66)) (fdiv fOne (fmul fTwo t))
    let k1 := fmul (fmul fTwo wn) t
    let k2 := fmul (fmul wn t) (fmul wn t)
    s.publishE4 n (tp + toTurns (fmul k1 e)) (fadd w0 (fdiv (fmul (fmul k2 e) twoPi) t)) t src

/-- The angle is forced: by a start attempt (07 R202), or by MOTOR_ID (08 R223). -/
def State.isForced (s : State) (n : AxisId) : Bool :=
  let c := (s.axis n).ch
  (c.st = .starting && (c.start = .align || c.start = .ramp)) || (s.sweepOn n).any fun x => x.kind = .motorId

/-- E4 with a forced angle: θ_f and ω_f (07 R202, 08 R223). -/
def State.forcedAngle (s : State) (n : AxisId) (t : Word) : State :=
  let c := (s.axis n).ch
  match s.sweepOn n with
  | some x =>
    let x := s.sweepAngle n x t
    (s.modSweep n fun _ => x).publishE4 n x.theta x.omega t 2
  | none =>
  if c.start = .ramp then
    let sg := if s.backward n then negate fOne else fOne
    let w := fadd c.omegaF (fmul (fmul sg (wordAt c.startRec 20)) t)
    let th := c.thetaF + toTurns (fdiv (fmul w t) twoPi)
    (s.modCh n fun c => { c with omegaF := w, thetaF := th }).publishE4 n th w t 2
  else s.publishE4 n c.thetaF 0#32 t 2

def State.e4 (s : State) (n : AxisId) (t : Word) : State :=
  let s := s.readWords n (if (s.axis n).ch.reduced then stageWords 4 else stageWords 4 ++ [(8, 68)])
  let src := (s.param n 4 64).toNat
  let s := if src = 1 then s.wordJudge n else s
  let s := s.stepLinear n
  let valid := s.sourceValid n
  let ts := s.thetaS n
  let obs := s.e n 3 0
  let s := if src = 2 then (s.publish n 4 6).publish n 4 4 else (s.setOut n 4 6 (wrapTurns ts obs)).setOut n 4 4 ts
  let s := s.plausRun n (valid && src ≠ 2)
  if s.isForced n then s.forcedAngle n t
  else if src = 2 then (s.modCh n fun c => { c with fallback := false }).loop n t (some obs) 2
  else if valid then
    let tm := if src = 3 then ts + toTurns (fmul (fmul (s.param n 4 68) (s.e n 3 1)) (wrapTurns obs ts)) else ts
    (s.modCh n fun c => { c with fallback := false }).loop n t (some tm) src
  else if s.param n 4 72 = 1#32 && le (s.param n 4 71) (s.e n 3 1) then
    (s.modCh n fun c => { c with fallback := true }).loop n t (some obs) 2
  else (s.modCh n fun c => { c with fallback := false }).loop n t none src

/-! Basting at a current step (07 R203, R204). -/

/-- The travel of the attempt. -/
def State.travel (s : State) (n : AxisId) (prev : Word) : State :=
  let c := (s.axis n).ch
  if c.start ≠ .ramp then s
  else
    let sg := if s.backward n then negate fOne else fOne
    match c.travel with
    | none =>
      if alignOf c.startRec = 0 && le (fmul fHalf (wordAt c.startRec 28)) (s.e n 3 1)
      then s.modCh n fun c => { c with travel := some 0#32 } else s
    | some v =>
      let v := fadd v (fmul (fmul sg (wrapTurns (s.e n 3 0) prev)) (lit 360 1))
      s.modCh n fun c => { c with travel := some v, back := F32.max c.back (negate v) }

/-- HANDOVER: the eighth qualifying step at a zero hands the angle to the observer, on an attempt that has not gone
backward too far (DEDUCED, log entry 137). -/
def State.handover (s : State) (n : AxisId) (t : Word) : State :=
  let c := (s.axis n).ch
  if c.st ≠ .starting || c.start ≠ .ramp || c.thisPeak || c.backFail then s
  else if !(le (wordAt c.startRec 28) (s.e n 3 1) && le (wordAt c.startRec 24) (F32.abs c.omegaF)) then
    s.modCh n fun c => { c with hoRun := 0 }
  else if c.hoRun + 1 < 8 then s.modCh n fun c => { c with hoRun := c.hoRun + 1 }
  else
    let sg := if s.backward n then negate fOne else fOne
    let idem := fmul (fmul sg (s.clampI n (wordAt c.startRec 16))) (s.cosT 0 (c.thetaF - s.e n 3 0))
    let s := s.bump
    let s := s.modCh n fun c => { c with st := .run, start := .none, hoRun := 0 }
    let s := s.publishE4 n (s.e n 3 0) (s.e n 3 2) t 2
    let s := if c.mode = .torque then s else s.setIdem n idem
    (s.noteTorque n).settleRuns

/-! E5: predictive current control (06 R181, R182). -/

/-- β of R181: 1/2 in MID, 0 in BOUNDARY and BOTH. -/
def Pwm.beta (w : Pwm) : Word := if w.updMode = 1 then fHalf else 0#32

/-- What E5 forms for one step: voltages, integral terms, net voltages, predictions and SAT. -/
structure E5Out where
  vd : Word
  vq : Word
  xd : Word
  xq : Word
  ud : Word
  uq : Word
  id : Word
  iq : Word
  sat : Bool

/-- E5's step. With the bridge open no current can flow and the prediction is 0. Where a clamp acts, x stays as it was,
also in the v of that step, which is formed again with it (DEDUCED, log entry 134). MOTOR_ID's square waves take the
place of the controller's voltages (08 R223). -/
def State.e5Calc (s : State) (n : AxisId) (t : Word) (degraded : Bool) : E5Out :=
  let c := (s.axis n).ch
  let be := (s.axis n).pwm.beta
  let rs := s.param n 3 64
  let ld := s.param n 3 65
  let lq := s.param n 3 66
  let psim := s.param n 3 67
  let w := s.e n 4 1
  let i0 := s.e n 1 0
  let i1 := s.e n 1 1
  let act := s.controls n
  let open_ := !act && s.forced n ≠ .short
  let vmax := fdiv (fmul (s.param n 5 66) (s.e n 2 4)) sqrt3
  let xk (x ih i l : Word) : Word :=
    let v := if !act then 0#32 else if degraded then x
      else fadd x (fmul (fmul (s.param n 5 65) (fdiv l t)) (fsub ih i))
    clampF (negate vmax) vmax v
  let xd := xk (s.own n 5 4) c.ihat[0] i0 ld
  let xq := xk (s.own n 5 5) c.ihat[1] i1 lq
  let hk (i l u : Word) : Word := if open_ then 0#32 else fadd i (fmul (fmul (fsub fOne be) (fdiv t l)) u)
  let hd := hk i0 ld c.u[0]
  let hq := hk i1 lq c.u[1]
  let uk (r h l : Word) : Word := fdiv (fmul (fmul (s.param n 5 64) l) (fsub r h)) (fmul (fadd fOne be) t)
  let ud := uk (s.refWordOf n 5 0) hd ld
  let uq := uk (s.refWordOf n 5 1) hq lq
  let ed := fsub (fmul rs hd) (fmul (fmul w lq) hq)
  let eq := fadd (fadd (fmul rs hq) (fmul (fmul w ld) hd)) (fmul w psim)
  let voltages (xd xq : Word) : Word × Word × Bool :=
    let vd := fadd (fadd ud ed) xd
    let vq := fadd (fadd uq eq) xq
    let sq := (s.sweepOn n).bind fun x => if x.kind = .motorId then some x else none
    let vd := match sq with | some x => if x.step = 2 then x.squareV (s.e n 2 4) else if x.step = 3 then 0#32 else vd | none => vd
    let vq := match sq with | some x => if x.step = 3 then x.squareV (s.e n 2 4) else if x.step = 2 then 0#32 else vq | none => vq
    let cd := clampF (negate vmax) vmax vd
    let lim := fsqrt (F32.max 0#32 (fsub (fmul vmax vmax) (fmul cd cd)))
    let cq := clampF (negate lim) lim vq
    (cd, cq, cd ≠ vd || cq ≠ vq)
  let first := voltages xd xq
  let sat := first.2.2
  let kd := if sat && act then s.own n 5 4 else xd
  let kq := if sat && act then s.own n 5 5 else xq
  let v := if sat && act then voltages kd kq else first
  if act then { vd := v.1, vq := v.2.1, xd := kd, xq := kq, ud := fsub (fsub v.1 ed) kd, uq := fsub (fsub v.2.1 eq) kq
                id := hd, iq := hq, sat := sat }
  else
    { vd := v.1, vq := v.2.1, xd := 0#32, xq := 0#32, ud := if open_ then 0#32 else negate ed
      uq := if open_ then 0#32 else negate eq, id := hd, iq := hq, sat := sat }

def State.e5 (s : State) (n : AxisId) (t : Word) (degraded predicted : Bool) : State :=
  let s := ((s.readParams n 5).readRef n 5 0).readRef n 5 1
  let o := s.e5Calc n t degraded
  let s := (((s.setE n 5 2 o.vd).setE n 5 3 o.vq).setOut n 5 4 o.xd).setOut n 5 5 o.xq
  let s := s.setE n 5 6 (bitAt 0 o.sat ||| bitAt 1 predicted)
  s.modCh n fun c => { c with u := #v[o.ud, o.uq], ihat := #v[o.id, o.iq] }

/-! E6: modulation (06 R183, R184). -/

/-- The compare word of a duty. -/
def dutyWord (d : Word) (per : Nat) : Word :=
  if le fOne d then 0#32
  else if le d 0#32 then 0x001FFFFF#32
  else
    let v := fmul (ofInt (32 * per : Nat)) (fsub fOne d)
    BitVec.ofInt 32 (F32.toInt v)

/-- The nominations of R184: of the two phases of highest duty, the one with the larger |i| is EARLY. The spec says
nothing of ties: of equal lowest duties the lowest phase is not nominated, of equal currents the lower phase is EARLY
(DESIGN CHOICE, log entry 159). -/
def gusBits (d i : Fin 3 → Word) (p : Fin 3) : Word :=
  let low : Fin 3 := if le (d 0) (d 1) && le (d 0) (d 2) then 0 else if le (d 1) (d 2) then 1 else 2
  if p = low then 0#32
  else
    let o : Fin 3 := Fin.ofNat 3 (3 - p.val - low.val)
    let bigger := lt (F32.abs (i o)) (F32.abs (i p)) || (F32.eq (F32.abs (i o)) (F32.abs (i p)) && decide (p.val < o.val))
    if bigger then bitAt 31 true else bitAt 30 true

def State.e6 (s : State) (n : AxisId) (t : Word) : State :=
  let s := s.readParams n 6
  let w := (s.axis n).pwm
  let vd := s.e n 5 2
  let vq := s.e n 5 3
  let vdc := s.e n 2 4
  let om := s.e n 4 1
  let tha := s.e n 4 0 + toTurns (fdiv (fmul (fmul om (fsub (lit 3 2) w.beta)) t) twoPi)
  let co := s.cosT 0 tha
  let si := s.sinT 1 tha
  let v := invClarke (fsub (fmul vd co) (fmul vq si)) (fadd (fmul vd si) (fmul vq co))
  let mx := F32.max (F32.max v.1 v.2.1) v.2.2
  let mn := F32.min (F32.min v.1 v.2.1) v.2.2
  let v0 := fdiv (negate (fadd mx mn)) fTwo
  let idtc := s.param n 6 64
  let tc := secs (2 * w.act.per.toNat : Nat)
  let duty (vx ix : Word) : Word :=
    let d := fadd fHalf (if isZero vdc then 0#32 else fdiv (fadd vx v0) vdc)
    if isZero idtc then d
    else fadd d (fdiv (fmul (clampF (negate fOne) fOne (fdiv ix idtc)) (s.param n 6 65)) tc)
  let ip (p : Fin 3) : Word := s.e n 0 p.val
  let d (p : Fin 3) : Word := match p with | 0 => duty v.1 (ip 0) | 1 => duty v.2.1 (ip 1) | 2 => duty v.2.2 (ip 2)
  let nom := s.param n 6 66 = 1#32
  let word (p : Fin 3) : Word := dutyWord (d p) w.act.per.toNat ||| (if nom then gusBits d ip p else 0#32)
  let mag := fsqrt (fadd (fmul vd vd) (fmul vq vq))
  let s := s.bumpBy 2
  let m := if isZero vdc then 0#32 else fdiv mag (fdiv vdc sqrt3)
  let s := (s.setE n 6 3 m).setE n 6 4 tha
  if !s.controls n then ((s.publish n 6 0).publish n 6 1).publish n 6 2
  else
    let s := ((s.setOut n 6 0 (word 0)).setOut n 6 1 (word 1)).setOut n 6 2 (word 2)
    s.dutyRelease n (word 0) (word 1) (word 2)

/-! E7: ripple feed-forward and refit (06 R185; 08 R234, R235). -/

/-- A bin of the ripple Pattern in CTM. -/
def State.ripBin (s : State) (n : AxisId) (b : Nat) : Word := (s.axis n).clu.ctm.rd (b % 1024)

/-- The refit update of one bin, and whether it has reached its bound. -/
def State.refitBin (s : State) (n : AxisId) (b : Nat) (wt e t : Word) : State × Bool :=
  let p0 := (s.axis n).clu.p0.rd (b % 1024)
  let bd := s.param n 7 67
  let v := fadd (s.ripBin n b) (fdiv (fmul (fmul (fmul (s.param n 7 66) t) wt) e) (s.param n 7 64))
  let lo := fsub p0 bd
  let hi := fadd p0 bd
  let c := clampF lo hi v
  (s.modClu n fun k => { k with ctm := k.ctm.wr (b % 1024) c }, le v lo || le hi v)

def State.e7 (s : State) (n : AxisId) (t : Word) (degraded : Bool) : State :=
  let c := (s.axis n).ch
  if c.mode = .fan || c.reduced then s
  else
    let s := s.readParams n 7
    let cpr := (s.param n 4 73).toNat
    let x : Nat := (s.linear n % (cpr : Int)).toNat * 1024
    let b := x / cpr
    let w1 := (F32.ofQ (x % cpr : Nat) cpr 0).1
    let w0 := fsub fOne w1
    let p := fadd (fmul w0 (s.ripBin n b)) (fmul w1 (s.ripBin n (b + 1)))
    let gain := s.param n 7 64
    let loaded := bit (s.own n 7 1) 0
    let s := s.setE n 7 0 (if loaded then fmul gain p else 0#32)
    let idem := s.e n 8 1
    let tau := fdiv fOne (fmul twoPi (s.param n 7 70))
    let lp := lowPass (s.axis n).clu.refitLp idem t tau
    let s := s.modClu n fun k => { k with refitLp := lp }
    let wm := F32.abs (s.e n 4 3)
    let on := s.param n 7 65 = 1#32 && lt 0#32 gain && loaded && !(s.axis n).clu.refitHold && c.st = .run &&
      (c.mode = .speed || c.mode = .position) && le (s.param n 7 68) wm && le wm (s.param n 7 69) &&
      !c.limited && !degraded
    let r :=
      if on then
        let e := fsub idem lp
        let a := s.refitBin n b w0 e t
        let d := a.1.refitBin n (b + 1) w1 e t
        (d.1, a.2 || d.2)
      else (s, false)
    r.1.setOut n 7 1 (((s.own n 7 1) &&& 0xFFFFFFFD#32) ||| bitAt 1 on ||| bitAt 2 r.2)

/-! E13: the diverse torque check, in Q31 (06 R193). -/

/-- A Q31 product, rounded to nearest with halves up, and saturated (09 R250). -/
def qMul (a b : Int) : Int :=
  let v := (a * b + 2 ^ 30) / 2 ^ 31
  if 2 ^ 31 ≤ v then 2 ^ 31 - 1 else if v < -(2 : Int) ^ 31 then -(2 : Int) ^ 31 else v

/-- The angle that E13 takes by its own path: FB_COUNT and FB_STAT, the word at SENS_ADDR, or E3.0 (06 R193). -/
def State.theta13 (s : State) (n : AxisId) : Word :=
  let src := (s.param n 4 64).toNat
  if src = 2 then s.e n 3 0 else s.thetaEdge n

/-- The full scale of E13's currents, 1.6384 V / (g × R_SHUNT), as a fraction: numerator and denominator (06 R193). -/
def State.scale13 (s : State) (n : AxisId) : Int × Nat :=
  let c := (s.axis n).ch
  (16384 * 2 ^ 149, Nat.max 1 (10000 * gainOf c.gain13.toNat * (F32.at_ c.rShunt13 (-149)).toNat))

/-- A Q31 value held between its bounds. -/
def clampQ (v : Int) : Int := if 2 ^ 31 ≤ v then 2 ^ 31 - 1 else if v < -(2 : Int) ^ 31 then -(2 : Int) ^ 31 else v

/-- A current in A as a fraction of the full scale, to nearest with halves up; one that is not finite takes the end of
the scale (06 R193; DEDUCED, log entry 135). -/
def State.frac13 (s : State) (n : AxisId) (v : Word) : Int :=
  let f := s.scale13 n
  if isFinite v then
    let d : Int := 2 * f.1 * 2 ^ 149
    clampQ ((2 * F32.at_ v (-149) * f.2 * 2 ^ 31 + f.1 * 2 ^ 149) / d)
  else if F32.neg v then -(2 : Int) ^ 31 else 2 ^ 31 - 1

/-- i_d,m and i_q,m of the raw codes and offsets, in Q31 fractions of the full scale. -/
def State.dq13 (s : State) (n : AxisId) (narrow : Nat) : Int × Int :=
  let o := s.e n 0 32
  let frac (k lo : Nat) : Int := -(((s.e n 0 k).toInt - ((o >>> lo).setWidth 10 : BitVec 10).toInt) * 2 ^ 18)
  let a0 := frac 16 0
  let b0 := frac 17 10
  let c0 := frac 18 20
  let a := if narrow = 1 then -(b0 + c0) else a0
  let b := if narrow = 2 then -(a0 + c0) else b0
  let k := if narrow = 4 then -(a0 + b0) else c0
  let al := (2 * a - b - k) / 3
  let be := qMul (b - k) 1239850263
  let th := s.theta13 n
  let co := (F32.toQ31 (s.cosT 0 th)).1.toInt
  let si := (F32.toQ31 (s.sinT 1 th)).1.toInt
  (clampQ (qMul al co + qMul be si), clampQ (qMul be co - qMul al si))

/-- τ_m of Q31 currents, converted once (06 R193). -/
def State.torque13 (s : State) (n : AxisId) (id iq : Int) : Word :=
  let f := s.scale13 n
  let a : Int := f.1
  let b : Int := (2 ^ 31 * f.2 : Nat)
  let psi := F32.at_ (s.param n 3 67) (-149)
  let dl := F32.at_ (s.param n 3 65) (-149) - F32.at_ (s.param n 3 66) (-149)
  let pp : Int := (s.param n 3 68).toNat
  (F32.ofQ (3 * pp * (psi * iq * a * b + dl * id * iq * a * a)) (2 * b * b).toNat (-149)).1

/-- i_q,m violates the limits of R193, with |i_q,m| against E12.0 or with a sign against E5.1. -/
def State.violates13 (s : State) (n : AxisId) (iq : Int) : Bool :=
  let tol := (F32.toQ31 (s.param n 13 64)).1.toInt
  let ab := s.frac13 n (s.param n 13 65)
  let lim := s.frac13 n (s.e n 12 0)
  let ref := s.frac13 n (s.e n 5 1)
  let above := decide (lim + qMul lim tol + ab < iq.natAbs)
  let signs := (decide (iq < 0) && decide (0 < ref)) || (decide (0 < iq) && decide (ref < 0))
  above || (signs && decide (qMul tol (s.frac13 n (s.param n 12 64)) + ab < (iq - ref).natAbs))

/-- E13: τ_m and i_q,m from the raw codes, and the run of violating steps. Its window word E0.19 tells it the phases
measured; with fewer than two it judges nothing. TORQUE_CHECK is raised once for a run that reaches TQ_N. -/
def State.e13 (s : State) (n : AxisId) : State :=
  let s := s.readParams n 13
  let win := s.e n 0 19
  let i := s.dq13 n (bits win 6 4)
  let s := s.bumpBy 2
  let f := s.scale13 n
  let s := (s.setE n 13 0 (s.torque13 n i.1 i.2)).setE n 13 1 (F32.ofQ (i.2 * f.1) (2 ^ 31 * f.2) 0).1
  if bit win 1 then s.publish n 13 2
  else
    let st := (s.axis n).ch.st
    let moving := st = .run || st = .starting || st = .stopping
    if s.violates13 n i.2 && moving then
      let run := satInc (s.own n 13 2)
      let met := decide (s.param n 13 66 ≤ run)
      let raised := (s.axis n).ch.tqMet
      let s := (s.setOut n 13 2 run).modCh n fun c => { c with tqMet := met }
      if met && !raised then s.raise (axisSrc n 13) else s
    else (s.setOut n 13 2 0#32).modCh n fun c => { c with tqMet := false }

/-! The current step. -/

/-- A sweep's travel limit at a current step: every axis of the Fitting stops (08 R221). -/
def State.fitTravel (s : State) (n : AxisId) : State :=
  let l := s.linear n
  let passed (f : Fit) : Bool :=
    f.started && f.ending.isNone && f.kind ≠ FitKind.ripple && !isZero f.op.travelMax && f.op.axes.getLsbD n.val &&
    (f.startL.any fun e => e.1 = n && decide (F32.at_ f.op.travelMax (-149) ≤ (l - e.2).natAbs * 2 ^ 149))
  let axes : Dword := (s.fits.filter passed).foldl (fun m f => m ||| f.op.axes) 0#64
  if axes = 0#64 then s
  else
    let s := { s with fits := s.fits.map fun f => if passed f then { f with ending := some (.aborted, 2#8) } else f }
    s.forAxes (axesOf axes) fun m s => s.beginStop m

/-- The interval T of a step, from the previous step's hold; a first step takes its nominal interval (06,
Steps and rates). -/
def State.stepT (s : State) (n : AxisId) : Word :=
  let c := (s.axis n).ch
  let w := (s.axis n).pwm
  let nominal := (if w.updMode = 2 then 1 else 2) * w.act.per.toNat * (if w.updMode = 2 then 1 else bits w.now.evt 7 4 + 1)
  match c.lastHold with
  | some h => if h < c.thisHold then secs (c.thisHold - h : Nat) else secs nominal
  | none => secs nominal

/-- PEAK_MA: the magnitude of the current vector in mA, rounded down (18 R488). -/
def State.notePeak (s : State) (n : AxisId) : State :=
  let d := F32.at_ (s.e n 1 0) (-149)
  let q := F32.at_ (s.e n 1 1) (-149)
  if !(isFinite (s.e n 1 0) && isFinite (s.e n 1 1)) then s
  else
    let ma := F32.isqrt ((d * d + q * q).toNat * 1000000 / 2 ^ 298)
    s.accrue n fun a => { a with peakMa := Nat.max a.peakMa (Nat.min ma (2 ^ 32 - 1)) }

/-- CURRENT_STEP (06 R164). Under the reduced chain, where E8.68 reads 0, the last good SPD_DIV sets the rate of E12, or
its default 1: the spec names none (DESIGN CHOICE, log entry 159). An attempt that failed at the step before this one goes to its safe state first. A speed step falls due on a zero whose PCOUNT is a multiple of (SMP_PRESC + 1) ×
SPD_DIV. -/
def State.currentStep (s : State) (n : AxisId) : State :=
  let c := (s.axis n).ch
  if !s.axOn n || !s.enginesRun || (s.axis n).clu.role || (s.axis n).clu.recovering || !c.curDue || s.epochHeld then s
  else
    (s.attemptFail n).stageInj n (if c.reduced then [1, 2, 3, 4, 5, 6, 13] else [1, 2, 3, 4, 5, 6, 7, 13]) fun s =>
    let s := s.activate n (if c.reduced then [1, 2, 3, 4, 5, 6, 13] else [1, 2, 3, 4, 5, 6, 7, 13])
    let t := s.stepT n
    let q := s.e n 0 3
    let deg := bit q 7
    let prev := s.own n 3 0
    let s := (((s.e1 n).notePeak n).e2 n).e3 n t deg
    let s := s.travel n prev
    let s := (((s.e4 n t).handover n t).judgeAttempt n).e5 n t deg (bit q 6)
    let s := ((s.e6 n t).e7 n t deg).e13 n
    let s := (s.sweepCur n t).fitTravel n
    let div := (bits (s.axis n).pwm.now.evt 7 4 + 1) * (s.param n 8 68).toNat
    let due := !c.thisPeak && c.thisPc.toNat % div = 0
    s.modCh n fun c => { c with curDue := false, lastHold := some c.thisHold, spdDue := c.spdDue || due }

def execCurrentStep (n : AxisId) (s : State) : Host.Outcome State Fault Refusal := .next (s.currentStep n)

/-- The run of both conditions of R179 has lasted PLAUS_T, with a SOURCE that is judged. -/
def State.plausDue (s : State) (n : AxisId) : Bool :=
  s.axOn n && s.param n 4 64 ≠ 2#32 && (s.axis n).ch.plausFrom.any fun t => secsPassed (s.cref - t) (s.param n 4 70)

/-- FEEDBACK_PLAUS (06 R179): the run of both conditions has lasted PLAUS_T; raised once for the run. -/
def execFeedbackPlaus (n : AxisId) (s : State) : Host.Outcome State Fault Refusal :=
  .next (if s.plausDue n then s.raiseCond (axisSrc n 8) true else s)

/-- The WORD source of an axis with a current step due has had no SP_DONE within WORD_TMO (06 R180). -/
def State.wordLate (s : State) (n : AxisId) : Bool :=
  s.axOn n && !(s.axis n).clu.role && (s.axis n).ch.curDue && s.param n 4 64 = 1#32 && (s.axis n).ch.wordValid && !s.wordFresh n

/-- WORD_SOURCE_TIMEOUT (06 R180): the WORD source becomes invalid at the current step that is due. -/
def execWordSourceTimeout (n : AxisId) (s : State) : Host.Outcome State Fault Refusal :=
  .next (if s.wordLate n then s.wordJudge n else s)

end Sys2Proof.Machine
end

