-- ==== Sys2Proof/Machine/ChainSlow.lean ====
section
/-! DEFINITION. The slow stages of the vendor chain: E8, E11 and E12 at a speed step, E10 and E9 at a
position step (06 R164 to R167, R186 to R192; 07 R202, R206 to R209). -/

namespace Sys2Proof.Machine

open F32 (fadd fsub fmul fdiv fsqrt ofInt lit lt le isZero isFinite negate)

/-! MODE_REQ (06 R167, 11 R327). -/

/-- Mode requests that descriptors wait for: the descriptor completes when every axis has answered. -/
def State.settleModes (s : State) : State :=
  s.hst.inflight.foldl (fun s d =>
    match d.act with
    | .axisMode m refused =>
      if (axesOf m).any fun n => (s.axis n).ch.modeWait then s
      else
        match (axesOf refused).head? with
        | some n => s.completeIf (fun e => e.act = d.act) d.src d.tag .conflict (fieldAt 8 n.val ||| 8#32)
        | none => s.completeIf (fun e => e.act = d.act) d.src d.tag .ok 0#32
    | _ => s) s

/-- An axis' E12 has answered its request. -/
def State.modeAnswer (s : State) (n : AxisId) (refused : Bool) : State :=
  if !(s.axis n).ch.modeWait then s
  else
    let s := s.modCh n fun c => { c with modeWait := false }
    let s := if !refused then s else s.modHst fun h => { h with inflight := h.inflight.map fun d =>
      match d.act with
      | .axisMode m r => if m.getLsbD n.val then { d with act := .axisMode m (r ||| axisMask n) } else d
      | _ => d }
    s.settleModes

/-- The mode of a code. -/
def modeOf (k : Nat) : Option AxMode :=
  match k with | 0 => some .torque | 1 => some .speed | 2 => some .position | 3 => some .fan | _ => none

/-- Whether E12 accepts a change in the axis' state (06 R167). -/
def modeAllowed (c : Chain) (m : AxMode) (red : Bool) : Bool :=
  if red && m ≠ .torque then false
  else match c.st with
    | .hold | .safe => true
    | .run => (m = .fan) == (c.mode = .fan) && red == c.reduced
    | .charging | .starting | .stopping => false

/-- The reduced chain: E7 to E11 are not loaded and their words read 0; when it is cleared they are
loaded with their parameters again (06 R166). -/
def paramInit (s : State) (n : AxisId) (j k : Nat) : Word :=
  match paramSpec j k with
  | none => 0#32
  | some p =>
    let v := Config.settingsWord (sigAddr n j k)
    if s.img.inUse.isEmpty then p.dflt else if p.inRange v then v else p.dflt

/-- The parameter words of engine j from the stored settings, or their defaults. -/
def State.loadParams (s : State) (n : AxisId) (j : Nat) : State :=
  (paramList.filter fun e => e.1 = j).foldl (fun s e => s.setE n j e.2 (paramInit s n j e.2)) s

/-- The limit of the chain time in ce, of which E0 to E6 have a share each (01 R24). -/
def chainLimit (red : Bool) : Nat := if red then 800 else 1200

/-- What E0 to E(i − 1) share of the chain time: each has at least 1 ce, and leaves the later ones at least that much
(01 R24). -/
def shareBelow (red : Bool) : Nat → Nat
  | 0 => 0
  | i + 1 =>
    let used := shareBelow red i
    used + 1 + Config.vendorBudget (i + 16 * red.toNat) % (chainLimit red - used - (6 - i))

/-- The budget that the chain image sets for a vendor engine: E0 to E6 have shares of the chain time (01 R24), the
others 1 to 1,048,575 ce (09 R266). -/
def vendorBudget (red : Bool) (i : Nat) : BitVec 20 :=
  BitVec.ofNat 20 (if i < 7 then shareBelow red (i + 1) - shareBelow red i
    else 1 + Config.vendorBudget (i + 16 * red.toNat) % 1048575)

/-- The engines that the reduced chain leaves out (06 R166). -/
def fullOnly : List EngId := [7, 8, 9, 10, 11]

/-- E7 to E11 are loaded and wait, or hold no program and are stopped (06 R166; 09 R276, R278). -/
def State.setLoaded (s : State) (n : AxisId) (on : Bool) : State :=
  s.modClu n fun c => { c with eng := c.eng.mapFinIdx fun i x h =>
    if (fullOnly.contains (⟨i, h⟩ : EngId)) then { x.stop with st := if on then .waiting else .stopped, loaded := on } else x }

/-- The budgets that the chain image sets, as the chain in force shares them out (01 R24). -/
def State.setBudgets (s : State) (n : AxisId) : State :=
  let red := (s.axis n).ch.reduced
  s.modClu n fun c => { c with eng := c.eng.mapFinIdx fun i x _ =>
    if i < 14 then { x with budget := vendorBudget red i } else x }

/-- E7 to E11 lose their program and their words, and E10 its segment. -/
def State.unload (s : State) (n : AxisId) : State :=
  ((fullOnly.foldl (fun s j => s.clearPublic n j) s).setLoaded n false).modCh n fun c => { c with seg := none }

/-- E7 to E11 are loaded again, their parameters and then the ripple and resonance Patterns written (06 R166). E8's
integral, E11's filter memories and Refit's low-pass stand through it: the spec does not say (DESIGN CHOICE, log entry
159). -/
def State.reload (s : State) (n : AxisId) : State :=
  ((fullOnly.foldl (fun s j => s.loadParams n j.val) (s.unload n)).setLoaded n true).loadPatterns n
    fun k => k = .ripple || k = .resonance

def State.setReduced (s : State) (n : AxisId) (red : Bool) : State :=
  let was := (s.axis n).ch.reduced
  let s := s.modCh n fun c => { c with reduced := red }
  if red && !was then (s.unload n).setBudgets n else if !red && was then (s.reload n).setBudgets n else s

/-- An accepted change of mode; into POSITION in RUN with E10 idle, E9's reference is the present L. -/
def State.setMode (s : State) (n : AxisId) (m : AxMode) (red : Bool) : State :=
  let c := (s.axis n).ch
  let s := (s.setReduced n red).modCh n fun c => { c with mode := m }
  if c.st = .run && m = .position && c.mode ≠ .position && c.seg.isNone
  then (s.setE n 9 0 (s.e n 4 7)).setE n 9 1 (s.e n 4 8) else s

/-- E12 takes MODE_REQ. The answer says whether E8 enters SPEED bumplessly at this step. -/
def State.takeMode (s : State) (n : AxisId) : State × Bool :=
  let r := s.e n 12 18
  let s := s.setE n 12 18 0#32
  if !bit r 31 then (s, false)
  else
    let red := bit r 4
    match modeOf (bits r 3 0) with
    | none => ((s.modCh n fun c => { c with refuse := 8#8 }).modeAnswer n true, false)
    | some m =>
      let c := (s.axis n).ch
      if modeAllowed c m red then
        ((s.setMode n m red).modeAnswer n false, c.st = .run && m = .speed && c.mode ≠ .speed)
      else ((s.modCh n fun c => { c with refuse := 8#8 }).modeAnswer n true, false)

/-! E8 and E11 (06 R186, R190). -/

/-- The interval of a speed step in cp by PER, SMP_PRESC and SPD_DIV in force. -/
def State.spdNominal (s : State) (n : AxisId) : Nat :=
  let w := (s.axis n).pwm
  2 * w.act.per.toNat * (bits w.now.evt 7 4 + 1) * (s.param n 8 68).toNat

/-- The interval of a speed step in cp, from the hold of the previous one. -/
def State.spdCp (s : State) (n : AxisId) : Nat :=
  let c := (s.axis n).ch
  match c.lastSpd with
  | some h => if h < c.thisHold then c.thisHold - h else s.spdNominal n
  | none => s.spdNominal n

/-- The interval of a speed step, from the hold of the previous one. -/
def State.spdT (s : State) (n : AxisId) : Word := secs (s.spdCp n)

/-- Units of `Accrual.energy` in a mWh. -/
def energyUnit : Nat := 1440000000 * 2 ^ 299

/-- ENERGY_MWH: 1.5 (v_d i_d + v_q i_q) T_s, where it is positive, added exactly (18 R488). -/
def State.noteEnergy (s : State) (n : AxisId) : State :=
  let x (j k : Nat) : Int := if isFinite (s.e n j k) then F32.at_ (s.e n j k) (-149) else 0
  let p := 3 * (x 5 2 * x 1 0 + x 5 3 * x 1 1)
  let e := p.toNat * s.spdCp n
  s.accrue n fun a => { a with energy := Nat.min (a.energy + e) (2 ^ 64 * energyUnit - 1) }

/-- E8 on the reference `ref`, E8.0 or the ramp of a stop, of which E8.0 is clamped. `bump` sets its integral so that i_dem is the present i_q reference. -/
def State.e8 (s : State) (n : AxisId) (t ref : Word) (ramp bump : Bool) : State :=
  let s := s.readParams n 8
  let c := (s.axis n).ch
  let kt := fmul (fmul (lit 3 2) (ofInt (s.param n 3 68).toNat)) (s.param n 3 67)
  let j := s.param n 8 66
  let wm := s.e n 4 3
  let mx := s.param n 8 69
  let err := fsub (if ramp then ref else clampF (negate mx) mx ref) wm
  let aff := if c.mode = .position then s.e n 10 0 else 0#32
  let bw := s.param n 8 67
  let x := fsub (fmul kt c.iqPrev) (fdiv (fmul j (fsub wm c.wmPrev)) t)
  let tau := if isZero bw then 0#32 else lowPass (s.own n 8 2) x t (fdiv fOne (fmul twoPi bw))
  let rest := fadd (fdiv tau kt) (fdiv (fmul j aff) kt)
  let xi := if bump then fsub (fsub (s.e n 5 1) rest) (fmul (s.param n 8 64) err) else c.xi
  let idem := fadd (fadd (fadd (fmul (s.param n 8 64) err) xi) (fdiv tau kt)) (fdiv (fmul j aff) kt)
  let xi := if c.limited then xi else fadd xi (fmul (fmul (s.param n 8 65) err) t)
  let s := ((s.setE n 8 1 idem).setOut n 8 2 tau).setE n 8 3 err
  s.modCh n fun c => { c with xi := xi }

/-- tan(π f t) for the prewarping of a section. -/
def State.warp (s : State) (i : Nat) (f t : Word) : Word :=
  let th := toTurns (fmul (fmul f t) fHalf)
  fdiv (s.sinT i th) (s.cosT (i + 1) th)

/-- One second-order section of E11 in the direct form, on its four memories (x1, x2, y1, y2). -/
def biquad (b0 b1 b2 a0 a1 a2 x : Word) (m : Word × Word × Word × Word) : Word × (Word × Word × Word × Word) :=
  let y := fdiv (fsub (fsub (fadd (fadd (fmul b0 x) (fmul b1 m.1)) (fmul b2 m.2.1)) (fmul a1 m.2.2.1)) (fmul a2 m.2.2.2)) a0
  (y, (x, m.1, y, m.2.2.1))

/-- A frequency word of E11: f of a notch, or LP_FC. -/
def isFreq (k : Nat) : Bool := k = 64 || k = 67 || k = 70 || k = 73 || k = 76

/-- A frequency is below 0.45 times the speed-step rate of the nominal interval `cp` in force (06 R190), exactly. -/
def freqOk (cp : Nat) (v : Word) : Bool :=
  isFinite v && decide (F32.at_ v (-149) * 100 * cp < 45 * 400000000 * 2 ^ 149)

/-- A frequency word of E11 that the rate in force refuses (06 R190). -/
def State.freqBad (s : State) (n : AxisId) (k : Nat) : Bool := isFreq k && !freqOk (s.spdNominal n) (s.ranged n 11 k)

/-- A frequency word of E11 with the 0.45 limit of the rate in force: a value at or above it is not used, and the word's
last good value stands, 0 if there is none. A last good value that a slower rate refuses counts as none (06 R190;
DEDUCED, log entry 136). -/
def State.e11Freq (s : State) (n : AxisId) (k : Nat) : Word :=
  let v := s.ranged n 11 k
  let g := s.lastGood n 11 k
  let cp := s.spdNominal n
  if freqOk cp v then v else if freqOk cp g then g else 0#32

/-- One section of E11: a notch at words 64 + 3i, or the low-pass at word 76 for i = 4. -/
def State.e11Section (s : State) (n : AxisId) (t : Word) (i : Nat) (x : Word) : State × Word :=
  let k := if i < 4 then 64 + 3 * i else 76
  let f := s.e11Freq n k
  if isZero f then (s, x)
  else
    let e := (s.axis n).ch.e11
    let g (j : Nat) : Word := e.toList.getD (4 * i + j) 0#32
    let w := s.warp 0 f t
    let w2 := fmul w w
    let one := fOne
    let low := fmul fTwo (fsub w2 one)
    let r :=
      if i < 4 then
        let zz := fmul (fmul fTwo (s.param n 11 (k + 1))) w
        let zp := fmul (fmul fTwo (s.param n 11 (k + 2))) w
        biquad (fadd (fadd one zz) w2) low (fadd (fsub one zz) w2) (fadd (fadd one zp) w2) low (fadd (fsub one zp) w2) x
          (g 0, g 1, g 2, g 3)
      else
        let q := fmul (fsqrt fTwo) w
        biquad w2 (fmul fTwo w2) w2 (fadd (fadd one q) w2) low (fadd (fsub one q) w2) x (g 0, g 1, g 2, g 3)
    let put (v : Vector Word 20) (j : Nat) (y : Word) : Vector Word 20 := v.setIfInBounds (4 * i + j) y
    ((s.bumpBy 2).modCh n fun c => { c with
      e11 := put (put (put (put c.e11 0 r.2.1) 1 r.2.2.1) 2 r.2.2.2.1) 3 r.2.2.2.2 }, r.1)

def State.e11 (s : State) (n : AxisId) (t : Word) : State :=
  let s := s.readParams n 11 (s.freqBad n)
  let r := [0, 1, 2, 3, 4].foldl (fun (a : State × Word) i => a.1.e11Section n t i a.2) (s, s.e n 8 1)
  r.1.setE n 11 0 r.2

/-! E12 (06 R191, R192). -/

/-- A temperature of 1/16 °C as binary32 °C. -/
def celsius (v : BitVec 16) : Word := (F32.ofQ v.toInt 16 0).1

/-- T_amb of an axis. -/
def State.ambient (s : State) (n : AxisId) : Word :=
  let k := (s.param n 12 73).toNat
  if h : k < 16 then celsius (s.pwr.ntcT[k].setWidth 16) else lit 40 1

/-- T_die: driver-die sensor (n mod 8) / 2. -/
def State.dieTemp (s : State) (n : AxisId) : Word :=
  celsius ((s.bnk n.bank).temps.toList.getD (n.val % 8 / 2) 0#16)

/-- The thermal models and I_LIM. -/
def State.thermal (s : State) (n : AxisId) (t : Word) : State :=
  let tw := s.own n 12 3
  let i2 := fadd (fmul (s.e n 1 0) (s.e n 1 0)) (fmul (s.e n 1 1) (s.e n 1 1))
  let pcu := fmul (fmul (fmul (lit 3 2) (s.param n 3 64)) (fadd fOne (fmul (lit 393 100000) (fsub tw (lit 25 1))))) i2
  let tw' := fadd tw (fmul (fdiv t (s.param n 12 69)) (fsub pcu (fdiv (fsub tw (s.ambient n)) (s.param n 12 68))))
  let trip := s.param n 12 67
  let warn := s.param n 12 66
  let fmot := clampF 0#32 fOne (fdiv (fsub trip tw') (fsub trip warn))
  let tj := fadd (s.dieTemp n) (fmul (fdiv (fmul (s.param n 12 70) i2) fTwo) (s.param n 12 71))
  let fm := s.param n 12 72
  let tmax := if s.pwr.fanFail then F32.min fm (ofInt (bits s.pwr.fanCfg 31 24 : Nat)) else fm
  let ffet := clampF 0#32 fOne (fdiv (fsub tmax tj) (lit 10 1))
  let im := s.param n 12 64
  let ilim := F32.min im (F32.min (fmul im fmot) (fmul im ffet))
  let s := ((s.setOut n 12 3 tw').setE n 12 4 tj).setE n 12 0 ilim
  let s := s.modCh n fun c => { c with derated := lt fmot fOne || lt ffet fOne }
  if le trip tw' then s.raiseCond (axisSrc n 14) true
  else if lt tw' warn then s.raiseCond (axisSrc n 14) false else s

/-- The references of a start (07 R202): alignment on d, the ramp on q. -/
def State.startRefs (s : State) (n : AxisId) : Word × Word :=
  let c := (s.axis n).ch
  match c.start with
  | .align =>
    let el := secs (s.cref - c.startAt : Nat)
    let f := F32.min fOne (fdiv (fmul (lit 4 1) el) (wordAt c.startRec 8))
    (fmul (s.attemptI n) f, 0#32)
  | .ramp =>
    let i := s.clampI n (wordAt c.startRec 16)
    (0#32, if s.backward n then negate i else i)
  | .none | .wait => (0#32, 0#32)

/-- The current requests of a running or stopping axis (06 R191 step 1; 07 R208), before step 2. -/
def State.requests (s : State) (n : AxisId) : Word × Word :=
  let c := (s.axis n).ch
  let e8 := c.st = .stopping
  let iq :=
    match c.mode with
    | .torque => if e8 then s.e n 8 1 else s.refWordOf n 12 16
    | .fan => s.e n 8 1
    | .speed | .position => s.e n 11 0
  (s.refWordOf n 12 17, fadd iq (s.e n 7 0))

/-- Step 2 of R191: R162 on the requests. One that is not finite is not used; the last good one stands, and
SIGNAL_RANGE is raised. -/
def State.checkRequests (s : State) (n : AxisId) (r : Word × Word) : State × Word × Word :=
  let g := (s.axis n).ch.goodReq
  let v : Word × Word := (if isFinite r.1 then r.1 else g[0], if isFinite r.2 then r.2 else g[1])
  let s := s.modCh n fun c => { c with goodReq := #v[v.1, v.2] }
  (if isFinite r.1 && isFinite r.2 then s else s.raise (axisSrc n 15), v)

/-- Steps 4 and 5 of R191 on i_d and i_q, with whether each acted. -/
def State.limitRefs (s : State) (n : AxisId) (r : Word × Word) : Word × Word × Bool × Bool :=
  let lim := s.e n 12 0
  let id := clampF (s.param n 12 65) 0#32 r.1
  let q := fsqrt (F32.max 0#32 (fsub (fmul lim lim) (fmul id id)))
  let iq := clampF (negate q) q r.2
  let k := fmul (fmul (lit 3 2) (s.e n 4 1)) (s.param n 3 67)
  let share := s.refWordOf n 12 1
  let regen := lt (fmul k iq) share
  (id, if regen then fdiv share k else iq, id ≠ r.1 || iq ≠ r.2, regen)

/-- E12's references with their limits (06 R191 steps 2 to 6). A start attempt and MOTOR_ID give their own currents,
held within I_LIM; the square wave of INERTIA and the chirp of RESONANCE add to i_q (07 R202; 08 R221, R223). -/
def State.references (s : State) (n : AxisId) : State :=
  let put (s : State) (id iq : Word) (lim regen : Bool) : State :=
    ((s.setE n 5 0 id).setE n 5 1 iq).modCh n fun c => { c with iqPrev := iq, limited := lim, regenLimited := regen }
  if (s.axis n).ch.st = .starting then
    let r := s.startRefs n
    put s r.1 r.2 false false
  else
    match s.sweepOn n with
    | some x =>
      if x.kind = .motorId then
        let lim := s.e n 12 0
        let r := x.motorRefs
        let id := clampF (negate lim) lim r.1
        let iq := clampF (negate lim) lim r.2
        put s id iq (id ≠ r.1 || iq ≠ r.2) false
      else
        let s := ((s.readRef n 12 16).readRef n 12 17).readRef n 12 1
        let c := s.checkRequests n (s.requests n)
        let s := c.1
        let base := s.limitRefs n c.2
        let r := s.limitRefs n (c.2.1, fadd c.2.2 (x.addIq s.cref))
        (put s r.1 r.2.1 r.2.2.1 r.2.2.2).sweepSpd n (fsub r.2.1 base.2.1)
    | none =>
      let s := ((s.readRef n 12 16).readRef n 12 17).readRef n 12 1
      let c := s.checkRequests n (s.requests n)
      let r := c.1.limitRefs n c.2
      put c.1 r.1 r.2.1 r.2.2.1 r.2.2.2

/-! Stopping, stall and tach at a speed step (07 R206, R208, R209, R216). -/

/-- The sign of a speed as ±1. -/
def sgn (v : Word) : Word := if lt v 0#32 then negate fOne else fOne

/-- The stop ramp and the counts of a stop. -/
def State.stopStep (s : State) (n : AxisId) (t : Word) : State :=
  let c := (s.axis n).ch
  let r := c.stopRec
  let wm := s.e n 4 3
  let dec := wordAt r 4
  let w := F32.max 0#32 (fsub (F32.abs c.wr) (fmul dec t))
  let w := F32.max w (fsub (F32.abs wm) (fmul dec (lit 1 100)))
  let low := le (F32.abs wm) (wordAt r 8)
  let short := c.shortBrake || (bits (wordAt r 0) 1 0 = 2 && le (F32.abs wm) (wordAt r 12))
  let s := s.modCh n fun c => { c with
    wr := fmul (sgn c.wStart) w, lowRun := if low then c.lowRun + 1 else 0, shortBrake := short }
  if short && !c.shortBrake then s.forceGates n else s

/-- The stall run (07 R206). -/
def State.stallRun (s : State) (n : AxisId) : State :=
  let c := (s.axis n).ch
  let r := s.stopRecord n
  let cur := le (fmul (wordAt r 24) (s.e n 12 0)) (F32.abs (s.e n 5 1))
  let spd := if s.param n 4 64 = 2#32 then lt (s.e n 3 1) (wordAt r 28) else lt (F32.abs (s.e n 4 3)) (wordAt r 20)
  if (c.st = .run || c.st = .stopping) && !c.hardBrake && cur && spd then
    s.modCh n fun c => { c with stallFrom := c.stallFrom.orElse fun _ => some c.thisHold }
  else (s.modCh n fun c => { c with stallFrom := none }).raiseCond (axisSrc n 10) false

/-- A tach edge seen by a hold ends a loss; while the conditions of TACH_LOSS fail no time runs towards it (07 R216;
DEDUCED, log entry 137). -/
def State.tachSeen (s : State) (n : AxisId) (cp : Nat) : State :=
  if (s.axis n).ch.mode = .fan && decide ((s.e n 0 28).toNat < cp) then
    (s.modCh n fun c => { c with tachAt := c.thisHold }).raiseCond (1152 + n.val) false
  else if s.tachWatched n then s else s.modCh n fun c => { c with tachAt := c.thisHold }

/-- SPEED_STEP (06 R164, R191). A position step falls due on a PCOUNT that is a multiple of POS_DIV times
as well. -/
def State.speedStep (s : State) (n : AxisId) : State :=
  if !s.axOn n || !s.enginesRun || (s.axis n).clu.role || (s.axis n).clu.recovering || !(s.axis n).ch.spdDue || s.epochHeld then s
  else
    let js : List EngId := if (s.axis n).ch.reduced then [12] else [8, 11, 12]
    s.stageInj n js fun s =>
    let s := s.activate n js
    let t := s.spdT n
    let cp := s.spdCp n
    let s := s.noteEnergy n
    let m := s.takeMode n
    let s := m.1
    let c := (s.axis n).ch
    let full := !c.reduced
    let stopRamp := c.st = .stopping && !c.shortBrake
    let s := if c.st = .stopping then s.stopStep n t else s
    let runs8 := full && c.st ≠ .starting && (c.mode ≠ .torque || stopRamp)
    let ref := if stopRamp then (s.axis n).ch.wr else s.refWordOf n 8 0
    let s := if runs8 then (if stopRamp then s else s.readRef n 8 0).e8 n t ref stopRamp m.2 else s
    let s := if runs8 && (c.mode = .speed || c.mode = .position) then s.e11 n t else s
    let s := (s.readParams n 12).thermal n t
    let s := s.references n
    let s := (s.stallRun n).tachSeen n cp
    let s := if full then s.readWords n [(9, 65)] else s
    let div := (bits (s.axis n).pwm.now.evt 7 4 + 1) * (s.param n 8 68).toNat * (s.param n 9 65).toNat
    s.modCh n fun c => { c with
      spdDue := false, put122 := none, lastSpd := some c.thisHold, wmPrev := s.e n 4 3
      posDue := c.posDue || (full && c.st ≠ .starting && c.thisPc.toNat % div = 0) }

def execSpeedStep (n : AxisId) (s : State) : Host.Outcome State Fault Refusal := .next (s.speedStep n)

/-! E10: segments (06 R188, R189; 11 R329). -/

/-- The check of a segment. -/
def segOk (g : List Byte) : Bool :=
  let d := wordAt g 20
  isFinite (wordAt g 8) && isFinite (wordAt g 12) && isFinite (wordAt g 16) && isFinite d &&
  le (lit 1 1000000) d && le d (lit 1000 1) && decide ((byteAt g 24).toNat ≤ 2) &&
  byteAt g 25 = 0#8 && byteAt g 26 = 0#8 && byteAt g 27 = 0#8 &&
  (byteAt g 24 = 1#8 || dwordAt g 32 = 0#64)

/-- A binary32 value as a whole number of 2^−149. -/
def q149 (w : Word) : Int := F32.at_ w (-149)

/-- To the nearest integer, ties to even. -/
def divRne (a : Int) (d : Nat) : Int :=
  let q := a / (d : Int)
  let r := a % (d : Int)
  if (d : Int) < 2 * r then q + 1 else if 2 * r < d then q else if q % 2 = 0 then q else q + 1

/-- round(p(τ)) with τ in cp, exactly (log entry 13). -/
def segPos (g : List Byte) (c : Nat) : Int :=
  let f : Int := 400000000
  let c : Int := c
  let den : Nat := 2 ^ 149 * 6 * 400000000 ^ 3
  divRne ((dwordAt g 0).toInt * den + q149 (wordAt g 8) * c * 6 * f ^ 2 + q149 (wordAt g 12) * c ^ 2 * 3 * f +
    q149 (wordAt g 16) * c ^ 3) den

/-- v(τ) × 2π / CPR and a(τ) × 2π / CPR, rounded once. -/
def segVel (g : List Byte) (c cpr : Nat) : Word :=
  let f : Int := 400000000
  let c : Int := c
  let v := q149 (wordAt g 8) * 2 * f ^ 2 + q149 (wordAt g 12) * c * 2 * f + q149 (wordAt g 16) * c ^ 2
  (F32.ofQ (v * F32.smant twoPi) (2 ^ 149 * 2 * 400000000 ^ 2 * cpr) (F32.ex twoPi)).1
def segAcc (g : List Byte) (c cpr : Nat) : Word :=
  let f : Int := 400000000
  let a := q149 (wordAt g 12) * f + q149 (wordAt g 16) * (c : Int)
  (F32.ofQ (a * F32.smant twoPi) (2 ^ 149 * 400000000 * cpr) (F32.ex twoPi)).1

/-- round(p(D)), exactly (06 R189). -/
def segEndPos (g : List Byte) : Int :=
  let d := q149 (wordAt g 20)
  let u : Int := 2 ^ 149
  divRne ((dwordAt g 0).toInt * 6 * u ^ 4 + q149 (wordAt g 8) * d * 6 * u ^ 2 + q149 (wordAt g 12) * d ^ 2 * 3 * u +
    q149 (wordAt g 16) * d ^ 3) (6 * 2 ^ 596)

/-- D of a segment in cp, rounded up. -/
def segDur (g : List Byte) : Nat :=
  ((q149 (wordAt g 20) * 400000000 + 2 ^ 149 - 1) / 2 ^ 149).toNat

/-- The head segment as CTM holds it. -/
def State.headSeg (s : State) (n : AxisId) : List Byte := s.ctmBytes n (s.segOff n 0) 40

/-- The head segment leaves the queue: its slot is zeroed. -/
def State.segPop (s : State) (n : AxisId) : State :=
  let s := s.ctmWrite n (s.segOff n 0) (List.replicate 40 0)
  let f := s.own n 10 3
  let s := s.setOut n 10 3 ((f &&& 0xFFFFF0FF#32) ||| fieldAt 8 ((s.segHead n + 1) % 16))
  s.setOut n 10 1 (s.own n 10 1 - 1#32)

/-- The head segment begins at CREF `t`. -/
def State.segBegin (s : State) (n : AxisId) (t : Nat) : State :=
  let g := s.headSeg n
  let s := (s.setOut n 10 2 (wordAt g 28)).setOut n 10 3 (s.own n 10 3 &&& 0xFFFFFFFE#32)
  s.modCh n fun c => { c with seg := some { seg := g, beganAt := t, ended := none } }

/-- E9.0, E9.1. -/
def State.setRef (s : State) (n : AxisId) (l : Int) : State :=
  let d : Dword := BitVec.ofInt 64 l
  (s.setE n 9 0 (lo32 d)).setE n 9 1 (hi32 d)

/-- A segment of the queue's head that fails the check is discarded, up to `fuel` of them. -/
def State.segDiscard (s : State) (n : AxisId) : Nat → State
  | 0 => s
  | fuel + 1 =>
    if s.segDepth n = 0 || segOk (s.headSeg n) then s
    else State.segDiscard (((s.segPop n).setOut n 10 3 ((s.segPop n).own n 10 3 ||| 2#32)).raise (axisSrc n 15)) n fuel

/-- The head begins where its START lets it (06 R188). One with START 1 whose START_TIME has passed begins at the step
at which it comes to the head, the step that ends its predecessor among them (DEDUCED, log entry 159). -/
def State.segTry (s : State) (n : AxisId) : State :=
  let s := s.segDiscard n 16
  if s.segDepth n = 0 then s
  else
    let g := s.headSeg n
    match (byteAt g 24).toNat with
    | 0 => s.segBegin n s.cref
    | 1 => if (dwordAt g 32).toNat ≤ s.alm.time.toNat then s.segBegin n s.cref else s
    | _ => s

/-- SEGMENT_END where τ has reached D. -/
def State.segEnd (s : State) (n : AxisId) : State :=
  match (s.axis n).ch.seg with
  | none => s
  | some r =>
    let g := s.headSeg n
    if r.ended.isSome || s.cref - r.beganAt < segDur g then s
    else
      let p := segEndPos g
      let s := (s.segPop n).modCh n fun c => { c with seg := some { r with ended := some p } }
      if s.segDepth n = 0 then s.setOut n 10 3 (s.own n 10 3 ||| 1#32) else s

/-- E10 holds p(D) (06 R160, R189): it writes E9.0, E9.1, E9.3 and E10.0 at every activation. -/
def State.segHold (s : State) (n : AxisId) (p : Int) : State :=
  ((s.setRef n p).setE n 9 3 0#32).setOut n 10 0 0#32

/-- E10's outputs are written over again (06 R161). -/
def State.segShow (s : State) (n : AxisId) : State :=
  (((s.publish n 10 0).publish n 10 1).publish n 10 2).publish n 10 3

/-- E10 at a position step, on the running segment as its slot holds it (06 R188). -/
def State.e10 (s : State) (n : AxisId) : State :=
  let s := s.segEnd n
  let running := match (s.axis n).ch.seg with | some r => r.ended.isNone | none => false
  let s := (if running then s else s.segTry n).segShow n
  match (s.axis n).ch.seg with
  | some r =>
    match r.ended with
    | some p => s.segHold n p
    | none =>
      let c := s.cref - r.beganAt
      let cpr := (s.param n 4 73).toNat
      let g := s.headSeg n
      ((s.setRef n (segPos g c)).setE n 9 3 (segVel g c cpr)).setOut n 10 0 (segAcc g c cpr)
  | none => s

/-- E9 (06 R187): the following error and the speed reference. E9.3 is an input, no reference word of R160; one that is
not finite counts as 0 and raises nothing (DESIGN CHOICE, log entry 159). -/
def State.e9 (s : State) (n : AxisId) : State :=
  let s := s.readParams n 9
  let dl := ((join64 (s.e n 9 1) (s.e n 9 0)) - (join64 (s.e n 4 8) (s.e n 4 7))).toInt
  let cpr := (s.param n 4 73).toNat
  let kp := s.param n 9 64
  let p := (F32.ofQ (F32.smant kp * dl * F32.smant twoPi) cpr (F32.ex kp + F32.ex twoPi)).1
  let w := fadd p (s.refWordOf n 9 3)
  let mx := s.param n 8 69
  let sat := if dl < -2147483648 then -2147483648 else if 2147483647 < dl then 2147483647 else dl
  (s.setE n 9 2 (BitVec.ofInt 32 sat)).setE n 8 0 (clampF (negate mx) mx w)

/-- POSITION_STEP (06 R164, R166, R187 to R189): E10, then E9, in POSITION mode; both are idle in STARTING, and E9
on the ramp of a stop (07 R202, R208). -/
def State.positionStep (s : State) (n : AxisId) : State :=
  let c := (s.axis n).ch
  if !s.axOn n || !s.enginesRun || (s.axis n).clu.role || (s.axis n).clu.recovering || !c.posDue || s.epochHeld then s
  else
    s.stageInj n [9, 10] fun s =>
    let s := (s.activate n [9, 10]).modCh n fun c => { c with posDue := false }
    if c.mode = .position && c.st ≠ .starting && !c.reduced then
      if c.st = .stopping && !c.shortBrake then s.e10 n else (s.e10 n).e9 n
    else s

def execPositionStep (n : AxisId) (s : State) : Host.Outcome State Fault Refusal := .next (s.positionStep n)

end Sys2Proof.Machine
end

