-- ==== Sys2Proof/Machine/Governor.lean ====
section
/-! DEFINITION. The regen governor: the share loop, its mask, and the end of a hard short brake (07 R211
to R214, R218). -/

namespace Sys2Proof.Machine

open F32 (fadd fsub fmul fdiv ofInt lit lt negate)

/-- The greatest VIN_AVG of the powered banks, in codes of 25 mV. -/
def State.govV (s : State) : Nat :=
  allBanks.foldl (fun v b => if s.bankOn b then Nat.max v (s.bnk b).vinAvg.toNat else v) 0

/-- The registers that the tick takes (07 R218): VIN_HARD alone waits for a STATUS frame. -/
def Gov.take (g : Gov) : Gov :=
  { g with ctrlNow := g.ctrl, lvlNow := maskWrite g.lvlNow g.lvl 0x00000FFF#32, cfgNow := g.cfg, brkNow := g.brk }

/-- An axis that the loop shares among: RUN, STARTING or STOPPING. -/
def State.shares (s : State) (n : AxisId) : Bool :=
  s.axOn n && !(s.axis n).clu.role &&
  ((s.axis n).ch.st = .run || (s.axis n).ch.st = .starting || (s.axis n).ch.st = .stopping)

/-- 1.5 × ω_e × ψ_m × i. -/
def State.govPower (s : State) (n : AxisId) (i : Word) : Word :=
  fmul (fmul (fmul (lit 3 2) (s.e n 4 1)) (s.param n 3 67)) i

/-- r_i: the regen request of an axis, from step 1 of R191. -/
def State.govRequest (s : State) (n : AxisId) : Word :=
  if s.shares n then F32.max 0#32 (negate (s.govPower n (s.requests n).2)) else 0#32

/-- p_brk: the power that the choppers in GOVERNOR mode can take. -/
def State.govBrk (s : State) : Word :=
  allBanks.foldl (fun p b =>
    let k := s.bnk b
    if s.bankOn b && bits k.brkIn 1 0 = 1 then
      let on := Nat.max 1 (bits k.brkIn 15 8)
      let off := Nat.max 1 (bits k.brkIn 23 16)
      fadd p (fdiv (fmul (ofInt (bits s.gov.brkNow[b] 15 0 : Nat)) (ofInt (on : Nat))) (ofInt (on + off : Nat)))
    else p) 0#32

/-- p_allow. -/
def State.govAllow (s : State) : Word :=
  let mot := (s.present.filter s.shares).foldl
    (fun p n => fadd p (F32.max 0#32 (s.govPower n (s.e n 5 1)))) 0#32
  let v := fsub (F32.ofQ (s.govV : Nat) 40 0).1 (F32.ofQ (bits s.gov.lvlNow 11 0 : Nat) 40 0).1
  F32.max 0#32 (fsub (fadd mot s.govBrk) (fmul (ofInt (bits s.gov.cfgNow 15 0 : Nat)) v))

/-- The share written while the loop is inactive, −3.4 × 10^38 W. -/
def noShare : Word := lit (-34 * 10 ^ 37) 1

/-- The shares of an active tick. -/
def State.govShares (s : State) : State :=
  let axes := s.present.filter s.shares
  let sum := axes.foldl (fun r n => fadd r (s.govRequest n)) 0#32
  let allow := s.govAllow
  axes.foldl (fun t n =>
    t.setE n 12 1 (negate (if lt 0#32 sum then fdiv (fmul allow (s.govRequest n)) sum else 0#32))) s

/-- The regen mask of a tick (07 R213). -/
def State.govMask (s : State) : Dword :=
  (s.present.filter s.axOn).foldl (fun m n =>
    if lt 0#32 (s.govRequest n) || lt (s.govPower n (s.e n 5 1)) 0#32 then m ||| axisMask n else m) 0#64

/-- Whether the loop is active after this tick, and the run of ticks below VIN_SOFT − 1.0 V. -/
def State.govActive (s : State) : Bool × Nat :=
  let v := s.govV
  let soft := bits s.gov.lvlNow 11 0
  let low := if v + 40 < soft then s.gov.low + 1 else 0
  if !bit s.gov.ctrlNow 0 then (false, 0)
  else if s.gov.active then (decide (low < 10), low)
  else (decide (soft ≤ v), 0)

/-- GOV_PERIOD in cp, of the period in force: 10 µs per step, codes below 2 as 2 and above 100 as 100 (07 R218). -/
def Gov.period (g : Gov) : Nat := us 10 * Nat.max 2 (Nat.min 100 (bits g.ctrlNow 7 1))

/-- T_HARD in cp, code 0 as 1 (07 R218). -/
def Gov.tHard (g : Gov) : Nat := ms (Nat.max 1 (bits g.cfgNow 31 24))

/-- GOV_TICK (07 R212, R213), GOV_PERIOD or more after the last one: the mask is frozen while a hard reaction runs, and
its write then leaves its value (DEDUCED, log entry 137). -/
def State.govTick (s : State) : State :=
  if !(s.sup = .ready) || decide (s.cref < s.gov.tickAt + s.gov.period) then s
  else
    let s := s.modGov fun g => { g.take with tickAt := s.cref, maskAt := s.cref, stale := false }
    let was := s.gov.active
    let a := s.govActive
    let s := s.modGov fun g => { g with active := a.1, low := a.2 }
    let s := if s.gov.hard then s else
      let m := s.govMask
      s.modGov fun g => { g with mask := m }
    if a.1 then s.govShares
    else if was then (s.present.filter fun n => s.axOn n && !(s.axis n).clu.role).foldl (fun s n => s.setE n 12 1 noShare) s
    else s

def execGovTick (s : State) : Host.Outcome State Fault Refusal := .next s.govTick

/-- GOV_MASK_STALE (07 R213): the mask has not been written for 4 × GOV_PERIOD. -/
def execGovMaskStale (s : State) : Host.Outcome State Fault Refusal :=
  .next (if s.gov.maskAt + 4 * s.gov.period ≤ s.cref then s.modGov fun g => { g with stale := true } else s)

/-- HARD_BRAKE_END (07 R214), once T_HARD has passed. Below VIN_HARD − HARD_HYST the episode ends and each axis is
released at its next zero; otherwise the brake is extended by T_HARD. -/
def execHardBrakeEnd (s : State) : Host.Outcome State Fault Refusal :=
  .next (
    if !s.gov.hard || decide (s.cref < s.gov.hardAt + s.gov.tHard) then s
    else if decide (s.govV + 4 * bits s.gov.cfgNow 23 16 < bits s.gov.lvlNow 27 16) then
      (s.modGov fun g => { g with hard := false }).forAxes allAxes fun n s =>
        if (s.axis n).ch.hardBrake then s.modCh n fun c => { c with hardRelease := true } else s
    else s.modGov fun g => { g with hardAt := g.hardAt + g.tHard })

end Sys2Proof.Machine
end

