-- ==== Sys2Proof/Machine/Vendor.lean ====
section
/-! DEFINITION. Loading the vendor chain of a cluster: parameters, records and Patterns (06 R166, R192; 07
R198 to R200; 08 R226, R227, R231; 09 R267), and the checks made before an axis leaves HOLD (06 R168). -/

namespace Sys2Proof.Machine

open F32 (lit le isFinite)

/-! The start and stop records (07 R198 to R200). -/

/-- A binary32 field within a range. -/
def fieldIn (bs : List Byte) (i : Nat) (lo hi : Word) : Bool :=
  isFinite (wordAt bs i) && le lo (wordAt bs i) && le (wordAt bs i) hi

/-- A start record within R199. -/
def startOk (r : List Byte) : Bool :=
  let f := wordAt r 0
  r.length = 48 && decide (bits f 1 0 ≤ 2) && decide (bits f 3 2 ≤ 2) && decide (1 ≤ bits f 7 4) && decide (bits f 7 4 ≤ 8) &&
  bits f 31 8 = 0 && fieldIn r 4 0#32 (lit 400 1) && fieldIn r 8 (lit 1 1000) (lit 5 1) && fieldIn r 16 0#32 (lit 400 1) &&
  fieldIn r 20 (lit 1 1) (lit 1000000 1) && fieldIn r 24 (lit 1 1) (lit 10000 1) && fieldIn r 28 (lit 1 10) (lit 1 1) &&
  fieldIn r 32 0#32 (lit 360 1) && fieldIn r 36 (lit 1 100) (lit 60 1) && fieldIn r 40 (lit 1 100) (lit 10 1) && wordAt r 44 = 0#32

/-- A stop record within R200. -/
def stopOk (r : List Byte) : Bool :=
  let f := wordAt r 0
  r.length = 48 && decide (bits f 1 0 ≤ 2) && (f &&& 0xFFFFFFEC#32) = 0#32 && fieldIn r 4 (lit 1 10) (lit 1000000 1) &&
  fieldIn r 8 0#32 (lit 1000 1) && fieldIn r 12 0#32 (lit 10000 1) && fieldIn r 16 (lit 1 100) (lit 600 1) &&
  fieldIn r 20 0#32 (lit 1000 1) && fieldIn r 24 (lit 1 10) (lit 1 1) && fieldIn r 28 0#32 (lit 1 1) &&
  fieldIn r 32 (lit 1 100) (lit 60 1) && fieldIn r 36 (lit 1 100) (lit 10 1) && fieldIn r 40 0#32 (lit 10000 1) && wordAt r 44 = 0#32

/-- The default start record. -/
def startDflt : List Byte :=
  [0x31#32, lit 1 1, lit 1 10, 0#32, lit 1 1, lit 1000 1, lit 200 1, lit 7 10, lit 90 1, lit 2 1, lit 1 10, 0#32].flatMap wordBytes

/-- The default stop record. -/
def stopDflt : List Byte :=
  [0#32, lit 100 1, lit 1 1, lit 10 1, lit 10 1, lit 1 2, lit 95 100, lit 3 10, lit 1 1, lit 1 2, lit 50 1, 0#32].flatMap wordBytes

/-- A stored record: the words of the settings, whose place the spec does not give, where they are in
range, else the default. `k` is 0 for the start record and 1 for the stop record. -/
def State.storedRecord (s : State) (n : AxisId) (k : Nat) : List Byte :=
  let r := (List.range 12).flatMap fun i => wordBytes (Config.settingsWord (2 ^ 20 + 64 * n.val + 32 * k + i))
  let ok := if k = 0 then startOk r else stopOk r
  if !s.img.inUse.isEmpty && ok then r else if k = 0 then startDflt else stopDflt

/-! The vendor chain. -/

/-- The engines that hold the vendor chain. -/
def vendorEngines : List EngId := (List.finRange 16).filter fun j => decide (j.val < 14)

/-- The chain of a cluster as it begins: what belongs to the axis or its bank is kept. -/
def Chain.fresh (c : Chain) : Chain :=
  { st := c.st, holdAt := c.holdAt, calDone := c.calDone, gain13 := c.gain13, carry := c.carry }

/-- Parameters, records and Patterns are reapplied to a loaded chain: E13's copy of R_SHUNT with E0.64,
E4.73 as FBK_CPR has it, no regen limit, and the winding at ambient (06 R178, R192, R193; 07 R212). -/
def State.reapply (s : State) (n : AxisId) : State :=
  let js := if (s.axis n).ch.reduced then [0, 3, 4, 5, 6, 12, 13] else [0, 3, 4, 5, 6, 7, 8, 9, 11, 12, 13]
  let s := js.foldl (fun s j => s.loadParams n j) s
  let s := s.setE n 4 73 (fieldAt 0 (s.axis n).fbk.cprVal)
  let s := s.setE n 0 34 (fieldAt 0 (bits (s.axis n).sns.cfgIn 1 0))
  let s := s.modCh n fun c => { c with rShunt13 := s.e n 0 64, gain13 := (s.axis n).sns.cfgIn.setWidth 2 }
  let s := s.setE n 12 1 noShare
  let s := s.setOut n 12 3 (s.ambient n)
  let s := (s.ctmWrite n 0x1280 (s.storedRecord n 0)).ctmWrite n 0x12B0 (s.storedRecord n 1)
  s.loadPatterns n

/-- The vendor chain is loaded into a zeroed cluster and started (09 R267, steps 5 and 6). -/
def State.loadVendor (s : State) (n : AxisId) : State :=
  let s := s.modClu n fun c => { c with
    eng := c.eng.mapFinIdx fun i x _ => if i < 14 then { x with st := .waiting, loaded := true } else x }
  let s := (s.modCh n Chain.fresh).setBudgets n
  s.reapply n

/-! Leaving HOLD (06 R168). -/

/-- MODE is allowed with SOURCE (06 R166). -/
def State.modeSource (s : State) (n : AxisId) (m : AxMode) : Bool :=
  let obs := s.param n 4 64 = 2#32
  match m with | .fan => obs | .position => !obs | .torque | .speed => true

/-- CPR matches SOURCE: E4.73 is FBK_CPR with FBK or FUSED, and 2^24 with WORD (06 R178; DEDUCED). -/
def State.cprSource (s : State) (n : AxisId) : Bool :=
  let cpr := (s.param n 4 73).toNat
  match (s.param n 4 64).toNat with
  | 0 | 3 => cpr = (s.axis n).fbk.cprVal
  | 1 => cpr = 2 ^ 24
  | _ => true

/-- The first of the conditions 1 to 6 that fails on axis n for mode m: its REFUSE code and status. PER is
judged as the shadow holds it, which governs once the axis runs (DEDUCED). -/
def State.exitCheck (s : State) (n : AxisId) (m : AxMode) : Option (Nat × Status) :=
  let a := s.axis n
  let c (bad : Bool) (code : Nat) (st : Status) : Option (Nat × Status) := if bad then some (code, st) else none
  let all := [
    c (a.pwm.shadow.per.toNat < (if a.ch.reduced then 500 else 1000)) 1 .badArg,
    c (!(s.bnk n.bank).trimOk) 2 .faulted,
    c (!a.ch.calDone || a.sns.ofsBad ≠ 0) 3 .faulted,
    c (!s.gateEn n || a.gdr.latches ≠ 0) 4 .faulted,
    c (!s.sourceValid n) 5 .faulted,
    c (!a.sns.trigSel 0 || (a.pwm.updMode = 2 && !a.sns.trigSel 1) || !s.modeSource n m || !s.cprSource n) 6 .badArg]
  all.findSome? id

/-- A refusal writes REFUSE. -/
def State.refuse (s : State) (n : AxisId) (code : Nat) : State :=
  s.modCh n fun c => { c with refuse := BitVec.ofNat 8 code }

/-- An axis that passes the checks begins to charge (06 R168, 04 R114); the halt mark goes (11 R330). -/
def State.charge (s : State) (n : AxisId) : State :=
  let s := s.modHst fun h => { h with halted := h.halted &&& ~~~ axisMask n }
  let s := s.accrue n fun a => { a with starts := satAdd (2 ^ 32 - 1) a.starts 1 }
  (s.modCh n fun c => { c with st := .charging }).modPwm n fun w => { w with
    charging := true, chargeZeros := 0, leaveHold := false }

end Sys2Proof.Machine
end

