-- ==== Sys2Proof/Machine/Fitting.lean ====
section
/-! DEFINITION. Fittings, Patterns, the coordination role and lens maps (08). -/

namespace Sys2Proof.Machine

open F32 (fmul ofInt lit lt le isFinite isZero)

/-! Patterns as a sweep leaves them (08 R223, R226 to R228). -/

/-- A byte string of an exact length. -/
def padTo (len : Nat) (bs : List Byte) : List Byte := (bs ++ List.replicate (len - bs.length) 0).take len

/-- The version of the running ECH image, as ECH_VER. -/
def State.echVer (s : State) : Word :=
  let b := s.img.bank[(if s.img.runBank.getLsbD 1 then 3 else 2 : Fin 6)]
  match b.hdr with
  | some h => fieldAt 16 h.major.toNat ||| fieldAt 8 h.minor.toNat ||| fieldAt 0 h.patch.toNat
  | none => 0#32

/-- The sweep of one axis of a Fitting as it stands. -/
def State.sweepOf (s : State) (f : Fit) (n : AxisId) : Sweep := (s.axis n).ch.sweep.getD (s.newSweep n f.kind f.op)

/-- The Pattern that a sweep gives for one axis of a Fitting. -/
def State.fitPattern (s : State) (f : Fit) (n : AxisId) (part : Bool) : Pattern :=
  let x := s.sweepOf f n
  let fl : BitVec 8 := BitVec.ofNat 8 ((if part then 1 else 0) + (if f.holdover then 4 else 0) +
    (if f.op.cross then 8 else 0) + (if s.aboveRate n x then 16 else 0))
  Pattern.seal ⟨([0x43, 0x59, 0x50, 0x54, 1, 0, BitVec.ofNat 8 (fitCode f.kind), fl] : List Byte) ++ wordBytes 0#32 ++
    wordBytes (fieldAt 0 n.val) ++ dwordBytes f.startTime ++ wordBytes f.op.setId ++ wordBytes s.echVer ++
    wordBytes (fieldAt 0 (fitLen f.kind)) ++ wordBytes (fieldAt 0 (s.axis n).fbk.cprVal) ++ List.replicate 24 0 ++
    padTo (fitLen f.kind) (s.sweepPayload n x)⟩

/-- A Pattern becomes pending, in place of any pending one of its axis and kind (08 R228). -/
def State.pendPat (s : State) (n : AxisId) (k : FitKind) (p : Pattern) : State :=
  s.modImg fun i => { i with pend := putPat i.pend n k (some p) }

/-- A Pattern as its commit writes it: GENERATION is one more than that of the last committed (08 R226). -/
def State.toCommit (s : State) (n : AxisId) (k : FitKind) (p : Pattern) : Pattern :=
  p.put 8 (wordBytes (match s.current n k with | some q => q.generation + 1#32 | none => 1#32))

/-- A commit (08 R226, R230, R231): the slot that is not current is written. Where it reads back right it is marked
current, the Pattern is pending no more, and it is loaded. -/
def State.commitPat (s : State) (n : AxisId) (k : FitKind) (p : Pattern) (good : Bool) : State :=
  let p := s.toCommit n k p
  let s := s.flashWork.modImg fun i => { i with store := putSlots i.store ((slotsOf i.store n k).commit p good) }
  if good then (s.modImg fun i => { i with pend := putPat i.pend n k none }).loadPattern n k p else s

/-- Commits one after another up to the first whose read-back fails, whose axis is given; `bad` names the axes on
which it fails. -/
def State.commitAll (s : State) (bad : Dword) : List PatKey → State × Option AxisId
  | [] => (s, none)
  | e :: l =>
    if bad.getLsbD e.axis.val then (s.commitPat e.axis e.kind e.pat false, some e.axis)
    else State.commitAll (s.commitPat e.axis e.kind e.pat true) bad l

/-! The FITTING descriptors (08 R219, R220, R237). -/

/-- The operands are within R219. -/
def fitArgs (k : FitKind) (op : FitOp) : Bool :=
  let len := op.len.toNat
  op.axes ≠ 0 && decide (op.almHoldover.toNat ≤ 255) &&
  isFinite op.iTest && le (lit 1 100) op.iTest && le op.iTest (lit 400 1) &&
  isFinite op.fitSpd && le 0#32 op.fitSpd && le op.fitSpd (lit 1000 1) &&
  isFinite op.travelMax && le 0#32 op.travelMax && le op.travelMax (lit (2 ^ 31) 1) &&
  (match k with
   | .ripple => decide (1 ≤ len) && decide (len ≤ 64)
   | .resonance => decide (100 ≤ len) && decide (len ≤ 60000)
   | .motorId | .inertia => len = 0)

/-- The MODE that a sweep needs (08 R223). -/
def fitMode : FitKind → AxMode
  | .motorId => .torque
  | .inertia | .ripple | .resonance => .speed

/-- Check 4 of R220 fails on an axis. -/
def State.fitSource (s : State) (k : FitKind) (op : FitOp) (n : AxisId) : Bool :=
  let obs := s.param n 4 64 = 2#32
  match k with
  | .ripple | .resonance => obs
  | .inertia => obs && lt (fmul op.fitSpd (ofInt (s.param n 3 68).toNat)) (wordAt (s.startRecord n) 24)
  | .motorId => false

/-- The checks 1 to 4 of R220, with a halt mark (11 R330) and the lateness of TIME (08 R237, 11 R323). -/
def State.fitChecks (s : State) (h : DescHdr) (k : FitKind) (op : FitOp) : Check :=
  let timed := h.flags.getLsbD 2
  let margin := if op.cross then 10000000 else 2000
  firstFail [
    failIf (!fitArgs k op || (op.cross && !timed)) .badArg,
    s.axesCheck op.axes,
    s.powerCheck,
    s.haltCheck op.axes,
    failIf ((axesOf op.axes).any fun n => s.inAnyFit n || (s.axis n).clu.role || (s.axis n).ch.st ≠ .hold) .conflict,
    failIf ((axesOf op.axes).any fun n => s.fitSource k op n) .badArg,
    failIf (timed && decide (h.time.toNat < s.alm.time.toNat + margin)) .aborted 1#32]

/-- The first of the named axes that does not pass R168, with its code and status (check 5). -/
def State.fitExit (s : State) (k : FitKind) (op : FitOp) : Option (AxisId × Nat × Status) :=
  (axesOf op.axes).findSome? fun n => (s.exitCheck n (fitMode k)).map fun e => (n, e.1, e.2)

/-- A FITTING descriptor: it is checked, waits with its axes, and untimed its axes charge at once
(DESIGN CHOICE, log entry 44). -/
def State.fitting (s : State) (h : DescHdr) (k : FitKind) (op : FitOp) (i : Instr) : State :=
  s.decode { h with flags := h.flags &&& 0xFB#8 } false false i (fun s => s.fitChecks h k op) fun s =>
    match s.fitExit k op with
    | some (n, code, st) => (s.refuse n code).done h st (fieldAt 0 code)
    | none =>
      let s := s.setAct h (.fitting k)
      let s := { s with fits := s.fits ++ [{ hdr := h, kind := k, op := op }] }
      let s := (axesOf op.axes).foldl (fun s n => s.modImg fun i => { i with pend := putPat i.pend n k none }) s
      if h.flags.getLsbD 2 then s else s.forAxes (axesOf op.axes) fun n s => s.charge n

def execMotorId (h : DescHdr) (op : FitOp) (s : State) : Host.Outcome State Fault Refusal :=
  .next (s.fitting h .motorId op (.motorId h op))
def execInertia (h : DescHdr) (op : FitOp) (s : State) : Host.Outcome State Fault Refusal :=
  .next (s.fitting h .inertia op (.inertia h op))
def execRipple (h : DescHdr) (op : FitOp) (s : State) : Host.Outcome State Fault Refusal :=
  .next (s.fitting h .ripple op (.ripple h op))
def execResonance (h : DescHdr) (op : FitOp) (s : State) : Host.Outcome State Fault Refusal :=
  .next (s.fitting h .resonance op (.resonance h op))

/-! The sweep (08 R220, R221, R228, R237 to R239). -/

/-- The Fitting of a descriptor. -/
def State.fitOf (s : State) (src : RingSrc) (tag : BitVec 16) : Option Fit :=
  s.fits.find? fun f => f.hdr.src = src && f.hdr.tag = tag

def State.modFit (s : State) (p : Fit → Bool) (f : Fit → Fit) : State := { s with fits := modFirst p f s.fits }

/-- One axis begins its sweep: STATE RUN in the MODE it needs, at FIT_SPD where that is SPEED. -/
def State.sweepAxis (s : State) (f : Fit) (n : AxisId) : State :=
  let x := s.newSweep n f.kind f.op
  let s := (s.modPwm n Pwm.toSafe).modCh n fun c => { c with
    st := .run, mode := fitMode f.kind, start := .none, xi := 0#32, sweep := some x }
  let s := if s.param n 4 64 = 2#32 then s else (s.setOut n 4 0 (s.e n 4 4)).setOut n 4 1 (s.startSpeed n)
  let s := if fitMode f.kind = AxMode.speed then s.setE n 8 0 f.op.fitSpd else s
  s.noteTorque n

/-- The longest time in ns that charging the axes of a Fitting can take: 64 zeros of its slowest axis (04 R114). -/
def State.chargeNs (s : State) (f : Fit) : Nat :=
  (axesOf f.op.axes).foldl (fun m n => Nat.max m (64 * 2 * (s.axis n).pwm.act.per.toNat * 5 / 2)) 0

/-- TIME of a Fitting has come, or comes within `early` ns; one without TIMED begins at once (08 R220, R237). -/
def State.fitTime (s : State) (f : Fit) (early : Nat) : Bool :=
  !f.hdr.flags.getLsbD 2 || decide (f.hdr.time.toNat ≤ s.alm.time.toNat + early)

/-- An axis of a Fitting is charged and free to sweep. -/
def State.fitReady (s : State) (n : AxisId) : Bool := (s.axis n).gdr.bstLive = 7#3 && !(s.axis n).sns.calRun

/-- A Fitting that waits for its start ends before it began. -/
def State.fitGiveUp (s : State) (f : Fit) (st : Status) (why : BitVec 8) : State :=
  let s := s.modFit (fun g => g.hdr.src = f.hdr.src && g.hdr.tag = f.hdr.tag) fun g => { g with ending := some (st, why) }
  (s.forAxes (axesOf f.op.axes) fun n s => s.uncharge n).settleFits

/-- FITTING_START: at the update point every named axis begins its sweep, once TIME has come and all are charged. Until
then those in HOLD charge, from 64 zeros before TIME on, where they still pass R168; where one does not, the Fitting
ends as R220 ends it (03 R79; DESIGN CHOICE, log entry 44). A CROSS sweep needs the Almanac out of holdover. -/
def State.fittingStart (s : State) (src : RingSrc) (tag : BitVec 16) : State :=
  match s.fitOf src tag with
  | none => s
  | some f =>
    let axes := axesOf f.op.axes
    let held := axes.filter fun n => (s.axis n).ch.st = .hold
    if f.started || f.ending.isSome || !s.fitTime f (s.chargeNs f) then s
    else if f.op.cross && s.fitTime f 0 && !(s.alm.st = .locked || s.alm.st = .master) then s.fitGiveUp f .aborted 5#8
    else
      match held.findSome? fun n => (s.exitCheck n (fitMode f.kind)).map fun e => (n, e.1, e.2) with
      | some (n, code, st) => (s.refuse n code).fitGiveUp f st (BitVec.ofNat 8 code)
      | none =>
        if axes.any (fun n => !s.fitReady n) || !s.fitTime f 0 then s.forAxes held fun n s => s.charge n
        else
          let s := s.modFit (fun g => g.hdr.src = src && g.hdr.tag = tag) fun g => { g with
            started := true, startTime := s.alm.time, startL := axes.map fun n => (n, s.linear n)
            prevMode := axes.map fun n => (n, (s.axis n).ch.mode) }
          s.forAxes axes fun n s => s.sweepAxis f n

def execFittingStart (src : RingSrc) (tag : BitVec 16) (s : State) : Host.Outcome State Fault Refusal :=
  .next (s.fittingStart src tag)

/-- The Pattern that a sweep leaves for one axis. -/
def State.leavePattern (s : State) (f : Fit) (part : Bool) (n : AxisId) : State :=
  s.pendPat n f.kind (s.fitPattern f n part)

/-- The sweep of every axis of a Fitting has come to its end. -/
def State.sweepsOver (s : State) (f : Fit) : Bool := (axesOf f.op.axes).all fun n => (s.axis n).ch.sweep.any fun x => x.over_

/-- SWEEP_COMPLETE, once every axis has ended its sweep: a pending Pattern for each axis, committed at once with COMMIT;
the axes stop. A Pattern whose read-back fails stays pending (DEDUCED, log entry 138). -/
def State.sweepComplete (s : State) (src : RingSrc) (tag : BitVec 16) (bad : Dword) : State :=
  match s.fitOf src tag with
  | none => s
  | some f =>
    if !f.started || f.ending.isSome || !s.sweepsOver f then s
    else
      let axes := axesOf f.op.axes
      let s := axes.foldl (fun s n => s.leavePattern f false n) s
      let s := if f.op.commit then axes.foldl (fun s n =>
          match findPat s.img.pend n f.kind with | some p => s.commitPat n f.kind p (!bad.getLsbD n.val) | none => s) s
        else s
      let s := s.modFit (fun g => g.hdr.src = src && g.hdr.tag = tag) fun g => { g with ending := some (.ok, 0#8) }
      (s.forAxes axes fun n s => s.beginStop n).settleFits

def execSweepComplete (src : RingSrc) (tag : BitVec 16) (bad : Dword) (s : State) :
    Host.Outcome State Fault Refusal := .next (s.sweepComplete src tag bad)

/-- A running sweep ends early, steps 1 to 3 of R238: its axes stop, its Patterns are pending with PARTIAL
and HOLDOVER, and it completes PARTIAL with the reason. -/
def State.fitPartial (s : State) (p : Fit → Bool) (why : BitVec 8) : State :=
  (s.fits.filter fun f => f.started && f.ending.isNone && p f).foldl (fun s f =>
    let axes := axesOf f.op.axes
    let s := axes.foldl (fun s n => s.leavePattern { f with holdover := true } true n) s
    let s := s.modFit (fun g => g.hdr.src = f.hdr.src && g.hdr.tag = f.hdr.tag) fun g => { g with
      ending := some (.partialRes, why), holdover := true }
    (s.forAxes axes fun n s => s.beginStop n).settleFits) s

/-- ALM_HOLDOVER of a Fitting in reference intervals; 0 acts as 10 (08 R219). -/
def Fit.holdIntervals (f : Fit) : Nat := if f.op.almHoldover = 0#16 then 10 else f.op.almHoldover.toNat

/-- References have returned since holdover began. -/
def State.refsBack (s : State) : Bool := s.alm.stamps.any fun l => l.stamped && decide (s.alm.holdAt < l.at_)

/-- A CROSS sweep in holdover without a reference for ALM_HOLDOVER intervals, or at ALM_LOST (08 R238). -/
def State.holdoverOver (s : State) (f : Fit) : Bool :=
  f.op.cross && f.holdover &&
  (s.alm.st = AlmSt.lost || (s.alm.st = AlmSt.holdover && !s.refsBack &&
    decide (s.alm.holdAt + f.holdIntervals * ms s.alm.interval ≤ s.cref)))

/-- ALM_HOLDOVER_EXPIRY (08 R238). -/
def execAlmHoldoverExpiry (src : RingSrc) (tag : BitVec 16) (s : State) : Host.Outcome State Fault Refusal :=
  .next (s.fitPartial (fun f => f.hdr.src = src && f.hdr.tag = tag && s.holdoverOver f) 5#8)

/-! The Pattern descriptors (08 R228 to R230, R236). -/

/-- Operands of PATTERN_COMMIT and PATTERN_DISCARD are in their ranges. -/
def selectOk (select axis kind : BitVec 8) (setId : Word) : Bool :=
  (select = 0 && axis = 0 && kind = 0) ||
  (select = 1 && decide (axis.toNat < 64) && (kindOf? kind).isSome && setId = 0#32)

/-- The pending Patterns that a SELECT names. -/
def State.selected (s : State) (select axis kind : BitVec 8) (setId : Word) : List PatKey :=
  s.img.pend.filter fun e =>
    if select = 0 then e.pat.setId = setId
    else decide (e.axis.val = axis.toNat) && decide (some e.kind = kindOf? kind)

/-- The checks that PATTERN_COMMIT and PATTERN_DISCARD share. -/
def State.selectCheck (s : State) (select axis kind : BitVec 8) (setId : Word) : Check :=
  firstFail [failIf (!selectOk select axis kind setId) .badArg, if select = 1 then s.axisCheck axis else none]

/-- The refitted ripple Pattern as CTM holds it, under the header and coverage it grew from, with REFIT, SET_ID 0. -/
def State.ctmPattern (s : State) (n : AxisId) : Pattern :=
  let old := padTo 192 (s.axis n).clu.ripHdr
  let bins := (List.range 1024).flatMap fun b => wordBytes (s.ripBin n b)
  let hdr := old.take 7 ++ [byteAt old 7 ||| 0x02#8] ++ (old.take 24).drop 8 ++ wordBytes 0#32 ++ old.drop 28
  Pattern.seal { bytes := hdr ++ bins }

/-- A ripple Pattern is loaded in CTM: E7.1 LOADED, as E7 keeps it. -/
def State.ripLoaded (s : State) (n : AxisId) : Bool := !(s.axis n).clu.role && bit (s.own n 7 1) 0

/-- PATTERN_COMMIT with FROM_CTM (08 R229, R236): the Pattern becomes P₀, also where its load is skipped. -/
def State.commitCtm (s : State) (h : DescHdr) (axis kind : BitVec 8) (bad : Dword) (i : Instr) : State :=
  s.decodeNow h false i (fun s => firstFail [failIf (kind ≠ 2) .badArg, s.axisCheck axis,
      match axisOf? axis with | some n => failIf (!s.ripLoaded n) .conflict | none => none]) fun s =>
    match axisOf? axis with
    | none => s
    | some n =>
      let p := s.ctmPattern n
      if bad.getLsbD n.val then (s.commitPat n .ripple p false).done h .faulted (fieldAt 0 n.val)
      else ((s.commitPat n .ripple p true).setP0 n (s.toCommit n .ripple p)).done h .ok (fieldAt 8 1)

/-- PATTERN_COMMIT. -/
def State.patternCommit (s : State) (h : DescHdr) (select axis kind : BitVec 8) (setId : Word) (bad : Dword) : State :=
  let i : Instr := .patternCommit h select axis kind setId bad
  if select = 2 && setId = 0#32 then s.commitCtm h axis kind bad i
  else s.decodeNow h false i (fun s => s.selectCheck select axis kind setId) fun s =>
    let l := s.selected select axis kind setId
    if l.isEmpty then s.done h .conflict
    else if l.any fun e => e.pat.partial_ then s.done h .partialRes
    else
      match s.commitAll bad l with
      | (s, some n) => s.done h .faulted (fieldAt 0 n.val)
      | (s, none) => s.done h .ok (fieldAt 8 (l.length % 256))

def execPatternCommit (h : DescHdr) (select axis kind : BitVec 8) (setId : Word) (bad : Dword) (s : State) :
    Host.Outcome State Fault Refusal := .next (s.patternCommit h select axis kind setId bad)

def execPatternCommitCtm (h : DescHdr) (axis kind : BitVec 8) (bad : Dword) (s : State) : Host.Outcome State Fault Refusal :=
  .next (s.commitCtm h axis kind bad (.patternCommitCtm h axis kind bad))

/-- PATTERN_DISCARD. -/
def execPatternDiscard (h : DescHdr) (select axis kind : BitVec 8) (setId : Word) (s : State) :
    Host.Outcome State Fault Refusal :=
  .next (s.decodeNow h false (.patternDiscard h select axis kind setId)
    (fun s => s.selectCheck select axis kind setId) fun s =>
      let l := s.selected select axis kind setId
      (s.modImg fun i => { i with pend := i.pend.filter fun e => !l.contains e }).done h .ok (fieldAt 8 (l.length % 256)))

/-- The checks of PATTERN_WRITE, in its order. -/
def State.patternWriteCheck (s : State) (h : DescHdr) (len : Word) (d : List Byte) : Check :=
  match kindOf? (byteAt d 6) with
  | none => some (.badArg, 0#32)
  | some k =>
    let a := wordAt d 12
    firstFail [
      dataCheck h 4 len.toNat,
      failIf (len.toNat ≠ 64 + fitLen k || (wordAt d 32).toNat ≠ fitLen k || d.length ≠ len.toNat) .badArg,
      failIf (wordAt d 0 ≠ 0x54505943#32 || byteAt d 4 ≠ 1 || byteAt d 5 ≠ 0 || byteAt d 7 &&& 0xE0#8 ≠ 0 ||
        (d.drop 40).take 20 ≠ List.replicate 20 0) .badArg,
      failIf (wordAt d 60 ≠ crc32c (d.take 60 ++ d.drop 64)) .crc,
      failIf (decide (s.variant.axes ≤ a.toNat)) .absent,
      failIf (!s.axOn (Fin.ofNat 64 a.toNat)) .conflict,
      failIf (s.fits.any fun f => f.kind = k && f.op.axes.getLsbD a.toNat) .conflict]

def execPatternWrite (h : DescHdr) (len : Word) (data : List Byte) (s : State) : Host.Outcome State Fault Refusal :=
  .next (s.decodeNow h false (.patternWrite h len data) (fun s => s.patternWriteCheck h len data) fun s =>
    match kindOf? (byteAt data 6) with
    | none => s
    | some k => (s.pendPat (Fin.ofNat 64 (wordAt data 12).toNat) k { bytes := data }).done h .ok)

/-- The Pattern that a PATTERN_READ names. -/
def State.readPattern (s : State) (n : AxisId) (k : FitKind) (which : BitVec 8) : Option Pattern :=
  if which = 0 then s.current n k
  else if which = 1 then findPat s.img.pend n k
  else if s.ripLoaded n then some (s.ctmPattern n) else none

def execPatternRead (h : DescHdr) (axis kind which : BitVec 8) (addr : Dword) (maxLen : Word) (s : State) :
    Host.Outcome State Fault Refusal :=
  .next (s.decodeNow h false (.patternRead h axis kind which addr maxLen)
    (fun s => firstFail [
      failIf ((kindOf? kind).isNone || decide (2 < which.toNat) || (which = 2 && kind ≠ 2) || addr.toNat % 4 ≠ 0) .badArg,
      s.axisCheck axis])
    fun s =>
      match axisOf? axis, kindOf? kind with
      | some n, some k =>
        match s.readPattern n k which with
        | none => s.done h .conflict
        | some p =>
          let len := p.bytes.length
          match firstFail [failIf (decide (maxLen.toNat < len)) .badArg (fieldAt 0 len), spanCheck h.src addr len] with
          | some (st, info) => s.done h st info
          | none => (s.writeOut h.src addr p.bytes).done h .ok (fieldAt 0 len)
      | _, _ => s)

/-! The coordination role (08 R240, R241, R244). -/

/-- Descriptors pending on an axis. -/
def State.hasPending (s : State) (n : AxisId) : Bool :=
  s.hst.inflight.any fun d => d.act ≠ .done && pendingOn n d

/-- COORD_ROLE with SET 1: the cluster is zeroed, its sixteen engines are open, and its gates are off. -/
def execCoordRoleSet (h : DescHdr) (axis : BitVec 8) (s : State) : Host.Outcome State Fault Refusal :=
  .next (s.decodeNow h false (.coordRoleSet h axis)
    (fun s => firstFail [failIf (decide (64 ≤ axis.toNat)) .badArg, failIf (!s.variant.openEngines) .absent, s.axisCheck axis,
      match axisOf? axis with
      | some n => failIf ((s.axis n).clu.role || (s.axis n).clu.recovering || (s.axis n).ch.st ≠ .hold || s.inAnyFit n ||
          s.hasPending n) .conflict
      | none => none])
    fun s =>
      match axisOf? axis with
      | none => s
      | some n =>
        let s := s.modClu n fun c => { c.wipe with role := true }
        let s := (s.modCh n fun c => { c with seg := none, halves := [], curDue := false, spdDue := false, posDue := false })
        ((s.clearCluster n).forceGates n).done h .ok)

/-- COORD_ROLE with SET 0: pending descriptors end RESET, and the vendor chain is loaded again. -/
def execCoordRoleClear (h : DescHdr) (axis : BitVec 8) (s : State) : Host.Outcome State Fault Refusal :=
  .next (s.decodeNow h false (.coordRoleClear h axis)
    (fun s => firstFail [failIf (decide (64 ≤ axis.toNat)) .badArg, failIf (!s.variant.openEngines) .absent, s.axisCheck axis,
      match axisOf? axis with | some n => failIf (!(s.axis n).clu.role) .conflict | none => none])
    fun s =>
      match axisOf? axis with
      | none => s
      | some n =>
        let s := s.completeAll (pendingOn n) .reset
        let s := (s.modClu n fun c => { c.wipe with role := false }).clearCluster n
        let s := s.modCh n fun c => { c with st := .hold, holdAt := some s.cref }
        ((s.loadVendor n).forceGates n).done h .ok)

/-! Lens maps (08 R243, R244). -/

/-- The breakpoints of a table strictly rise by `rises`. -/
def risesBy (rises : Word → Word → Bool) (t : List Byte) (at_ : Nat) : Bool :=
  (List.range 63).all fun i => rises (wordAt t (at_ + 4 * i)) (wordAt t (at_ + 4 * i + 4))

/-- The checks of R243 on a table. -/
def lensOk (t : List Byte) : Bool :=
  let base := dwordAt t 16
  wordAt t 0 = 1#32 &&
  risesBy (fun a b => decide (a.toInt < b.toInt)) t 32 && risesBy lt t 288 &&
  (List.range 64).all (fun i => lt 0#32 (wordAt t (288 + 4 * i))) &&
  (List.range 4096).all fun i => hi32 (base + (wordAt t (544 + 4 * i)).signExtend 64) = hi32 base

/-- The activations open in a cluster, each engine with its number. -/
def State.openActs (s : State) (n : AxisId) : List (EngId × Word) :=
  ((List.finRange 16).filter fun j => (s.eng n j).opens (s.eng n j).act).map fun j => (j, (s.eng n j).act)

/-- LENS_MAP (08 R244): FORMAT is written 0, and the rest waits for the activations now open. -/
def execLensMap (h : DescHdr) (axis : BitVec 8) (len : Word) (table : List Byte) (s : State) :
    Host.Outcome State Fault Refusal :=
  .next (s.decodeNow h false (.lensMap h axis len table)
    (fun s => firstFail [s.axisCheck axis,
      match axisOf? axis with | some n => failIf (!(s.axis n).clu.role) .conflict | none => none,
      spanCheck h.src h.dataAddr len.toNat,
      failIf (len ≠ 16932#32 || table.length ≠ 16932) .badArg,
      failIf (wordAt table 16928 ≠ crc32c (table.take 16928)) .crc,
      failIf (decide (s.variant.axes ≤ (wordAt table 4).toNat) || decide (s.variant.axes ≤ (wordAt table 12).toNat)) .absent,
      failIf (!lensOk table) .badArg])
    fun s =>
      match axisOf? axis with
      | none => s
      | some n => ((s.ctmWrite n 0x8000 (wordBytes 0#32)).setAct h (.lensMap n (s.openActs n) table)).settleLens n)

end Sys2Proof.Machine
end

