-- ==== Sys2Proof/Machine/Flags.lean ====
section
/-! DEFINITION. The flags of a YEI engine and the arithmetic that sets them (09 R248, R250). FLAGS holds Z
at bit 0, N 1, C 2, V 3, Q 4 and X 5 (R252). A result comes as an `Alu`: the value and the flags after
it. -/

namespace Sys2Proof.Machine

/-- A result and the FLAGS after it. -/
structure Alu where
  val : Word
  flags : BitVec 6
  deriving DecidableEq, Repr

/-- One flag set or cleared. -/
def setF (f : BitVec 6) (i : Nat) (v : Bool) : BitVec 6 :=
  if v then f ||| BitVec.twoPow 6 i else f &&& ~~~ BitVec.twoPow 6 i
/-- A sticky flag: set, or left as it is. -/
def stickF (f : BitVec 6) (i : Nat) (v : Bool) : BitVec 6 := if v then setF f i true else f

/-- Z and N of a result. -/
def setZN (f : BitVec 6) (r : Word) : BitVec 6 := setF (setF f 0 (r = 0#32)) 1 (r.getLsbD 31)

/-- A bitwise, minimum, maximum or product result: Z and N only. -/
def aluZN (f : BitVec 6) (r : Word) : Alu := ⟨r, setZN f r⟩

/-- Addition: C is the carry out, V signed overflow. -/
def aluAdd (f : BitVec 6) (a b : Word) : Alu :=
  let r := a + b
  let c := decide (2 ^ 32 ≤ a.toNat + b.toNat)
  let v := decide (r.toInt ≠ a.toInt + b.toInt)
  ⟨r, setF (setF (setZN f r) 2 c) 3 v⟩

/-- Subtraction: C is the borrow, V signed overflow. -/
def aluSub (f : BitVec 6) (a b : Word) : Alu :=
  let r := a - b
  let c := decide (a.toNat < b.toNat)
  let v := decide (r.toInt ≠ a.toInt - b.toInt)
  ⟨r, setF (setF (setZN f r) 2 c) 3 v⟩

/-- Shifts by 0 to 31: C is the last bit shifted out, 0 for a shift of 0. -/
def aluShl (f : BitVec 6) (a : Word) (k : Nat) : Alu :=
  let r := a <<< k
  ⟨r, setF (setZN f r) 2 (decide (0 < k) && a.getLsbD (32 - k))⟩
def aluShr (f : BitVec 6) (a : Word) (k : Nat) : Alu :=
  let r := a >>> k
  ⟨r, setF (setZN f r) 2 (decide (0 < k) && a.getLsbD (k - 1))⟩
def aluSra (f : BitVec 6) (a : Word) (k : Nat) : Alu :=
  let r := a.sshiftRight k
  ⟨r, setF (setZN f r) 2 (decide (0 < k) && a.getLsbD (k - 1))⟩

/-- The product's low and high words. -/
def mulLow (a b : Word) : Word := a * b
def mulHigh (a b : Word) : Word := BitVec.ofInt 32 (a.toInt * b.toInt / 2 ^ 32)

/-- DIV: rounded toward zero; by 0 it gives 0, and 0x80000000 / −1 gives 0x80000000, both with V. -/
def aluDiv (f : BitVec 6) (a b : Word) : Alu :=
  if b = 0#32 then ⟨0#32, setF (setZN f 0#32) 3 true⟩
  else if a = 0x80000000#32 && b = 0xFFFFFFFF#32 then ⟨a, setF (setZN f a) 3 true⟩
  else
    let r := BitVec.ofInt 32 (a.toInt.tdiv b.toInt)
    ⟨r, setF (setZN f r) 3 false⟩

def minS (a b : Word) : Word := if a.toInt ≤ b.toInt then a else b
def maxS (a b : Word) : Word := if a.toInt ≤ b.toInt then b else a

/-- A Q31 result: saturated, with Q where it saturates. -/
def aluSat (f : BitVec 6) (v : Int) : Alu :=
  let r := F32.sat32 v
  ⟨r.1, stickF (setZN f r.1) 4 r.2⟩

/-- a × b / 2^31 rounded to nearest; which way a tie goes the spec leaves open, and `up` says it. -/
def qRound (up : Bool) (a b : Word) : Int :=
  let p := a.toInt * b.toInt
  if up then (p + 2 ^ 30) / 2 ^ 31 else -((2 ^ 30 - p) / 2 ^ 31)

/-- A binary32 result with its X condition: X alone changes. -/
def aluX (f : BitVec 6) (r : Word × Bool) : Alu := ⟨r.1, stickF f 5 r.2⟩

/-- FCMP: Z if equal, N if below, V if unordered, C cleared. -/
def fcmpFlags (f : BitVec 6) (a b : Word) : BitVec 6 :=
  setF (setF (setF (setF f 0 (F32.eq a b)) 1 (F32.lt a b)) 2 false) 3 (F32.isNaN a || F32.isNaN b)

/-- The B conditions 0 to 10; a condition above 10 is illegal (R251). -/
def condHolds (f : BitVec 6) (c : Nat) : Option Bool :=
  let z := f.getLsbD 0
  let lt := f.getLsbD 1 != f.getLsbD 3
  match c with
  | 0 => some true
  | 1 => some z
  | 2 => some (!z)
  | 3 => some lt
  | 4 => some (!lt)
  | 5 => some (z || lt)
  | 6 => some (!(z || lt))
  | 7 => some (f.getLsbD 2)
  | 8 => some (!f.getLsbD 2)
  | 9 => some (f.getLsbD 3)
  | 10 => some (!f.getLsbD 3)
  | _ => none

end Sys2Proof.Machine
end

