-- ==== Sys2Proof/Machine/Operands.lean ====
section
/-! DEFINITION. The operands of YEI instructions: registers, immediates, the engine's address space and its
CSRs, and the old values that an activation reads across a commit (09 R246, R249, R252 to R260; 10
R291). -/

namespace Sys2Proof.Machine

/-! Registers and immediates. -/

/-- Reads a register; g0 reads 0 (09 R246). -/
def Eng.rd (x : Eng) (r : GReg) : Word := if r = 0 then 0#32 else x.g[r]
/-- Writes a register; writes to g0 are ignored. -/
def Eng.wr (x : Eng) (r : GReg) (v : Word) : Eng := if r = 0 then x else { x with g := x.g.set r v }

/-- sx(imm) and zx(imm) (09 R249). -/
def sx (imm : BitVec 16) : Word := imm.signExtend 32
def zx (imm : BitVec 16) : Word := imm.setWidth 32

/-- The register after d. -/
def nextReg (d : GReg) : GReg := d + 1

/-! Issue. -/

/-- An engine can issue an instruction: it is active and waits on no load and no FENCE. -/
def State.readyIssue (s : State) (n : AxisId) (j : EngId) : Bool :=
  let x := s.eng n j
  s.axOn n && s.enginesRun && x.st = .active && x.load.isNone && !x.fence

/-- The word at the engine's pc. -/
def State.fetched (s : State) (n : AxisId) (j : EngId) : Word := (s.eng n j).imem.rd (s.eng n j).pc.toNat

/-- Engine j issues instruction i next: it can, and the word at its pc spells i. -/
def State.issues (s : State) (i : Instr) (n : AxisId) (j : EngId) : Bool :=
  s.readyIssue n j && yeiDecode n j (s.fetched n j) = some i

/-- Instruction i is fetched from the instruction SRAM of engine j and issues. -/
def State.issue (s : State) (i : Instr) (n : AxisId) (j : EngId) (go : State → State) : State :=
  if !s.issues i n j then s
  else if s.injected 0 (16 * n.val + j.val) then s.injectAt n n j .imem go
  else go s

/-- The next instruction. -/
def Eng.next (x : Eng) : Eng := { x with pc := x.pc + 1 }

/-! The address space (09 R253). -/

/-- What an engine address names. -/
inductive Target where
  /-- A public word, by signal address. -/
  | pub (a : Nat)
  /-- A private data word of the engine, 1,024 to 2,047. -/
  | own (k : Nat)
  /-- A word of the cluster's CTM. -/
  | ctm (k : Nat)
  /-- The duty port of a phase. -/
  | duty (p : Fin 3)
  | softHem
  | gpIn
  | gpSet
  | gpClr
  | none
  deriving DecidableEq, Repr

/-- The target of an address; bits 1:0 are ignored. -/
def target (n : AxisId) (j : EngId) (addr : Word) : Target :=
  let a := addr.toNat / 4 * 4
  if a < 0x1000 then .pub (sigAddr n j.val (a / 4))
  else if a < 0x2000 then .own (a / 4)
  else if a < 0x10000 then .none
  else if a < 0x20000 then .ctm ((a - 0x10000) / 4)
  else if a < 0x30000 then .pub (sigAddr n ((a - 0x20000) / 0x1000) (a % 0x1000 / 4))
  else if a = 0x30000 then .duty 0
  else if a = 0x30004 then .duty 1
  else if a = 0x30008 then .duty 2
  else if a = 0x30010 then .softHem
  else if a = 0x30020 then .gpIn
  else if a = 0x30024 then .gpSet
  else if a = 0x30028 then .gpClr
  else if a < 0x100000 then .none
  else if a < 0x500000 then .pub ((a - 0x100000) / 4)
  else .none

/-- The engine's own data SRAM, read and written at once (09 R256). -/
def ownAccess (n : AxisId) (j : EngId) : Target → Bool
  | .pub a => decide (sigAddr n j.val 0 ≤ a) && decide (a < sigAddr n j.val 1024)
  | .own _ => true
  | _ => false

/-! Old values (10 R291, R293). -/

/-- How far a commit lies after an activation's stamp, in epoch edges. -/
def epochAfter (stamp commit : Nat) : Int := (BitVec.ofNat 32 commit - BitVec.ofNat 32 stamp).toInt

/-- The old value of a word for an activation: that of the earliest commit since it began. -/
def State.oldVal (s : State) (stamp : Nat) (ctm : Bool) (addr : Nat) : Option Word :=
  (s.seam.slot.toList.foldl (fun (r : Option (Int × Word)) x =>
    let d := epochAfter stamp x.epoch
    if x.st ≠ .retiring || x.going || d ≤ 0 then r
    else match x.olds.find? fun o => o.ctm = ctm && o.addr = addr with
      | none => r
      | some o => match r with
        | some (e, _) => if d < e then some (d, o.old) else r
        | none => some (d, o.old)) none).map (·.2)

/-- CTM words of every cluster under one key. -/
def ctmKey (n : AxisId) (k : Nat) : Nat := 16384 * n.val + k

/-- GP_IN: the accepted ball levels XOR INVERT (13 R395). -/
def State.gpIn (s : State) : Word :=
  if !s.sysOn 74 then 0#32
  else (List.finRange 32).foldl (fun (w : Word) (i : Fin 32) =>
    w ||| bitAt i.val (bit s.ser.gpLevel i.val != bit s.ser.gpCfg[i] 3)) 0#32

/-- What an engine reads at a target, under its stamp. -/
def State.targetRead (s : State) (n : AxisId) (j : EngId) : Target → Word
  | .pub a => (s.oldVal (s.eng n j).epoch false a).getD (s.sigRead a)
  | .own k => (s.eng n j).priv.rd k
  | .ctm k => (s.oldVal (s.eng n j).epoch true (ctmKey n k)).getD ((s.axis n).clu.ctm.rd k)
  | .gpIn => s.gpIn
  | .duty _ | .softHem | .gpSet | .gpClr | .none => 0#32

/-- A load or store that the map does not give: ACCESS_ERR (09 R254). A load from a store-only port is
taken as one (DEDUCED). -/
def State.accessErr (s : State) (n : AxisId) (j : EngId) : State :=
  s.modEng n j fun x => { x with sticky := x.sticky ||| 0x02#7 }

/-- Whether a load from a target is outside the map. -/
def Target.loadErr : Target → Bool
  | .pub _ | .own _ | .ctm _ | .gpIn => false
  | .duty _ | .softHem | .gpSet | .gpClr | .none => true

/-- Whether a store to a target is refused with ACCESS_ERR: outside the map, into the input port, or by an
open engine into CTM outside its own area. -/
def State.storeErr (s : State) (n : AxisId) (j : EngId) : Target → Bool
  | .ctm k =>
    let a := openArea j
    s.isOpen n j && !(s.axis n).clu.role && !(decide (a.1 ≤ k) && decide (k < a.2))
  | .gpIn | .none => true
  | .pub _ | .own _ | .duty _ | .softHem | .gpSet | .gpClr => false

/-! Stores as they arrive. -/

/-- The duty port (04 R104; 01 R19): E6 of the axis' own cluster stores, C releases the group, and a word of
the group that was not stored is free. -/
def State.dutyStore (s : State) (n : AxisId) (j : EngId) (p : Fin 3) (v : Word) : State :=
  if j ≠ 6 then s.modPwm n fun w => { w with sticky := w.sticky ||| bitAt 27 true }
  else if p ≠ 2 then s.modPwm n fun w => { w with dutyHold := w.dutyHold.set p (some v) }
  else
    let h := (s.axis n).pwm.dutyHold
    let a := h[0].getD (Config.freeWord s.freeCtr)
    let b := h[1].getD (Config.freeWord (s.freeCtr + 1))
    (s.bumpBy 2).dutyRelease n a b v

/-- The soft-Hem port (04 R115): it acts while SOFT_HEM_EN is 1. -/
def State.softHem (s : State) (n : AxisId) : State := if bit (s.axis n).pwm.now.ctrl 8 then s.hemCut n else s

/-- The GP set and clear ports (13 R394): the ports that this cluster owns. -/
def State.gpStore (s : State) (n : AxisId) (on : Bool) (v : Word) : State :=
  if !s.sysOn 74 then s
  else s.modSer fun r => { r with gpOut := (List.finRange 32).foldl (fun (o : Word) (i : Fin 32) =>
    let w := r.gpCfg[i]
    let mine := s.gpEngine w && gpAxis w = n && gpFunc w ≠ 3
    if mine && bit v i.val then setBitW o i.val on else o) r.gpOut }

/-- A store reaches its target. -/
def State.targetStore (s : State) (n : AxisId) (j : EngId) (t : Target) (v : Word) : State :=
  match t with
  | .pub a => s.engStore a v
  | .own k => s.modEng n j fun x => { x with priv := x.priv.wr k v }
  | .ctm k => s.modClu n fun c => { c with ctm := c.ctm.wr k v }
  | .duty p => s.dutyStore n j p v
  | .softHem => s.softHem n
  | .gpSet => s.gpStore n true v
  | .gpClr => s.gpStore n false v
  | .gpIn | .none => s

/-! CSRs (09 R252). -/

/-- EVPEND, with the levels SAMPLE and MBOX. -/
def State.evPend (s : State) (n : AxisId) (j : EngId) : Word :=
  let x := s.eng n j
  x.ev ||| bitAt 16 (!x.mbox.isEmpty) ||| bitAt 0 (j = 0 && !(s.axis n).clu.frames.isEmpty)

/-- ce since the activation began; a ce is half a cp. CYC stands while the debugger holds the engine (09 R266). -/
def State.actLen (s : State) (n : AxisId) (j : EngId) : Nat :=
  let x := s.eng n j
  2 * ((if x.st = .halted then x.haltedAt else s.cref) - x.actAt)
/-- CYC. -/
def State.cyc (s : State) (n : AxisId) (j : EngId) : Word := BitVec.ofNat 32 (s.actLen n j)

/-- The value of a CSR, none when the number is not in the table. -/
def State.csr (s : State) (n : AxisId) (j : EngId) (k : Nat) : Option Word :=
  let x := s.eng n j
  match k with
  | 0 => some (x.flags.setWidth 32)
  | 1 => some (s.evPend n j)
  | 2 => some ((x.mbox.head?.map (·.2)).getD 0#32)
  | 3 => some x.mboxSrc
  | 4 => some x.act
  | 5 => some (s.cyc n j)
  | 6 => some (BitVec.ofNat 32 s.cref)
  | 7 => some x.crefHi
  | 8 => some (fieldAt 4 n.val ||| fieldAt 0 j.val ||| bitAt 16 (s.isOpen n j))
  | 9 => some (x.budget.setWidth 32)
  | _ => none

/-- What reading a CSR changes: MBOX removes its entry, and CREF_LO latches the high word. -/
def Eng.csrRead (x : Eng) (cref k : Nat) : Eng :=
  if k = 2 then
    match x.mbox with
    | [] => x
    | e :: l => { x with mbox := l, mboxSrc := e.1 }
  else if k = 6 then { x with crefHi := BitVec.ofNat 32 (cref / 2 ^ 32) }
  else x

end Sys2Proof.Machine
end

