-- ==== Sys2Proof/Machine/Yei.lean ====
section
/-! DEFINITION. The YEI instructions as an engine issues them (09 R246 to R265). -/

namespace Sys2Proof.Machine

/-- An illegal instruction (09 R251): recovery of a vendor cluster with ENGINE_ECC, or a stop of an open
engine with ILLEGAL. -/
def State.illegal (s : State) (n : AxisId) (j : EngId) : State :=
  if s.isOpen n j then (s.openStop n j).modEng n j fun x => { x with sticky := x.sticky ||| 0x20#7 }
  else (s.raise (axisSrc n 12)).recover n j 3#2

/-- An instruction that writes d and the flags. -/
def State.alu (s : State) (i : Instr) (n : AxisId) (j : EngId) (d : GReg) (f : Eng → Alu) : State :=
  s.issue i n j fun s => s.modEng n j fun x => let r := f x; { (x.wr d r.val).next with flags := r.flags }

/-- An instruction that writes the flags alone. -/
def State.aluFlags (s : State) (i : Instr) (n : AxisId) (j : EngId) (f : Eng → BitVec 6) : State :=
  s.issue i n j fun s => s.modEng n j fun x => { x.next with flags := f x }

/-- The same, where the result draws on the next free value. -/
def State.aluFree (s : State) (i : Instr) (n : AxisId) (j : EngId) (d : GReg) (f : Eng → Alu) : State :=
  if !s.issues i n j then s else (s.alu i n j d f).bump

/-! Integer arithmetic. -/

def execAdd (n : AxisId) (j : EngId) (d a b : GReg) (s : State) : Host.Outcome State Fault Refusal :=
  .next (s.alu (.add n j d a b) n j d fun x => aluAdd x.flags (x.rd a) (x.rd b))
def execSub (n : AxisId) (j : EngId) (d a b : GReg) (s : State) : Host.Outcome State Fault Refusal :=
  .next (s.alu (.sub n j d a b) n j d fun x => aluSub x.flags (x.rd a) (x.rd b))
def execAnd (n : AxisId) (j : EngId) (d a b : GReg) (s : State) : Host.Outcome State Fault Refusal :=
  .next (s.alu (.and n j d a b) n j d fun x => aluZN x.flags (x.rd a &&& x.rd b))
def execOr (n : AxisId) (j : EngId) (d a b : GReg) (s : State) : Host.Outcome State Fault Refusal :=
  .next (s.alu (.or n j d a b) n j d fun x => aluZN x.flags (x.rd a ||| x.rd b))
def execXor (n : AxisId) (j : EngId) (d a b : GReg) (s : State) : Host.Outcome State Fault Refusal :=
  .next (s.alu (.xor n j d a b) n j d fun x => aluZN x.flags (x.rd a ^^^ x.rd b))
def execShl (n : AxisId) (j : EngId) (d a b : GReg) (s : State) : Host.Outcome State Fault Refusal :=
  .next (s.alu (.shl n j d a b) n j d fun x => aluShl x.flags (x.rd a) (bits (x.rd b) 4 0))
def execShr (n : AxisId) (j : EngId) (d a b : GReg) (s : State) : Host.Outcome State Fault Refusal :=
  .next (s.alu (.shr n j d a b) n j d fun x => aluShr x.flags (x.rd a) (bits (x.rd b) 4 0))
def execSra (n : AxisId) (j : EngId) (d a b : GReg) (s : State) : Host.Outcome State Fault Refusal :=
  .next (s.alu (.sra n j d a b) n j d fun x => aluSra x.flags (x.rd a) (bits (x.rd b) 4 0))
def execMul (n : AxisId) (j : EngId) (d a b : GReg) (s : State) : Host.Outcome State Fault Refusal :=
  .next (s.alu (.mul n j d a b) n j d fun x => aluZN x.flags (mulLow (x.rd a) (x.rd b)))
def execMulh (n : AxisId) (j : EngId) (d a b : GReg) (s : State) : Host.Outcome State Fault Refusal :=
  .next (s.alu (.mulh n j d a b) n j d fun x => aluZN x.flags (mulHigh (x.rd a) (x.rd b)))
def execDiv (n : AxisId) (j : EngId) (d a b : GReg) (s : State) : Host.Outcome State Fault Refusal :=
  .next (s.alu (.div n j d a b) n j d fun x => aluDiv x.flags (x.rd a) (x.rd b))
def execMin (n : AxisId) (j : EngId) (d a b : GReg) (s : State) : Host.Outcome State Fault Refusal :=
  .next (s.alu (.min n j d a b) n j d fun x => aluZN x.flags (minS (x.rd a) (x.rd b)))
def execMax (n : AxisId) (j : EngId) (d a b : GReg) (s : State) : Host.Outcome State Fault Refusal :=
  .next (s.alu (.max n j d a b) n j d fun x => aluZN x.flags (maxS (x.rd a) (x.rd b)))
def execCmp (n : AxisId) (j : EngId) (a b : GReg) (s : State) : Host.Outcome State Fault Refusal :=
  .next (s.aluFlags (.cmp n j a b) n j fun x => (aluSub x.flags (x.rd a) (x.rd b)).flags)

/-! Q31. -/

def execQadd (n : AxisId) (j : EngId) (d a b : GReg) (s : State) : Host.Outcome State Fault Refusal :=
  .next (s.alu (.qadd n j d a b) n j d fun x => aluSat x.flags ((x.rd a).toInt + (x.rd b).toInt))
def execQsub (n : AxisId) (j : EngId) (d a b : GReg) (s : State) : Host.Outcome State Fault Refusal :=
  .next (s.alu (.qsub n j d a b) n j d fun x => aluSat x.flags ((x.rd a).toInt - (x.rd b).toInt))
def execQmul (n : AxisId) (j : EngId) (d a b : GReg) (s : State) : Host.Outcome State Fault Refusal :=
  .next (s.aluFree (.qmul n j d a b) n j d fun x => aluSat x.flags (qRound (Config.freeBool s.freeCtr) (x.rd a) (x.rd b)))
def execQmac (n : AxisId) (j : EngId) (d a b : GReg) (s : State) : Host.Outcome State Fault Refusal :=
  .next (s.aluFree (.qmac n j d a b) n j d fun x =>
    aluSat x.flags ((x.rd d).toInt + qRound (Config.freeBool s.freeCtr) (x.rd a) (x.rd b)))
def execQneg (n : AxisId) (j : EngId) (d a : GReg) (s : State) : Host.Outcome State Fault Refusal :=
  .next (s.alu (.qneg n j d a) n j d fun x => aluSat x.flags (-(x.rd a).toInt))
def execQabs (n : AxisId) (j : EngId) (d a : GReg) (s : State) : Host.Outcome State Fault Refusal :=
  .next (s.alu (.qabs n j d a) n j d fun x => aluSat x.flags ((x.rd a).toInt.natAbs : Nat))
def execQshl (n : AxisId) (j : EngId) (d a b : GReg) (s : State) : Host.Outcome State Fault Refusal :=
  .next (s.alu (.qshl n j d a b) n j d fun x => aluSat x.flags ((x.rd a).toInt * 2 ^ bits (x.rd b) 4 0))

/-! binary32. -/

def execFadd (n : AxisId) (j : EngId) (d a b : GReg) (s : State) : Host.Outcome State Fault Refusal :=
  .next (s.alu (.fadd n j d a b) n j d fun x => aluX x.flags (F32.add (x.rd a) (x.rd b)))
def execFsub (n : AxisId) (j : EngId) (d a b : GReg) (s : State) : Host.Outcome State Fault Refusal :=
  .next (s.alu (.fsub n j d a b) n j d fun x => aluX x.flags (F32.sub (x.rd a) (x.rd b)))
def execFmul (n : AxisId) (j : EngId) (d a b : GReg) (s : State) : Host.Outcome State Fault Refusal :=
  .next (s.alu (.fmul n j d a b) n j d fun x => aluX x.flags (F32.mul (x.rd a) (x.rd b)))
def execFma (n : AxisId) (j : EngId) (d a b : GReg) (s : State) : Host.Outcome State Fault Refusal :=
  .next (s.alu (.fma n j d a b) n j d fun x => aluX x.flags (F32.fma (x.rd d) (x.rd a) (x.rd b)))
def execFdiv (n : AxisId) (j : EngId) (d a b : GReg) (s : State) : Host.Outcome State Fault Refusal :=
  .next (s.alu (.fdiv n j d a b) n j d fun x => aluX x.flags (F32.div (x.rd a) (x.rd b)))
def execFsqrt (n : AxisId) (j : EngId) (d a : GReg) (s : State) : Host.Outcome State Fault Refusal :=
  .next (s.alu (.fsqrt n j d a) n j d fun x => aluX x.flags (F32.sqrt (x.rd a)))
def execFmin (n : AxisId) (j : EngId) (d a b : GReg) (s : State) : Host.Outcome State Fault Refusal :=
  .next (s.alu (.fmin n j d a b) n j d fun x => ⟨F32.min (x.rd a) (x.rd b), x.flags⟩)
def execFmax (n : AxisId) (j : EngId) (d a b : GReg) (s : State) : Host.Outcome State Fault Refusal :=
  .next (s.alu (.fmax n j d a b) n j d fun x => ⟨F32.max (x.rd a) (x.rd b), x.flags⟩)
/-- A binary32 result of FABS or FNEG as R248 has it: subnormals flushed, every NaN the one NaN. -/
def fresult (v : Word) : Word := if F32.isNaN v then F32.nan else F32.flush v
def execFabs (n : AxisId) (j : EngId) (d a : GReg) (s : State) : Host.Outcome State Fault Refusal :=
  .next (s.alu (.fabs n j d a) n j d fun x => ⟨fresult (F32.abs (x.rd a)), x.flags⟩)
def execFneg (n : AxisId) (j : EngId) (d a : GReg) (s : State) : Host.Outcome State Fault Refusal :=
  .next (s.alu (.fneg n j d a) n j d fun x => ⟨fresult (F32.negate (x.rd a)), x.flags⟩)
def execFcmp (n : AxisId) (j : EngId) (a b : GReg) (s : State) : Host.Outcome State Fault Refusal :=
  .next (s.aluFlags (.fcmp n j a b) n j fun x => fcmpFlags x.flags (x.rd a) (x.rd b))
def execItof (n : AxisId) (j : EngId) (d a : GReg) (s : State) : Host.Outcome State Fault Refusal :=
  .next (s.alu (.itof n j d a) n j d fun x => ⟨F32.ofInt (x.rd a).toInt, x.flags⟩)
def execFtoi (n : AxisId) (j : EngId) (d a : GReg) (s : State) : Host.Outcome State Fault Refusal :=
  .next (s.alu (.ftoi n j d a) n j d fun x => aluX x.flags (F32.toI32 (x.rd a)))
def execQtof (n : AxisId) (j : EngId) (d a : GReg) (s : State) : Host.Outcome State Fault Refusal :=
  .next (s.alu (.qtof n j d a) n j d fun x => ⟨F32.ofQ31 (x.rd a), x.flags⟩)
def execFtoq (n : AxisId) (j : EngId) (d a : GReg) (s : State) : Host.Outcome State Fault Refusal :=
  .next (s.alu (.ftoq n j d a) n j d fun x => let r := F32.toQ31 (x.rd a); ⟨r.1, stickF x.flags 4 r.2⟩)
def execTsin (n : AxisId) (j : EngId) (d a : GReg) (s : State) : Host.Outcome State Fault Refusal :=
  .next (s.aluFree (.tsin n j d a) n j d fun x => ⟨s.sinT 0 (x.rd a), x.flags⟩)
def execTcos (n : AxisId) (j : EngId) (d a : GReg) (s : State) : Host.Outcome State Fault Refusal :=
  .next (s.aluFree (.tcos n j d a) n j d fun x => ⟨s.cosT 0 (x.rd a), x.flags⟩)

/-- TATAN: infinities count by their ratio; with a NaN operand the spec states no result, and it is free
with X set. -/
def tatan (word : Word) (up : Bool) (y x : Word) : Word × Bool :=
  let one (w : Word) : Word := if F32.neg w then 0xBF800000#32 else 0x3F800000#32
  let zero (w : Word) : Word := F32.zero (F32.neg w)
  if F32.isNaN y || F32.isNaN x then (word, true)
  else if F32.isInf y && F32.isInf x then (turnsOf up (one y) (one x), false)
  else if F32.isInf y then (turnsOf up (one y) (zero x), false)
  else if F32.isInf x then (turnsOf up (zero y) (one x), false)
  else (turnsOf up y x, false)

def execTatan (n : AxisId) (j : EngId) (d a b : GReg) (s : State) : Host.Outcome State Fault Refusal :=
  .next (s.aluFree (.tatan n j d a b) n j d fun x =>
    aluX x.flags (tatan (Config.freeWord s.freeCtr) (Config.freeBool s.freeCtr) (x.rd a) (x.rd b)))

/-! Immediates. -/

def execAddi (n : AxisId) (j : EngId) (d a : GReg) (imm : BitVec 16) (s : State) : Host.Outcome State Fault Refusal :=
  .next (s.alu (.addi n j d a imm) n j d fun x => aluAdd x.flags (x.rd a) (sx imm))
def execAndi (n : AxisId) (j : EngId) (d a : GReg) (imm : BitVec 16) (s : State) : Host.Outcome State Fault Refusal :=
  .next (s.alu (.andi n j d a imm) n j d fun x => aluZN x.flags (x.rd a &&& zx imm))
def execOri (n : AxisId) (j : EngId) (d a : GReg) (imm : BitVec 16) (s : State) : Host.Outcome State Fault Refusal :=
  .next (s.alu (.ori n j d a imm) n j d fun x => aluZN x.flags (x.rd a ||| zx imm))
def execXori (n : AxisId) (j : EngId) (d a : GReg) (imm : BitVec 16) (s : State) : Host.Outcome State Fault Refusal :=
  .next (s.alu (.xori n j d a imm) n j d fun x => aluZN x.flags (x.rd a ^^^ zx imm))
def execLui (n : AxisId) (j : EngId) (d : GReg) (imm : BitVec 16) (s : State) : Host.Outcome State Fault Refusal :=
  .next (s.alu (.lui n j d imm) n j d fun x => ⟨zx imm <<< 16, x.flags⟩)

/-- SHI by imm[6:5]; the code 3 has no stated result, and its word and carry are free. -/
def shiAlu (word : Word) (c : Bool) (f : BitVec 6) (a imm : Word) : Alu :=
  let k := bits imm 4 0
  match bits imm 6 5 with
  | 0 => aluShl f a k
  | 1 => aluShr f a k
  | 2 => aluSra f a k
  | _ => ⟨word, setF (setZN f word) 2 c⟩

def execShi (n : AxisId) (j : EngId) (d a : GReg) (imm : BitVec 16) (s : State) : Host.Outcome State Fault Refusal :=
  .next (s.aluFree (.shi n j d a imm) n j d fun x =>
    shiAlu (Config.freeWord s.freeCtr) (Config.freeBool s.freeCtr) x.flags (x.rd a) (zx imm))
def execCmpi (n : AxisId) (j : EngId) (a : GReg) (imm : BitVec 16) (s : State) : Host.Outcome State Fault Refusal :=
  .next (s.aluFlags (.cmpi n j a imm) n j fun x => (aluSub x.flags (x.rd a) (sx imm)).flags)

/-! Loads and stores (09 R253 to R256, R260). -/

/-- The address a + sx(imm). -/
def Eng.addr (x : Eng) (a : GReg) (imm : BitVec 16) : Word := x.rd a + sx imm

/-- An odd pair register, or an address with bit 2 set: LD2 and ST2 are illegal (09 R251). -/
def pairBad (d : GReg) (addr : Word) : Bool := decide (d.val % 2 = 1) || bit addr 2

/-- A load meets an armed injection of the memory that it reads (15 R434). -/
def State.injTarget (s : State) (n : AxisId) (j : EngId) : Target → Bool
  | .pub a => s.injected 1 (a / 1024)
  | .own _ => s.injected 1 (16 * n.val + j.val)
  | .ctm _ => s.injected 2 n.val
  | .duty _ | .softHem | .gpIn | .gpSet | .gpClr | .none => false

/-- The words of a load, written to its registers. -/
def State.loadWords (s : State) (n : AxisId) (j : EngId) (d : GReg) (addr : Word) (two : Bool) : State :=
  let t0 := target n j addr
  let t1 := target n j (addr + 4#32)
  let last (t : Target) : Option Word :=
    ((s.eng n j).stores.reverse.findSome? fun p =>
      if target n j p.addr = t then some p.val
      else match p.val2 with
        | some v => if target n j (p.addr + 4#32) = t then some v else none
        | none => none)
  let v0 := (last t0).getD (s.targetRead n j t0)
  let v1 := (last t1).getD (s.targetRead n j t1)
  let s := if t0.loadErr || (two && t1.loadErr) then s.accessErr n j else s
  let go (s : State) := s.modEng n j fun x => if two then (x.wr d v0).wr (nextReg d) v1 else x.wr d v0
  match (if s.injTarget n j t0 then some t0 else if two && s.injTarget n j t1 then some t1 else none) with
  | none => go s
  | some (.pub a) => s.injectAt (Fin.ofNat 64 (a / 16384)) (Fin.ofNat 64 (a / 16384)) (Fin.ofNat 16 (a / 1024)) .dmem go
  | some (.ctm k) => s.injectAt n n j (if 0x3000 ≤ k then .openCtm else .vendorCtm) go
  | some _ => s.injectAt n n j .dmem go

/-- The cluster whose port an access of cluster n uses. -/
def Target.cluster (n : AxisId) : Target → Nat
  | .pub a => a / 16384
  | .own _ | .ctm _ | .duty _ | .softHem | .gpIn | .gpSet | .gpClr | .none => n.val

/-- The reserved accesses outstanding from a coordination cluster: loads and posted stores of its engines to other
clusters (09 R259). -/
def State.reserved (s : State) (n : AxisId) : Nat :=
  let away (j : EngId) (a : Word) : Bool := (target n j a).cluster n ≠ n.val
  (List.finRange 16).foldl (fun k j =>
    let x := s.eng n j
    k + (x.stores.filter fun p => away j p.addr).length + (if x.load.any fun l => away j l.addr then 1 else 0)) 0

/-- A fifth reserved access from one cluster stalls its engine (09 R259). -/
def State.stalls (s : State) (n : AxisId) (t : Target) : Bool :=
  (s.axis n).clu.role && t.cluster n ≠ n.val && decide (4 ≤ s.reserved n)

/-- LD and LD2: the engine's own SRAM and the ports answer at once, other targets when the load returns. -/
def State.issueLoad (s : State) (i : Instr) (n : AxisId) (j : EngId) (d a : GReg) (imm : BitVec 16) (two : Bool) : State :=
  s.issue i n j fun s =>
    let addr := (s.eng n j).addr a imm
    if two && pairBad d addr then s.illegal n j
    else
      let t := target n j addr
      let quick := ownAccess n j t || t.loadErr || t = .gpIn
      if quick then (s.modEng n j Eng.next).loadWords n j d addr two
      else if s.stalls n t then s
      else s.modEng n j fun x => { x.next with load := some { addr := addr, d := d, two := two } }

def execLd (n : AxisId) (j : EngId) (d a : GReg) (imm : BitVec 16) (s : State) : Host.Outcome State Fault Refusal :=
  .next (s.issueLoad (.ld n j d a imm) n j d a imm false)
def execLd2 (n : AxisId) (j : EngId) (d a : GReg) (imm : BitVec 16) (s : State) : Host.Outcome State Fault Refusal :=
  .next (s.issueLoad (.ld2 n j d a imm) n j d a imm true)

/-- A posted store or a post of an engine to cluster `m`, earlier than its access number `seq`: it arrives first (09
R260). -/
def State.aheadOf (s : State) (n : AxisId) (j : EngId) (m seq : Nat) : Bool :=
  ((s.eng n j).stores.any fun p => decide ((target n j p.addr).cluster n = m) && decide (p.seq < seq)) ||
  s.posts.any fun p => decide (p.sender = (n, j)) && decide (p.to_.val = m) && decide (p.seq < seq)

/-- A store or a post of an engine to the cluster that its load goes to is on its way. -/
def State.storesAhead (s : State) (n : AxisId) (j : EngId) (l : PLoad) : Bool :=
  s.aheadOf n j ((target n j l.addr).cluster n) (s.eng n j).seq

/-- FABRIC_LOAD_RETURN: the load that the engine waits on brings its words, after the engine's earlier stores and posts
to the same cluster have arrived. -/
def execFabricLoadReturn (n : AxisId) (j : EngId) (s : State) : Host.Outcome State Fault Refusal :=
  .next (match (s.eng n j).load with
    | none => s
    | some l => if s.storesAhead n j l then s else (s.modEng n j fun x => { x with load := none }).loadWords n j l.d l.addr l.two)

/-- ST and ST2: into the engine's own SRAM at once; elsewhere posted, at most four in flight. -/
def State.issueStore (s : State) (i : Instr) (n : AxisId) (j : EngId) (d a : GReg) (imm : BitVec 16) (two : Bool) : State :=
  s.issue i n j fun s =>
    let x := s.eng n j
    let addr := x.addr a imm
    let t := target n j addr
    let t1 := target n j (addr + 4#32)
    if two && pairBad d addr then s.illegal n j
    else if s.storeErr n j t || (two && s.storeErr n j t1) then (s.modEng n j Eng.next).accessErr n j
    else if ownAccess n j t then
      let s := (s.modEng n j Eng.next).targetStore n j t (x.rd d)
      if two then s.targetStore n j t1 (x.rd (nextReg d)) else s
    else if 4 ≤ x.stores.length || s.stalls n t then s
    else s.modEng n j fun x => { x.next with
      seq := x.seq + 1
      stores := x.stores ++ [{ addr := addr, val := x.rd d, val2 := if two then some (x.rd (nextReg d)) else none, seq := x.seq }] }

def execSt (n : AxisId) (j : EngId) (d a : GReg) (imm : BitVec 16) (s : State) : Host.Outcome State Fault Refusal :=
  .next (s.issueStore (.st n j d a imm) n j d a imm false)
def execSt2 (n : AxisId) (j : EngId) (d a : GReg) (imm : BitVec 16) (s : State) : Host.Outcome State Fault Refusal :=
  .next (s.issueStore (.st2 n j d a imm) n j d a imm true)

/-- POSTED_STORE_ARRIVAL: the oldest posted store of an engine to cluster `m` arrives, once its earlier posts there have;
stores to different clusters arrive in any order (09 R260). A FENCE ends with the last. -/
def State.storeArrives (s : State) (n : AxisId) (j : EngId) (m : AxisId) : State :=
  let mine (p : PStore) : Bool := decide ((target n j p.addr).cluster n = m.val)
  match (s.eng n j).stores.find? mine with
  | none => s
  | some p =>
    if s.aheadOf n j m.val p.seq then s
    else
    let l := dropFirst mine (s.eng n j).stores
    let s := s.modEng n j fun x => { x with stores := l, fence := x.fence && !l.isEmpty }
    let s := s.targetStore n j (target n j p.addr) p.val
    match p.val2 with
    | some v => s.targetStore n j (target n j (p.addr + 4#32)) v
    | none => s

def execPostedStoreArrival (n : AxisId) (j : EngId) (to_ : AxisId) (s : State) : Host.Outcome State Fault Refusal :=
  .next (s.storeArrives n j to_)

/-! Control flow. -/

def execB (n : AxisId) (j : EngId) (cond : Fin 32) (imm : BitVec 16) (s : State) : Host.Outcome State Fault Refusal :=
  .next (
    s.issue (.b n j cond imm) n j fun s =>
    match condHolds (s.eng n j).flags cond.val with
      | none => s.illegal n j
      | some true => s.modEng n j fun x => { x with pc := x.pc + 1 + (sx imm).setWidth 11 }
      | some false => s.modEng n j Eng.next)
def execCall (n : AxisId) (j : EngId) (target : BitVec 26) (s : State) : Host.Outcome State Fault Refusal :=
  .next (s.issue (.call n j target) n j fun s =>
    s.modEng n j fun x => { x.wr 31 ((x.pc + 1).setWidth 32) with pc := target.setWidth 11 })
def execJr (n : AxisId) (j : EngId) (a : GReg) (s : State) : Host.Outcome State Fault Refusal :=
  .next (s.issue (.jr n j a) n j fun s =>
    s.modEng n j fun x => { x with pc := (x.rd a).setWidth 11 })

/-! Events, posts, fences and CSRs (09 R262 to R265). -/

/-- WAITEV: the activation ends; its length counts in CLU_ACT_MAX (09 R279). -/
def execWaitev (n : AxisId) (j : EngId) (d a : GReg) (s : State) : Host.Outcome State Fault Refusal :=
  .next (
    s.issue (.waitev n j d a) n j fun s =>
      let c : Word := BitVec.ofNat 32 (Nat.min (s.actLen n j) (2 ^ 32 - 1))
      (s.modEng n j fun x => { x.next with
        st := .waiting, wait := some (d, x.rd a), missed := false, actMax := maxWord x.actMax c }).settleLens n)

/-- WAITEV_RETURN: a masked event is pending, and the next activation begins. E0 takes its oldest frame
with SAMPLE (09 R264). -/
def State.waitReturn (s : State) (n : AxisId) (j : EngId) : State :=
  let x := s.eng n j
  match x.wait with
  | none => s
  | some (d, m) =>
    let hit := s.evPend n j &&& m
    if !s.axOn n || !s.enginesRun || x.st ≠ .waiting || hit = 0#32 || s.epochHeld then s
    else
      let ep := s.seam.epoch.toNat
      let s := s.modEng n j fun x => { x.wr d hit with
        wait := none, st := .active, ev := x.ev &&& ~~~ hit, act := x.act + 1#32, actAt := s.cref, missed := false
        period := 2 * (s.axis n).pwm.act.per.toNat, epoch := ep }
      if bit hit 0 then
        match (s.axis n).clu.frames with
        | [] => s
        | f :: l => (s.modClu n fun c => { c with frames := l }).sensingWords n f
      else s

def execWaitevReturn (n : AxisId) (j : EngId) (s : State) : Host.Outcome State Fault Refusal := .next (s.waitReturn n j)

/-- POST: the payload b goes to the engine that a names. -/
def execPost (n : AxisId) (j : EngId) (a b : GReg) (s : State) : Host.Outcome State Fault Refusal :=
  .next (
    s.issue (.post n j a b) n j fun s =>
      let x := s.eng n j
      let who := x.rd a
      let s := s.modEng n j fun y => { y.next with seq := y.seq + 1 }
      { s with posts := s.posts ++
        [{ to_ := Fin.ofNat 64 (bits who 9 4), eng := Fin.ofNat 16 (bits who 3 0), sender := (n, j), val := x.rd b, seq := x.seq }] })

/-- A post reaches its mailbox, or is dropped. -/
def State.postTo (s : State) (n : AxisId) (j : EngId) (sender v : Word) : State :=
  if !s.axOn n || (s.eng n j).st = EngState.stopped then s
  else s.modEng n j fun x =>
    if 8 ≤ x.mbox.length then { x with sticky := x.sticky ||| 0x08#7 } else { x with mbox := x.mbox ++ [(sender, v)] }

/-- MBOX_POST_ARRIVAL: the oldest post of an engine to a cluster, once its earlier stores there have arrived, or one of the supervisor, which has bit 31 in
MBOX_SRC (09 R252, R260, R265). -/
def State.postArrives (s : State) : PostSrc → State
  | .engine n j to_ =>
    let mine (p : Post) : Bool := p.sender = (n, j) && p.to_ = to_
    match s.posts.find? mine with
    | none => s
    | some p => if s.aheadOf n j to_.val p.seq then s else State.postTo { s with posts := dropFirst mine s.posts } p.to_ p.eng (fieldAt 4 n.val ||| fieldAt 0 j.val) p.val
  | .supervisor to_ j v => if s.sup = .ready || s.sup = .service then s.postTo to_ j (bitAt 31 true) v else s

def execMboxPostArrival (p : PostSrc) (s : State) : Host.Outcome State Fault Refusal := .next (s.postArrives p)

/-- FENCE: the engine waits while any of its stores is in flight. -/
def execFence (n : AxisId) (j : EngId) (s : State) : Host.Outcome State Fault Refusal :=
  .next (s.issue (.fence n j) n j fun s =>
    s.modEng n j fun x => { x.next with fence := !x.stores.isEmpty })

/-- BRK: the debugger's breakpoint where debug is open to the engine, else no operation. -/
def execBrk (n : AxisId) (j : EngId) (s : State) : Host.Outcome State Fault Refusal :=
  .next (s.issue (.brk n j) n j fun s =>
      let s := s.modEng n j Eng.next
      if s.engDebug then s.debugHalt n j else s)

def execCsrr (n : AxisId) (j : EngId) (d : GReg) (csr : BitVec 8) (s : State) : Host.Outcome State Fault Refusal :=
  .next (
    s.issue (.csrr n j d csr) n j fun s =>
    match s.csr n j csr.toNat with
      | none => s.illegal n j
      | some v => s.modEng n j fun x => ((x.csrRead s.cref csr.toNat).wr d v).next)

/-- CSRW: FLAGS alone is writable. -/
def execCsrw (n : AxisId) (j : EngId) (a : GReg) (csr : BitVec 8) (s : State) : Host.Outcome State Fault Refusal :=
  .next (
    s.issue (.csrw n j a csr) n j fun s =>
    if 9 < csr.toNat then s.illegal n j
    else s.modEng n j fun x => if csr = 0 then { x.next with flags := (x.rd a).setWidth 6 } else x.next)

/-- ILLEGAL_INSTRUCTION (09 R251): an open engine at a word whose op or sub is not in the table, or a vendor stage, whose
program the model does not hold, at any time that its cluster runs. -/
def State.illegalMet (s : State) (n : AxisId) (j : EngId) : Bool :=
  if s.isOpen n j then s.readyIssue n j && (yeiDecode n j (s.fetched n j)).isNone
  else s.axOn n && s.enginesRun && !(s.axis n).clu.recovering && (s.eng n j).st ≠ .stopped

def execIllegalInstruction (n : AxisId) (j : EngId) (s : State) : Host.Outcome State Fault Refusal :=
  .next (if s.illegalMet n j then s.illegal n j else s)

end Sys2Proof.Machine
end

