-- ==== Sys2Proof/Machine/Engines.lean ====
section
/-! DEFINITION. Deadlines, wedges and errors of engines, the end of cluster recovery, and the loading and
stopping of open engines (09 R255, R266 to R273). -/

namespace Sys2Proof.Machine

/-- An engine whose activation is open: it is neither stopped nor held by the debugger, and a vendor stage's has not yet
lasted its free length (09 R266). -/
def State.engLive (s : State) (n : AxisId) (j : EngId) : Bool :=
  let x := s.eng n j
  s.axOn n && !(s.axis n).clu.recovering && (x.st = .active ||
    (x.st = .waiting && !s.isOpen n j && x.act ≠ 0#32 && decide (s.actLen n j ≤ x.len.toNat)))

/-- DEADLINE (09 R266): an activation's CYC passes its budget. -/
def execDeadline (n : AxisId) (j : EngId) (s : State) : Host.Outcome State Fault Refusal :=
  .next (if s.engLive n j && decide ((s.eng n j).budget.toNat < s.actLen n j) then s.miss n j else s)

/-- WEDGE (09 R266): an activation is still open after 4 of the carrier periods it began with. -/
def execWedge (n : AxisId) (j : EngId) (s : State) : Host.Outcome State Fault Refusal :=
  .next (if s.engLive n j && decide (8 * (s.eng n j).period ≤ s.actLen n j) then s.wedged n j else s)

/-- ENGINE_ECC (09 R255): a single-bit error is corrected and counted, another is uncorrectable. An armed injection of
the memory is used by it (15 R434). -/
def execEngineEcc (n : AxisId) (j : EngId) (area : EccArea) (corr : Bool) (s : State) : Host.Outcome State Fault Refusal :=
  .next (
    let hit := match area with
      | .imem => s.injected 0 (16 * n.val + j.val)
      | .dmem => s.injected 1 (16 * n.val + j.val)
      | .vendorCtm | .openCtm => s.injected 2 n.val
    let s := if hit then s.useInj else s
    if !corr then s.eccHit n j area
    else if s.axOn n then s.modClu n fun c => { c with corrCnt := satInc c.corrCnt } else s)

/-- CLUSTER_RECOVERY_COMPLETE (09 R267, R268): the chain is reloaded and started, and STATE is HOLD or SAFE
as AUTO_RESTART says. -/
def State.recoveryDone (s : State) (n : AxisId) : State :=
  if !(s.axis n).clu.recovering then s
  else
    let s := s.modClu n fun c => { c with recovering := false }
    let hold := bit (s.axis n).clu.ctrl 3
    let s := s.modCh n fun c => { c with st := if hold then .hold else .safe, holdAt := some s.cref }
    s.loadVendor n

def execClusterRecoveryComplete (n : AxisId) (s : State) : Host.Outcome State Fault Refusal := .next (s.recoveryDone n)

/-! ENGINE_LOAD and ENGINE_STOP (09 R270 to R273). -/

/-- Fields of an open-engine image (09 R271). -/
def imgEntry (b : List Byte) : Nat := bits (wordAt b 4) 31 16
def imgInstrs (b : List Byte) : Nat := bits (wordAt b 8) 15 0
def imgDatas (b : List Byte) : Nat := bits (wordAt b 8) 31 16

/-- The header is within R271 and IMG_LEN fits it. -/
def imgOk (b : List Byte) (len : Nat) : Bool :=
  wordAt b 0 = 0x58494559#32 && bits (wordAt b 4) 15 0 = 1 && decide (imgEntry b < imgInstrs b) &&
  decide (imgInstrs b ≤ 2048) && decide (imgDatas b ≤ 2048) && wordAt b 12 = 0#32 &&
  len = 16 + 4 * (imgInstrs b + imgDatas b)

/-- The engine that AXIS and ENGINE name. -/
def engOf? (axis engine : BitVec 8) : Option (AxisId × EngId) :=
  if h : engine.toNat < 16 then (axisOf? axis).map fun n => (n, ⟨engine.toNat, h⟩) else none

/-- An open engine is loaded and started at its entry. -/
def State.loadEngine (s : State) (n : AxisId) (j : EngId) (budget : Word) (b : List Byte) : State :=
  let s := s.stopOpen n j
  let ws := wordsOf (b.drop 16)
  let code := ws.take (imgInstrs b)
  let data := (ws.drop (imgInstrs b)).take (imgDatas b)
  let s := s.modEng n j fun x => { x with
    imem := Mem.wrList [] 0 code, priv := Mem.wrList [] 1024 (data.drop 1024)
    pc := BitVec.ofNat 11 (imgEntry b), budget := budget.setWidth 20, loaded := true, st := .active
    act := 1#32, actAt := s.cref, period := 2 * (s.axis n).pwm.act.per.toNat, epoch := s.seam.epoch.toNat }
  { s with sig := s.sig.wrList (sigAddr n j.val 0) (data.take 1024) }

def execEngineLoad (h : DescHdr) (axis engine : BitVec 8) (budget imgLen imgCrc : Word) (image : List Byte) (s : State) :
    Host.Outcome State Fault Refusal :=
  .next (s.decodeNow h false (.engineLoad h axis engine budget imgLen imgCrc image)
    (fun s =>
      let role := match axisOf? axis with | some n => (s.axis n).clu.role | none => false
      let b := padTo imgLen.toNat image
      firstFail [
        failIf ((axisOf? axis).isNone || decide (15 < engine.toNat) || (!role && decide (engine.toNat < 14)) ||
          budget = 0#32 || decide (1048575 < budget.toNat) || decide (imgLen.toNat < 20) || decide (16400 < imgLen.toNat)) .badArg,
        dataCheck h 4 imgLen.toNat,
        failIf (!s.variant.openEngines) .absent, s.axisCheck axis,
        match axisOf? axis with | some n => failIf (s.axis n).clu.recovering .conflict | none => none,
        failIf (crc32c b ≠ imgCrc) .crc,
        failIf (!imgOk b imgLen.toNat) .badArg])
    fun s =>
      match engOf? axis engine with
      | none => s
      | some (n, j) => (s.loadEngine n j budget (padTo imgLen.toNat image)).done h .ok)

def execEngineStop (h : DescHdr) (axis engine : BitVec 8) (s : State) : Host.Outcome State Fault Refusal :=
  .next (s.decodeNow h false (.engineStop h axis engine)
    (fun s => firstFail [
      failIf ((engOf? axis engine).isNone) .badArg, failIf (!s.variant.openEngines) .absent, s.axisCheck axis,
      match engOf? axis engine with | some (n, j) => failIf (!s.isOpen n j) .badArg | none => none])
    fun s =>
      match engOf? axis engine with
      | none => s
      | some (n, j) => (s.stopOpen n j).done h .ok)

end Sys2Proof.Machine
end

