-- ==== Sys2Proof/Machine/FaultTab.lean ====
section
/-! DEFINITION. The fault sources: their default and least classes, their escalation words after reset,
and their scopes (15 R420 to R425, R432). -/

namespace Sys2Proof.Machine

/-- The default class of an axis source by k (15 R421). -/
def axisDflt (k : Nat) : BitVec 3 := if k = 11 || k = 15 then 0#3 else 1#3
/-- The least class of an axis source by k. -/
def axisMin (k : Nat) : BitVec 3 :=
  if k = 4 || k = 7 || k = 9 || k = 10 || k = 11 || k = 14 || k = 15 then 0#3 else 1#3
/-- The default class of a bank source by j, which is its least class too (15 R422). -/
def bankDflt (j : Nat) : BitVec 3 := if j = 1 || j = 3 || j = 4 then 0#3 else 2#3

/-- The sources fixed at GRAVE: LOCKSTEP_REPEAT, THIMBLE_SELFTEST, OTP_INTEGRITY (15 R423). -/
def srcFixed (k : Nat) : Bool := 1101 ≤ k && k ≤ 1103

/-- The listed device sources; other numbers from FS1088 on are reserved (15 R420, R423). -/
def srcListed (k : Nat) : Bool :=
  k < 1088 || (k ≤ 1112) || (1120 ≤ k && k ≤ 1135) || (1152 ≤ k && k ≤ 1215)

/-- The default class of a source (15 R421 to R423). -/
def srcDflt (k : Nat) : BitVec 3 :=
  if k < 1024 then axisDflt (k % 16)
  else if k < 1088 then bankDflt (k % 8)
  else if srcFixed k then 4#3
  else if (1090 ≤ k && k ≤ 1100) || k = 1104 || k = 1105 || k = 1108 then 3#3
  else 0#3

/-- The least class of a source. -/
def srcMin (k : Nat) : BitVec 3 :=
  if k < 1024 then axisMin (k % 16)
  else if k = 1098 || k = 1099 then 0#3
  else srcDflt k

/-- FLT_ESC bits 23:0 after reset (15 R432). -/
def escDflt (k : Nat) : BitVec 24 :=
  if k < 1024 && k % 16 = 11 then 0x04200A#24
  else if k < 1024 && k % 16 = 12 then 0x037258#24
  else 0#24

/-- The class field of a source. -/
def State.fltClass (s : State) (k : Nat) : BitVec 3 := Mem.get srcDflt s.flt.cls k
/-- The escalation field of a source. -/
def State.fltEsc (s : State) (k : Nat) : BitVec 24 := Mem.get escDflt s.flt.esc k

/-- A host write of a class field: a value below the least class sets that, and fixed and reserved
sources keep theirs (15 R420, R441). -/
def State.setClass (s : State) (k : Nat) (c : BitVec 3) : State :=
  if srcFixed k || !srcListed k then s
  else s.modFlt fun f => { f with cls := f.cls.set srcDflt k (if c < srcMin k then srcMin k else c) }

/-- A host write of an escalation field. -/
def State.setEsc (s : State) (k : Nat) (v : BitVec 24) : State :=
  s.modFlt fun f => { f with esc := f.esc.set escDflt k v }

/-- The scope of a source (15 R423). -/
def srcScope (k : Nat) : Scope :=
  if k < 1024 then .axis (Fin.ofNat 64 (k / 16))
  else if k < 1088 then .bank (Fin.ofNat 8 ((k - 1024) / 8))
  else if 1152 ≤ k && k ≤ 1215 then .axis (Fin.ofNat 64 (k - 1152))
  else .device

/-- FAULT_N is high: Thimble has started, nothing is GRAVE, and nothing outstanding has a class at or
above FAULTN_MIN (15 R430). -/
def State.faultN (s : State) : Bool :=
  s.flt.thimble && !s.flt.grave && s.flt.outCls.all fun e => decide (e.2.toNat < bits s.flt.ctrl 2 0)

end Sys2Proof.Machine
end

