-- ==== Sys2Proof/Machine/RegMap.lean ====
section
/-! DEFINITION. The registers of BAR0 as a read shows them (21 R531 to R538 and the register tables of
each chapter): which offsets hold a register, its unit, and its value. Fields that hardware counts
or sets are kept apart in the state and put together here. -/

namespace Sys2Proof.Machine

/-- What a register is, for the checks of Seams and snapshots (10 R285, R297). -/
inductive RegKind where
  /-- No register at this offset. -/
  | none
  /-- A write-only register. -/
  | wo
  /-- A register of RC fields alone. -/
  | rc
  /-- A register with an RC field beside others. -/
  | mixed
  | plain
  deriving DecidableEq, Repr

/-- The unit that a register belongs to (21 R532). -/
inductive RegUnit where
  | sys (domain : Nat)
  | ledger
  | can (c : CanId)
  | bank (b : BankId)
  | axis (n : AxisId)
  deriving DecidableEq, Repr

/-- A group of registers: first offset, number, stride, kind. -/
abbrev RegRow := Nat × Nat × Nat × RegKind

/-- The row that holds an offset. -/
def RegRow.hit (o : Nat) (r : RegRow) : Bool :=
  let (lo, cnt, st, _) := r
  lo ≤ o && o < lo + cnt * st && (o - lo) % st = 0

/-- The kind of the register at an offset in a list of rows. -/
def kindIn (l : List RegRow) (o : Nat) : RegKind :=
  match l.find? (RegRow.hit o) with
  | some (_, _, _, k) => k
  | Option.none => .none

/-- The registers outside the CAN, BNK and AX blocks. -/
def sysRows : List RegRow := [
  (0x0000, 4, 4, .plain), (0x1000, 1, 4, .plain), (0x1010, 2, 4, .plain),
  (0x2000, 1, 4, .plain), (0x2004, 1, 4, .mixed), (0x2010, 3, 4, .plain), (0x2020, 3, 4, .plain),
  (0x2030, 2, 4, .plain), (0x2040, 3, 4, .plain), (0x2050, 3, 4, .plain), (0x2060, 1, 4, .plain),
  (0x2800, 1, 4, .plain), (0x2840, 32, 4, .plain), (0x2900, 3, 4, .plain), (0x2910, 8, 4, .plain),
  (0x2930, 4, 4, .plain), (0x2940, 1, 4, .mixed), (0x3000, 1, 4, .plain),
  (0x4000, 1, 4, .plain), (0x4004, 1, 4, .mixed), (0x4008, 2, 4, .plain), (0x4014, 1, 4, .plain),
  (0x4020, 1, 4, .plain), (0x4040, 8, 4, .plain), (0x4100, 48, 4, .plain)] ++ [
  (0x4400, 192, 4, .plain), (0x5000, 1536, 4, .plain),
  (0x8000, 64, 0x20, .plain), (0x8004, 64, 0x20, .plain), (0x8008, 64, 0x20, .plain), (0x800C, 64, 0x20, .plain),
  (0x8800, 16, 0x20, .plain), (0x8804, 16, 0x20, .plain), (0x8808, 16, 0x20, .plain), (0x880C, 16, 0x20, .plain),
  (0x8C00, 1, 4, .mixed), (0x8C04, 1, 4, .plain), (0x8C08, 1, 4, .mixed), (0x8C10, 2, 4, .plain),
  (0xA000, 256, 4, .plain), (0xA400, 2, 4, .plain),
  (0xC000, 64, 8, .wo), (0xC400, 16, 8, .wo), (0xC800, 1, 4, .wo), (0xC808, 1, 4, .wo),
  (0x10000, 2, 4, .plain), (0x10008, 1, 4, .rc), (0x1000C, 1, 4, .plain), (0x10100, 64, 4, .plain),
  (0x14000, 1, 4, .mixed), (0x18000, 2, 4, .plain)] ++ [
  (0x18100, 32, 16, .plain), (0x18104, 32, 16, .plain), (0x18108, 32, 16, .rc), (0x1810C, 32, 16, .plain),
  (0x28000, 11, 4, .plain), (0x28030, 14, 4, .plain),
  (0x30000, 1, 4, .plain), (0x30004, 1, 4, .mixed), (0x30010, 8, 4, .plain),
  (0x39000, 3, 4, .plain),
  (0x40000, 4, 4, .plain), (0x44000, 1, 4, .plain), (0x44004, 1, 4, .mixed), (0x44010, 4, 4, .plain),
  (0x44020, 9, 4, .plain), (0x48000, 2, 4, .plain), (0x48008, 1, 4, .mixed), (0x4800C, 2, 4, .plain),
  (0x48020, 12, 4, .plain), (0x50000, 9, 4, .plain),
  (0x58000, 33, 4, .plain), (0x58084, 2, 4, .wo), (0x5808C, 3, 4, .plain)]

/-- The registers of a master port, from its base (13 R392). -/
def portRows : List RegRow := [(0x000, 2, 4, .plain), (0x010, 4, 4, .plain), (0x040, 8, 4, .mixed)]
/-- The registers of a CAN controller (12 R371). -/
def canRows : List RegRow := [(0x000, 6, 4, .plain), (0x018, 1, 4, .rc), (0x01C, 6, 4, .plain), (0x100, 64, 4, .plain)]
/-- The registers of a bank (02 R58 to R63, 03 R91, 07 R217). -/
def bankRows : List RegRow := [(0x000, 4, 4, .plain), (0x010, 1, 4, .mixed), (0x014, 5, 4, .plain)]
/-- The registers of an axis (02, 03, 04, 05, 09). -/
def axisRows : List RegRow := [
  (0x000, 16, 4, .plain), (0x040, 1, 4, .mixed), (0x044, 2, 4, .plain), (0x400, 5, 4, .plain),
  (0x800, 8, 4, .plain), (0x820, 1, 4, .mixed), (0x824, 1, 4, .plain), (0xC00, 23, 4, .plain),
  (0x1000, 4, 4, .plain), (0x1010, 1, 4, .rc), (0x1040, 16, 4, .plain), (0x1080, 16, 4, .plain), (0x10C0, 16, 4, .rc)]

/-- The unit and the kind of the register at a BAR0 offset. A per-bank, per-axis or per-source register of a block that every
part has, as PWR_GOV_BRK(b), FLT_ST_AGE(b) and FLT_CLASS, is that block's, and answers whether or not its bank or axis is
there (00 R3; DESIGN CHOICE, log entry 147). -/
def regAt (o : Nat) : RegUnit × RegKind :=
  if 0x80000 ≤ o && o < 0x100000 then
    (.axis (Fin.ofNat 64 ((o - 0x80000) / 0x2000)), kindIn axisRows ((o - 0x80000) % 0x2000))
  else if 0x60000 ≤ o && o < 0x68000 then
    (.bank (Fin.ofNat 8 ((o - 0x60000) / 0x1000)), kindIn bankRows ((o - 0x60000) % 0x1000))
  else if 0x20000 ≤ o && o < 0x24000 then
    (.can (Fin.ofNat 4 ((o - 0x20000) / 0x1000)), kindIn canRows ((o - 0x20000) % 0x1000))
  else if 0x31000 ≤ o && o < 0x39000 then (.sys 74, kindIn portRows (o % 0x1000))
  else if 0x50000 ≤ o && o < 0x51000 then (.ledger, kindIn sysRows o)
  else
    let d :=
      if 0x8000 ≤ o && o < 0x10000 then 72
      else if 0x10000 ≤ o && o < 0x18000 then 75
      else if 0x18000 ≤ o && o < 0x20000 then 76
      else if (0x30000 ≤ o && o < 0x40000) || (0x58000 ≤ o && o < 0x60000) then 74
      else if 0x40000 ≤ o && o < 0x44000 then 77
      else 79
    (.sys d, kindIn sysRows o)

/-- A unit is fitted (00 R1, R3). -/
def State.unitPresent (s : State) : RegUnit → Bool
  | .sys _ => true
  | .ledger => s.variant.tally
  | .can c => s.hasCan c
  | .bank b => s.hasBank b
  | .axis n => s.hasAxis n

/-- A unit answers: it is fitted and its domain is on (14 R411). What the table of domains names nowhere, the
Almanac among it, is with the supervisor and never switched (DESIGN CHOICE, log entry 18). -/
def State.unitOn (s : State) : RegUnit → Bool
  | .sys d => d = 79 || s.sysOn d
  | .ledger => s.variant.tally
  | .can c => s.hasCan c && s.sysOn 73
  | .bank b => s.bankOn b
  | .axis n => s.axOn n

/-- The Almanac runs. -/
def State.almOn (s : State) : Bool := s.sysOn 79

/-! Registers by block. -/

/-- Every present axis has STATE HOLD or SAFE (14 R404). -/
def State.allRest (s : State) : Bool := s.present.all s.atRest

/-- PWR_STATE STATE (14 R404, R419). Before the supervisor is ready it reads its reset value, HOLD. -/
def State.pwrCode (s : State) : Nat :=
  match s.pwr.mode with
  | .active => if s.allRest then 1 else 0
  | .doze => 2
  | .enteringDoze | .enteringSleep => 3
  | .waking => 4
  | .off | .start | .sleep => 1

/-- Hard braked axes (07 R218). -/
def State.braked (s : State) : Dword :=
  (s.present.filter fun n => (s.axis n).ch.hardBrake).foldl (fun m n => m ||| axisMask n) 0#64

/-- Every rail is in its window (14 R401). -/
def State.railsOk (s : State) : Bool := s.pwr.rails = 0x1F#5

/-- DEV, CLK, PWR and RST registers. -/
def State.readSys (s : State) (o : Nat) : Word :=
  let p := s.pwr
  match o with
  | 0x0000 => s.variant.devId
  | 0x0004 => s.variant.devCap
  | 0x0008 => lo32 s.variant.axisMask
  | 0x000C => hi32 s.variant.axisMask
  | 0x1000 =>
    let ckl : BitVec 8 := allBanks.foldl (fun m b => setBitW m b.val (s.clk.ckl.getLsbD b.val && s.hasBank b)) 0#8
    fieldAt 16 ckl.toNat ||| bitAt 5 s.clk.ckh ||| bitAt 4 s.clk.dll ||| bitAt 3 s.clk.plln |||
    bitAt 2 s.clk.pllp ||| bitAt 1 s.clk.plle ||| bitAt 0 s.clk.xtal
  | 0x1010 => BitVec.ofNat 32 s.cref
  | 0x1014 => BitVec.ofNat 32 (s.cref / 2 ^ 32)
  | 0x2000 => bitAt 31 p.reqReject ||| fieldAt 4 s.pwrCode
  | 0x2004 => bitAt 31 p.uv ||| bitAt 30 p.ovWarn ||| bitAt 29 s.railsOk ||| bitAt 28 p.rbOn |||
      fieldAt 20 p.rbRevCnt.toNat ||| p.vinsLevel.setWidth 32
  | 0x2010 => p.pdReq.setWidth 32
  | 0x2014 => (p.pdReq >>> 32).setWidth 32
  | 0x2018 => ((p.pdReq >>> 64).setWidth 16).setWidth 32
  | 0x2020 => p.pdOn.setWidth 32
  | 0x2024 => (p.pdOn >>> 32).setWidth 32
  | 0x2028 => ((p.pdOn >>> 64).setWidth 16).setWidth 32 ||| bitAt 14 (p.otpOn s.cref)
  | 0x2030 => lo32 p.dozeKeep
  | 0x2034 => hi32 p.dozeKeep
  | 0x2040 => p.wakeCfg
  | 0x2044 => p.wakeTimer
  | 0x2048 => p.wakeCause.setWidth 32
  | 0x2050 => p.fanCfg
  | 0x2054 => p.fanCurve
  | 0x2058 => bitAt 31 p.fanFail ||| bitAt 30 p.fanRunning ||| fieldAt 28 p.fanKicks.toNat |||
      fieldAt 16 s.fanDuty ||| p.fanRpm.setWidth 32
  | 0x2060 => p.ctrlT1 ++ p.ctrlT0
  | 0x2800 => s.ntcCfg
  | 0x2900 => s.gov.ctrl
  | 0x2904 => s.gov.lvl
  | 0x2908 => s.gov.cfg
  | 0x2930 => lo32 s.gov.mask
  | 0x2934 => hi32 s.gov.mask
  | 0x2938 => lo32 s.braked
  | 0x293C => hi32 s.braked
  | 0x2940 => bitAt 31 s.gov.active ||| bitAt 30 s.gov.hard ||| bitAt 29 s.gov.stale |||
      bitAt 28 s.gov.wrReject ||| s.gov.hardCnt.setWidth 32
  | 0x3000 => s.rst.setWidth 32
  | _ =>
    if 0x2840 ≤ o && o < 0x2880 then s.ntc[Fin.ofNat 16 ((o - 0x2840) / 4)]
    else if 0x2880 ≤ o && o < 0x28C0 then p.ntcT[Fin.ofNat 16 ((o - 0x2880) / 4)]
    else if 0x2910 ≤ o && o < 0x2930 then s.gov.brk[Fin.ofNat 8 ((o - 0x2910) / 4)]
    else 0#32

/-- The open escalation window of a source. -/
def State.escWinOf (s : State) (k : Nat) : Option EscWin := s.flt.escWin.find? fun e => e.src = k

/-- FLT_ST_AGE: minutes since the bank last passed every HOLD-only test (15 R441). -/
def State.selftestAge (s : State) (b : BankId) : Nat :=
  match s.flt.stAt[b] with
  | some t => Nat.min 0xFFFF ((s.cref - t) / 24000000000)
  | none => 0xFFFF

/-- FLT registers (15 R441). -/
def State.readFlt (s : State) (o : Nat) : Word :=
  let f := s.flt
  match o with
  | 0x4000 => f.ctrl
  | 0x4004 => bitAt 31 f.grave ||| bitAt 30 f.deviceOut ||| bitAt 29 s.faultN ||| fieldAt 16 f.bankOut.toNat |||
      f.mergeCnt.setWidth 32
  | 0x4008 => lo32 f.axisOut
  | 0x400C => hi32 f.axisOut
  | 0x4014 => bitAt 0 f.lock
  | 0x4020 => f.inj
  | _ =>
    if 0x4040 ≤ o && o < 0x4060 then fieldAt 0 (s.selftestAge (Fin.ofNat 8 ((o - 0x4040) / 4)))
    else if 0x4100 ≤ o && o < 0x41C0 then (f.sticky >>> (32 * ((o - 0x4100) / 4))).setWidth 32
    else if 0x4400 ≤ o && o < 0x4700 then
      let i := 8 * ((o - 0x4400) / 4)
      (List.range 8).foldl (fun w k => w ||| fieldAt (4 * k) (s.fltClass (i + k)).toNat) 0#32
    else if 0x5000 ≤ o && o < 0x6800 then
      let k := (o - 0x5000) / 4
      let c := match s.escWinOf k with | some e => e.count | none => 0#8
      c ++ s.fltEsc k
    else 0#32

/-- What an MSI-X dword reads after reset: the vector control words are masked. -/
def msixDflt (k : Nat) : Word := if k % 4 = 3 then 1#32 else 0#32

/-- Whether a ring's descriptors are still in flight after it was disabled, DRAINING (11 R312). -/
def State.draining (s : State) (q : Fin 64) : Bool :=
  !s.hst.sq[q].en && ((s.hst.inflight.any fun d => d.src = RingSrc.sq q) ||
    s.hst.cplWait.any fun c => c.src = RingSrc.sq q)

/-- A completion ring's number of entries. -/
def ringSize (cfg : Word) : Nat := 2 ^ bits cfg 3 0

/-- The completion ring of a submission ring. -/
def Sq.cqOf (q : Sq) : Fin 16 := Fin.ofNat 16 (bits q.cfg 27 24)

/-- A completion ring has no free entry: one entry always stays free (11 R313). -/
def Cq.noRoom (c : Cq) : Bool := (c.tail.toNat + 1) % ringSize c.cfg = c.head.toNat

/-- A completion waits for space in ring c. -/
def State.cqFull (s : State) (c : Fin 16) : Bool :=
  s.hst.cq[c].noRoom && s.hst.cplWait.any fun e =>
    match e.src with
    | .sq q => s.hst.sq[q].cqOf = c
    | .tun _ => false

/-- HST and MSI-X registers (11 R340, R341). -/
def State.readHst (s : State) (o : Nat) : Word :=
  let h := s.hst
  if o < 0x8800 then
    let i : Fin 64 := Fin.ofNat 64 ((o - 0x8000) / 0x20)
    let q := h.sq[i]
    match o % 0x20 with
    | 0x00 => q.baseLo
    | 0x04 => q.baseHi
    | 0x08 => q.cfg ||| bitAt 31 q.en ||| bitAt 30 (s.draining i)
    | 0x0C => bitAt 31 q.halted ||| fieldAt 28 q.err.toNat ||| fieldAt 16 q.tail.toNat ||| q.head.setWidth 32
    | _ => 0#32
  else if o < 0x8A00 then
    let i : Fin 16 := Fin.ofNat 16 ((o - 0x8800) / 0x20)
    let c := h.cq[i]
    match o % 0x20 with
    | 0x00 => c.baseLo
    | 0x04 => c.baseHi
    | 0x08 => c.cfg
    | 0x0C => bitAt 31 c.headBad ||| bitAt 30 (s.cqFull i) ||| fieldAt 16 c.tail.toNat ||| c.head.setWidth 32
    | _ => 0#32
  else
    match o with
    | 0x8C00 => bitAt 31 h.ready ||| bitAt 30 h.hostLost ||| bitAt 29 h.hbArmed |||
        fieldAt 16 h.inflight.length ||| h.bar2Cnt.setWidth 32
    | 0x8C04 => h.hbCfg
    | 0x8C08 => fieldAt 24 h.urgLast.toNat ||| fieldAt 16 h.urgBad.toNat ||| h.urgCnt.setWidth 32
    | 0x8C10 => lo32 h.halted
    | 0x8C14 => hi32 h.halted
    | 0xA400 => lo32 h.pba
    | 0xA404 => hi32 h.pba
    | _ => if 0xA000 ≤ o && o < 0xA400 then Mem.get msixDflt h.msix ((o - 0xA000) / 4) else 0#32

def SeamSt.code : SeamSt → Nat
  | .free => 0 | .opened => 1 | .armed => 2 | .staged => 3 | .retiring => 4

/-- A Seam entry is an expect condition (10 R284). -/
def isExpect (e : SeamEntry) : Bool := e.kind = 0x10#8 || e.kind = 0x11#8


/-- Slots that count as armed. -/
def State.armedCount (s : State) : Nat :=
  ((List.finRange 64).filter fun k => let x := s.seam.slot[k]; x.st = SeamSt.armed || x.st = SeamSt.staged).length

/-- SEAM, SNAP and TEL registers (10 R303, R304; 11 R343). -/
def State.readSeam (s : State) (o : Nat) : Word :=
  let u := s.seam
  if 0x18100 ≤ o then
    let t := s.hst.tel[Fin.ofNat 32 ((o - 0x18100) / 16)]
    match o % 16 with
    | 0 => t.wp | 4 => t.rp | 8 => t.drop | 12 => t.seq | _ => 0#32
  else
    match o with
    | 0x10000 => fieldAt 16 s.armedCount |||
        fieldAt 0 ((List.finRange 64).filter fun k => u.slot[k].st ≠ SeamSt.free).length
    | 0x10004 => u.epoch
    | 0x10008 => u.abortCnt ++ u.commitCnt
    | 0x1000C => u.last
    | 0x14000 => fieldAt 16 (u.snaps.filter fun x => x.t.isNone).length ||| u.snapDone.setWidth 32
    | 0x18000 => (List.finRange 32).foldl (fun w i => w ||| bitAt i.val s.hst.tel[i].isOpen) 0#32
    | 0x18004 => s.hst.rpBad
    | _ =>
      if 0x10100 ≤ o && o < 0x10200 then
        let x := u.slot[Fin.ofNat 64 ((o - 0x10100) / 4)]
        fieldAt 29 x.st.code ||| fieldAt 24 (x.entries.filter isExpect).length |||
        fieldAt 15 (x.entries.filter fun e => !isExpect e).length ||| x.gen.setWidth 32
      else 0#32

/-- CAN registers (12 R371). -/
def State.readCan (s : State) (c : CanId) (r : Nat) : Word :=
  let k := s.can[c]
  match r with
  | 0x000 => k.ctrl
  | 0x004 => k.nbt
  | 0x008 => k.dbt
  | 0x00C => k.tdc
  | 0x010 => bitAt 31 k.busOff ||| bitAt 30 (decide (127 < k.tec.toNat) || decide (127 < k.rec_.toNat)) |||
      bitAt 29 (decide (96 ≤ k.tec.toNat) || decide (96 ≤ k.rec_.toNat)) ||| bitAt 28 k.recovering ||| k.sticky |||
      fieldAt 16 k.tdcv.toNat ||| fieldAt 8 k.rec_.toNat ||| k.tec.setWidth 32
  | 0x018 => k.cnt
  | 0x01C => k.tun
  | 0x020 => k.rxLo
  | 0x024 => k.rxHi
  | 0x028 => k.rxCfg
  | 0x02C => k.wp
  | 0x030 => k.rp
  | _ =>
    if 0x100 ≤ r && r < 0x200 then
      let f : Fin 32 := Fin.ofNat 32 ((r - 0x100) / 8)
      if r % 8 = 0 then k.fltId[f] else k.fltMask[f]
    else 0#32

def AlmSt.code : AlmSt → Nat
  | .off => 0 | .holdover => 1 | .locked => 2 | .lost => 3 | .master => 4

/-- The role of ALM_CTRL: 0 OFF, 1 SLAVE, 2 MASTER (12 R372). -/
def almRole (ctrl : Word) : Nat := let r := bits ctrl 1 0; if r = 3 then 0 else r

/-- Bounded on both sides. -/
def clampInt (m v : Int) : Int := if v < -m then -m else if m < v then m else v

/-- The rate r of the Almanac in units of 2^−32: the sum of both terms, within 500 ppm, or 200 ppm of a master
(12 R364, R369). A phase term that has run its time adds nothing. -/
def State.almRate (s : State) : Int :=
  let a := s.alm
  let p := match a.phaseEnd with | some e => if s.cref < e then a.phase else 0 | none => a.phase
  clampInt (if a.st = AlmSt.master then 858993 else 2147483) (a.freq + p)

/-- ALM registers (12 R372). -/
def State.readAlm (s : State) (r : Nat) : Word :=
  let a := s.alm
  match r with
  | 0x00 => a.ctrl
  | 0x04 => a.id
  | 0x08 => a.cfg
  | 0x0C => fieldAt 29 a.st.code ||| bitAt 28 a.frameLocked ||| bitAt 27 a.yielded ||| fieldAt 23 a.follow.toNat |||
      a.sticky.setWidth 32
  | 0x10 => lo32 a.time
  | 0x14 => hi32 a.time
  | 0x18 => lo32 a.set
  | 0x1C => hi32 a.set
  | 0x20 => bitAt 1 a.zeroArmed
  | 0x24 => a.offset
  | 0x28 => BitVec.ofInt 32 s.almRate
  | 0x30 => a.syncCfg
  | 0x34 => lo32 a.syncPer
  | 0x38 => hi32 a.syncPer
  | 0x3C => lo32 a.syncOrg
  | 0x40 => hi32 a.syncOrg
  | 0x44 => lo32 a.syncCnt
  | 0x48 => hi32 a.syncCnt
  | 0x4C => lo32 a.syncTs
  | 0x50 => hi32 a.syncTs
  | 0x54 => lo32 a.soutStart
  | 0x58 => hi32 a.soutStart
  | 0x5C => lo32 a.soutPer
  | 0x60 => hi32 a.soutPer
  | 0x64 => a.soutCfg
  | _ => 0#32

/-- The axis and engine that OWNER_ENG names (13 R393). -/
def spsEng (cfg : Word) : AxisId × EngId := (Fin.ofNat 64 (bits cfg 25 20), Fin.ofNat 16 (bits cfg 19 16))

/-- The owner of SPS runs: the named engine is not stopped, or the supervisor is ready (13 R386, R388). -/
def State.spsOwnerRuns (s : State) : Bool :=
  match bits s.ser.spsCfg 28 27 with
  | 1 => let (n, j) := spsEng s.ser.spsCfg; s.axOn n && decide ((s.eng n j).st ≠ EngState.stopped)
  | 2 => s.sup = SupMode.ready && Config.spsHandler
  | _ => false

/-- SPS_STATUS READY (13 R388). -/
def State.spsReady (s : State) : Bool := bit s.ser.spsCfg 31 && s.spsOwnerRuns

/-- GP_IN (13 R394). -/
def State.gpInReg (s : State) : Word :=
  (List.finRange 32).foldl (fun w i => w ||| bitAt i.val (bit s.ser.gpLevel i.val != bit s.ser.gpCfg[i] 3)) 0#32

/-- SP0, SP, SPS and GP registers (13 R391 to R395). -/
def State.readSer (s : State) (o : Nat) : Word :=
  let r := s.ser
  if 0x31000 ≤ o && o < 0x39000 then
    let p := r.port[Fin.ofNat 8 ((o - 0x31000) / 0x1000)]
    let k := o % 0x1000
    if k = 0 then bitAt 0 p.en
    else if k = 4 then bitAt 31 p.busy ||| bitAt 30 p.wrReject ||| p.len.setWidth 32
    else if 0x10 ≤ k && k < 0x20 then p.sel[Fin.ofNat 4 ((k - 0x10) / 4)]
    else if 0x40 ≤ k && k < 0x60 then
      let x := p.slot[Fin.ofNat 8 ((k - 0x40) / 4)]
      bitAt 31 x.en ||| bitAt 30 x.pend ||| fieldAt 16 x.chkFail.toNat ||| fieldAt 8 x.overrun.toNat
    else 0#32
  else
    match o with
    | 0x30000 => r.info
    | 0x30004 => bitAt 31 r.sfdpOk ||| bitAt 30 r.suspend ||| bitAt 29 r.flashBusy ||| r.suspCnt.setWidth 32
    | 0x39000 => r.spsCfg
    | 0x39004 => r.spsBuf
    | 0x39008 => bitAt 31 r.spsActive ||| bitAt 30 s.spsReady ||| r.spsSticky ||| r.spsCnt.setWidth 32
    | 0x58080 => r.gpOut
    | 0x5808C => s.gpInReg
    | 0x58090 => r.gpEdge
    | 0x58094 => r.gpPulse
    | _ =>
      if 0x30010 ≤ o && o < 0x30030 then r.xr[Fin.ofNat 8 ((o - 0x30010) / 4)]
      else if 0x58000 ≤ o && o < 0x58080 then r.gpCfg[Fin.ofNat 32 ((o - 0x58000) / 4)]
      else 0#32

/-- The debugger holds an engine or a supervisor core halted (16 R462). -/
def State.dbgHalts (s : State) : Bool := s.sec.supHalted || s.present.any fun n => (s.axis n).clu.dbg ≠ 0#16

/-! OTP fields (16 R442, R443). -/

/-- The enclave holds a storage key: not in RETURN or SCRAP (16 R454, 17 R475). -/
def State.storageKey (s : State) : Bool := s.sec.lc ≠ 4#3 && s.sec.lc ≠ 5#3

/-- A word of the OTP, unburnt bits 0. -/
def State.otpWord (s : State) (k : Nat) : Word := s.sec.otp.rd k
/-- The number of bits set in a word: a thermometer code. -/
def ones (w : Word) : Nat := ((List.range 32).filter fun i => bit w i).length
/-- The first word of key slot s. -/
def slotBase (k : Nat) : Nat := 0x120 + 16 * k
/-- HASH of a key slot, words 0 to 11. -/
def State.slotHash (s : State) (k : Nat) : List Word := (List.range 12).map fun i => s.otpWord (slotBase k + i)
def State.slotPresent (s : State) (k : Nat) : Bool := (s.slotHash k).any fun w => w ≠ 0#32
/-- A present slot whose CHECK does not match. -/
def State.slotCheckBad (s : State) (k : Nat) : Bool :=
  s.slotPresent k && crc32c ((s.slotHash k).flatMap wordBytes) ≠ s.otpWord (slotBase k + 14)
def State.slotRevoked (s : State) (k : Nat) : Bool :=
  decide (16 ≤ ones (s.otpWord (slotBase k + 13))) || s.slotCheckBad k
/-- GEN of a key slot. -/
def State.slotGen (s : State) (k : Nat) : Nat := ones (s.otpWord (slotBase k + 12))
/-- The minimum generation of a class: vendor 0, OEM 1. -/
def State.minGen (s : State) (oem : Bool) : Nat := ones (s.otpWord (if oem then 0x1C1 else 0x1C0))

/-- Seconds left on the running trial timer (17 R480). -/
def State.trialLeft (s : State) : Nat :=
  match s.img.trialTimer with
  | some (t, at_) => t - (s.cref - at_) / 400000000
  | none => 0

def BankSt.code : BankSt → Nat
  | .empty => 0 | .writing => 1 | .written => 2 | .trial => 3 | .confirmed => 4 | .rejected => 5

/-- TLY_STATUS WALL_OK: the Almanac's time is valid wall time (18 R490). -/
def State.wallOk (s : State) : Bool :=
  s.alm.st = AlmSt.locked || (s.tly.wasSet && (s.alm.st = AlmSt.master || s.alm.st = AlmSt.off))

/-- A header's version word (17 R487). -/
def verWord (h : ImgHeader) : Word := fieldAt 24 h.major.toNat ||| fieldAt 16 h.minor.toNat ||| fieldAt 8 h.patch.toNat

/-- SEC, OTP, IMG and TLY registers (16 R462, R463; 17 R487; 18 R501). -/
def State.readSec (s : State) (o : Nat) : Word :=
  let c := s.sec
  let m := s.img
  let t := s.tly
  match o with
  | 0x40000 => bitAt 31 c.lcPending ||| fieldAt 24 c.lcNext.toNat ||| c.lc.setWidth 32
  | 0x40004 => bitAt 31 c.tokenOpen ||| bitAt 30 c.nonce.isSome ||| bitAt 29 c.jtagActive ||| bitAt 28 s.dbgHalts |||
      bitAt 27 c.deferred ||| fieldAt 16 (axesOf c.keep).length ||| c.scope.setWidth 32
  | 0x40008 => bitAt 31 c.ready ||| bitAt 30 c.identity ||| bitAt 29 c.certOk ||| bitAt 28 c.tokenOpen
  | 0x4000C => c.romRev
  | 0x44000 => c.otpLock.setWidth 32
  | 0x44004 => bitAt 31 (s.pwr.otpBusy s.cref) ||| bitAt 30 c.otpOk ||| c.burnCnt.setWidth 32
  | 0x44040 => fieldAt 8 (s.minGen true) ||| fieldAt 0 (s.minGen false)
  | 0x48000 => bitAt 31 m.service ||| bitAt 30 m.trial ||| bitAt 29 m.awaitConfirm ||| bitAt 28 m.keyops |||
      fieldAt 16 m.runBank.toNat ||| m.setFlags.setWidth 32 ||| m.setCopy.setWidth 32
  | 0x48004 => fieldAt 0 s.trialLeft
  | 0x48008 => fieldAt 8 m.revertCnt.toNat ||| m.revertCause.setWidth 32
  | 0x4800C => m.setSeq
  | 0x48010 => m.fmtStored ++ m.fmtFirmware
  | 0x50000 => t.cfg
  | 0x50004 => t.clock
  | 0x50008 => bitAt 31 s.wallOk ||| bitAt 30 t.behind ||| bitAt 29 t.unsigned_ ||| bitAt 28 t.rulePending |||
      bitAt 27 t.journalErr
  | 0x5000C => t.headSeq
  | 0x50010 => lo32 t.lastEnd
  | 0x50014 => hi32 t.lastEnd
  | 0x50018 => if s.wallOk then lo32 t.nextEnd else 0#32
  | 0x5001C => if s.wallOk then hi32 t.nextEnd else 0#32
  | 0x50020 => bitAt 0 t.lock
  | _ =>
    if 0x44010 ≤ o && o < 0x44020 then (c.patch >>> (32 * ((o - 0x44010) / 4))).setWidth 32
    else if 0x44020 ≤ o && o < 0x44040 then
      let k := (o - 0x44020) / 4
      bitAt 31 (s.slotPresent k) ||| bitAt 30 (s.slotPresent k && s.slotRevoked k) ||| bitAt 29 (s.slotCheckBad k) |||
      fieldAt 0 (s.slotGen k)
    else if 0x48020 ≤ o && o < 0x48050 then
      let b := m.bank[Fin.ofNat 6 ((o - 0x48020) / 8)]
      if o % 8 = 0 then fieldAt 29 b.st.code ||| bitAt 28 b.encrypted ||| bitAt 27 b.qualified ||| fieldAt 16 b.slots.toNat
      else if b.encrypted && !s.storageKey then 0#32 else match b.hdr with | some h => verWord h | none => 0#32
    else 0#32

/-- BNK registers (02 R58 to R63, 03 R91, 07 R217). -/
def State.readBank (s : State) (b : BankId) (r : Nat) : Word :=
  let k := s.bnk b
  match r with
  | 0x000 => bitAt 0 k.allow
  | 0x004 => fieldAt 16 k.vdrvLevel.toNat ||| fieldAt 8 k.clearCnt.toNat ||| bitAt 5 k.trip |||
      bitAt 4 ((bankAxes b).any fun n => (s.axis n).gdr.latches ≠ 0#16) ||| bitAt 3 s.blocked ||| bitAt 2 k.gateEn |||
      bitAt 1 (s.vdrvCond b) ||| bitAt 0 k.en
  | 0x008 => bitAt 3 k.discRun ||| bitAt 2 (k.stoA && k.stoB) ||| bitAt 1 k.stoB ||| bitAt 0 k.stoA
  | 0x00C => k.brkCfg
  | 0x010 => bitAt 16 k.brkOn ||| k.maxonCnt.setWidth 32
  | 0x014 => bitAt 0 k.lock
  | 0x018 => fieldAt 16 k.vinAvg.toNat ||| k.vinRaw.setWidth 32
  | 0x01C => k.temps[1] ++ k.temps[0]
  | 0x020 => k.temps[3] ++ k.temps[2]
  | 0x024 => k.brkLvl
  | _ => 0#32

/-- A register write of axis n waits on its bank's link, with an offset in [lo, hi). -/
def State.downPending (s : State) (n : AxisId) (lo hi : Nat) : Bool :=
  (s.bnk n.bank).down.any fun e => e.1 = n.val % 8 && decide (lo ≤ e.2.1) && decide (e.2.1 < hi)

/-- PWM registers (04 R120 to R132): shadow-group registers show the active value (R103). -/
def Pwm.read (w : Pwm) (r : Nat) : Word :=
  match r with
  | 0x000 => w.setup.ctrl
  | 0x004 => w.act.per.setWidth 32
  | 0x008 => w.act.cmpA
  | 0x00C => w.act.cmpB
  | 0x010 => w.act.cmpC
  | 0x014 => w.act.dtA
  | 0x018 => w.act.dtB
  | 0x01C => w.act.dtC
  | 0x020 => w.act.phase.setWidth 32
  | 0x024 => w.act.trg
  | 0x028 => w.setup.trgCfg
  | 0x02C => w.setup.win
  | 0x030 => w.setup.bst
  | 0x034 => w.setup.hem
  | 0x038 => w.setup.evt
  | 0x03C => w.setup.dbg
  | 0x040 => bitAt 31 w.dbgHalted ||| bitAt 30 w.charging ||| w.sticky ||| bitAt 18 (w.mode = CntMode.slipping) |||
      fieldAt 8 w.hemRun.toNat ||| w.gusCnt.setWidth 32
  | 0x044 => bitAt 31 w.down ||| fieldAt 0 (w.count % 65536)
  | 0x048 => w.pcount
  | _ => 0#32

/-- FBK registers (05 R154 to R159). -/
def Fbk.read (f : Fbk) (cref r : Nat) : Word :=
  match r with
  | 0xC00 => f.ctrl
  | 0xC04 => f.filt
  | 0xC08 => f.cpr
  | 0xC0C => f.idxCfg
  | 0xC10 => f.ssiCfg
  | 0xC14 => f.ssiFmt
  | 0xC18 => f.lossCfg
  | 0xC1C => bitAt 1 f.idxArm
  | 0xC20 => f.presetLo
  | 0xC24 => f.presetHi
  | 0xC28 => fieldAt 0 f.count
  | 0xC2C => f.rev
  | 0xC30 => f.idxLo
  | 0xC34 => f.idxHi
  | 0xC38 => f.auxLo
  | 0xC3C => f.auxHi
  | 0xC40 => f.idxErr
  | 0xC44 => f.spanN
  | 0xC48 => f.spanT
  | 0xC4C => f.age
  | 0xC50 => lo32 f.ssiRaw
  | 0xC54 => hi32 f.ssiRaw
  | 0xC58 => bitAt 31 (f.lossIll || f.lossHall) ||| bitAt 30 f.dir ||| fieldAt 26 (f.levelBits cref).toNat ||| fieldAt 23 f.code |||
      fieldAt 8 f.leak.toNat ||| f.sticky.setWidth 32
  | _ => 0#32

/-- The state of an engine as CLU_ENG_STATE shows it; DOZE stops every engine (14 R406). -/
def State.engCode (s : State) (x : Eng) : Nat :=
  if s.pwr.mode = PwrMode.doze then 0
  else match x.st with | .stopped => 0 | .waiting => 1 | .active => 2 | .halted => 3

/-- CLU registers (09 R274 to R279). -/
def State.readClu (s : State) (n : AxisId) (r : Nat) : Word :=
  let c := (s.axis n).clu
  match r with
  | 0x1000 => c.ctrl
  | 0x1004 => bitAt 31 c.recovering ||| bitAt 30 c.role ||| fieldAt 16 c.recoverCnt.toNat |||
      fieldAt 12 c.lastEngine.toNat ||| fieldAt 10 c.lastCause.toNat
  | 0x1008 => (List.finRange 16).foldl (fun w j => w ||| fieldAt (2 * j.val) (s.engCode c.eng[j])) 0#32
  | 0x100C => c.miss
  | 0x1010 => c.corrCnt.setWidth 32
  | _ =>
    let j : EngId := Fin.ofNat 16 (r % 0x40 / 4)
    let x := c.eng[j]
    if 0x1040 ≤ r && r < 0x1080 then bitAt 15 (s.isOpen n j) ||| bitAt 14 (x.loaded && x.st ≠ EngState.stopped) ||| x.sticky.setWidth 32
    else if 0x1080 ≤ r && r < 0x10C0 then x.budget.setWidth 32
    else if 0x10C0 ≤ r && r < 0x1100 then x.actMax
    else 0#32

/-- SNS_STATUS OFS_AGE: milliseconds since the latest completed calibration (03 R87). -/
def State.ofsAge (s : State) (q : Sns) : Nat :=
  match q.calAt with
  | some t => Nat.min 0xFFFF ((s.cref - t) / 400000)
  | none => 0xFFFF

/-- The registers of an axis. -/
def State.readAxis (s : State) (n : AxisId) (r : Nat) : Word :=
  let a := s.axis n
  let g := a.gdr
  let q := a.sns
  if r < 0x400 then a.pwm.read r
  else if 0xC00 ≤ r && r < 0x1000 then a.fbk.read s.cref r
  else if 0x1000 ≤ r then s.readClu n r
  else
    match r with
    | 0x400 => g.ctrl
    | 0x404 => g.vdsCfg
    | 0x408 => g.softCfg
    | 0x40C => bitAt 31 (s.downPending n 0x400 0x410) ||| bitAt 30 (g.latches ≠ 0#16 || !s.gateEn n) ||| g.latches.setWidth 32
    | 0x410 => g.live
    | 0x800 => q.cfg
    | 0x804 => bitAt 31 q.lock ||| q.cmp
    | 0x808 => fieldAt 20 q.ofs.c.toNat ||| fieldAt 10 q.ofs.b.toNat ||| q.ofs.a.setWidth 32
    | 0x80C => bitAt 31 (s.downPending n 0x800 0x808) ||| bitAt 30 (s.bnk n.bank).trimOk ||| bitAt 29 q.calShow |||
        fieldAt 25 q.ofsBad.toNat ||| q.sticky ||| fieldAt 0 (s.ofsAge q)
    | 0x810 => fieldAt 16 q.cur.b.toNat ||| q.cur.a.setWidth 32
    | 0x814 => q.cur.c.setWidth 32
    | 0x818 => fieldAt 16 q.vph.b.toNat ||| q.vph.a.setWidth 32
    | 0x81C => q.vph.c.setWidth 32
    | 0x820 => q.sampleCnt ++ q.crcCnt
    | 0x824 => bitAt 0 q.calReq
    | _ => 0#32

/-- The value of the register at an offset, with no effect: 0 for an absent unit, a unit that is off and an
offset that no register occupies (21 R531, 00 R3, 14 R411). -/
def State.regRead (s : State) (o : Nat) : Word :=
  let (u, _) := regAt o
  if !s.unitOn u then 0#32
  else
    match u with
    | .axis n => s.readAxis n ((o - 0x80000) % 0x2000)
    | .bank b => s.readBank b (o % 0x1000)
    | .can c => s.readCan c (o % 0x1000)
    | .ledger => s.readSec o
    | .sys 72 => s.readHst o
    | .sys 74 => s.readSer o
    | .sys 75 => s.readSeam o
    | .sys 76 => s.readSeam o
    | .sys 77 => s.readSec o
    | .sys _ =>
      if o < 0x4000 then s.readSys o
      else if o < 0x8000 then s.readFlt o
      else if 0x28000 ≤ o && o < 0x30000 then s.readAlm (o - 0x28000)
      else s.readSec o

/-! The counts that a read clears (10 R299). -/

/-- What a host read of the register at an offset does beside returning it: its RC fields are cleared. -/
def State.clearRc (s : State) (o : Nat) : State :=
  let (u, k) := regAt o
  if !s.unitOn u || !(k = .rc || k = .mixed) then s
  else
    match u with
    | .axis n =>
      match (o - 0x80000) % 0x2000 with
      | 0x040 => s.modPwm n fun w => { w with gusCnt := 0#8 }
      | 0x820 => s.modSns n fun q => { q with crcCnt := 0#16 }
      | 0x1010 => s.modClu n fun c => { c with corrCnt := 0#16 }
      | r => s.modEng n (Fin.ofNat 16 (r % 0x40 / 4)) fun x => { x with actMax := 0#32 }
    | .bank b => s.modBank b fun k => { k with maxonCnt := 0#16 }
    | .can c => s.modCan c fun k => { k with cnt := 0#32 }
    | .ledger => s
    | .sys _ =>
      match o with
      | 0x2004 => s.modPwr fun p => { p with rbRevCnt := 0#8 }
      | 0x2940 => { s with gov := { s.gov with hardCnt := 0#16 } }
      | 0x4004 => s.modFlt fun f => { f with mergeCnt := 0#16 }
      | 0x8C00 => s.modHst fun h => { h with bar2Cnt := 0#16 }
      | 0x8C08 => s.modHst fun h => { h with urgBad := 0#8 }
      | 0x10008 => s.modSeam fun u => { u with abortCnt := 0#16, commitCnt := 0#16 }
      | 0x14000 => s.modSeam fun u => { u with snapDone := 0#16 }
      | 0x30004 => s.modSer fun r => { r with suspCnt := 0#16 }
      | 0x44004 => s.modSec fun c => { c with burnCnt := 0#16 }
      | 0x48008 => s.modImg fun m => { m with revertCnt := 0#8 }
      | _ =>
        if 0x18100 ≤ o && o < 0x18300 then
          s.modHst fun h =>
            let i : Fin 32 := Fin.ofNat 32 ((o - 0x18100) / 16)
            { h with tel := h.tel.set i { h.tel[i] with drop := 0#32 } }
        else if 0x31000 ≤ o && o < 0x39000 then
          s.modSer fun r =>
            let p : Fin 8 := Fin.ofNat 8 ((o - 0x31000) / 0x1000)
            let k : Fin 8 := Fin.ofNat 8 ((o % 0x1000 - 0x40) / 4)
            let x := r.port[p]
            { r with port := r.port.set p { x with slot := x.slot.set k { x.slot[k] with chkFail := 0#8, overrun := 0#8 } } }
        else s

end Sys2Proof.Machine
end

