-- ==== Sys2Proof/Machine/Seams.lean ====
section
/-! DEFINITION. Seams and snapshots (10): entries and their checks, arming, staging, the decision, commit
and epoch edges, retirement, and the snapshots that latch a list of registers and words. -/

namespace Sys2Proof.Machine

/-! Entries (10 R284, R285). -/

/-- The axis in whose AX block an offset lies. -/
def regAxis? (o : Nat) : Option AxisId :=
  if 0x80000 ≤ o && o < 0x100000 then some (Fin.ofNat 64 ((o - 0x80000) / 0x2000)) else none
/-- An offset within its AX block. -/
def regOff (o : Nat) : Nat := (o - 0x80000) % 0x2000

/-- The registers that a Seam may write (10 R285). -/
def seamReg (o : Nat) : Bool :=
  (regAxis? o).isSome && o % 4 = 0 && (regOff o < 0x03C || (0xC00 ≤ regOff o && regOff o < 0xC28))

/-- The axis that owns an entry's target, when one does (10 R282). -/
def entryAxis? (e : SeamEntry) : Option AxisId :=
  if e.kind = 0x01#8 || e.kind = 0x10#8 then some (sigAxis e.addr.toNat)
  else if e.kind = 0x03#8 then some (Fin.ofNat 64 (bits e.addr 21 16))
  else regAxis? e.addr.toNat

/-- The members of a Seam: AXES, the axes that own its targets, and its reference axis (10 R282). -/
def SeamSlot.members (x : SeamSlot) : Dword :=
  let m := x.entries.foldl (fun m e => match entryAxis? e with | some n => m ||| axisMask n | none => m) x.axes
  if x.point = 1#8 || x.point = 2#8 then m ||| axisMask x.refAxis else m

/-- Two entries name one target. -/
def sameTarget (a b : SeamEntry) : Bool := a.kind = b.kind && a.addr = b.addr

/-- A target's value as a list of entries leaves it, from its old value. -/
def leaves (l : List SeamEntry) (e : SeamEntry) (old : Word) : Word :=
  (l.filter (sameTarget e)).foldl (fun v x => maskWrite v x.value x.mask) old

/-- The old value of a register that a Seam writes: the shadow for the shadow group, else what it reads
(10 R284). -/
def State.regOld (s : State) (o : Nat) : Word :=
  match regAxis? o with
  | none => 0#32
  | some n =>
    let g := (s.axis n).pwm.shadow
    match regOff o with
    | 0x004 => g.per.setWidth 32
    | 0x008 => g.cmpA
    | 0x00C => g.cmpB
    | 0x010 => g.cmpC
    | 0x014 => g.dtA
    | 0x018 => g.dtB
    | 0x01C => g.dtC
    | 0x020 => g.phase.setWidth 32
    | 0x024 => g.trg
    | _ => s.regRead o

/-- The least PER of the chain in force (01 R26). -/
def State.perMin (s : State) (n : AxisId) : Nat := if (s.axis n).ch.reduced then 500 else 1000

/-- An FBK_SSI_FMT word whose field does not fit its frame (05 R153). -/
def ssiFmtBad (v : Word) : Bool := decide (ssiLen v < ssiShift v + ssiWidth v)

/-- A register that an expect condition or a snapshot may name: not WO or RC. One with an RC field beside others may
be named, and what it counts stays (10 R289, R297; DEDUCED, log entry 126). -/
def RegKind.listed (k : RegKind) : Bool := k = .plain || k = .mixed

/-- The check of one entry, given those before it (10 R283 to R285). -/
def State.entryCheck (s : State) (before : List SeamEntry) (e : SeamEntry) (reserved : Bool) (info : Word) : Check :=
  let a := e.addr.toNat
  let bad : Check := some (.badArg, info)
  let wr := e.kind = 0x01#8 || e.kind = 0x02#8 || e.kind = 0x03#8
  if reserved || !(wr || isExpect e) then bad
  else if wr && e.op ≠ 0#8 then bad
  else if isExpect e && (decide (5 < e.op.toNat) || (decide (2 ≤ e.op.toNat) && e.mask ≠ 0xFFFFFFFF#32)) then bad
  else if e.kind = 0x01#8 then
    let v := leaves (before ++ [e]) e (s.sigRead a)
    s.writeCheck a v info
  else if e.kind = 0x10#8 then
    if 1048576 ≤ a then bad
    else firstFail [failIf (!s.hasAxis (sigAxis a)) .absent, failIf (!s.axOn (sigAxis a)) .conflict]
  else if e.kind = 0x03#8 then
    let n : AxisId := Fin.ofNat 64 (bits e.addr 21 16)
    let off := bits e.addr 15 0
    if bits e.addr 31 22 ≠ 0 || off % 4 ≠ 0 then bad
    else firstFail [failIf (!s.hasAxis n) .absent, failIf (!s.axOn n) .conflict,
      failIf (!(s.axis n).clu.role && !(0x1000 ≤ off && off < 0x12E0)) .badArg info]
  else if e.kind = 0x02#8 then
    if !seamReg a then bad
    else
      match regAxis? a with
      | none => bad
      | some n => firstFail [failIf (!s.hasAxis n) .absent, failIf (!s.axOn n) .conflict,
          failIf (regOff a = 0x004 && decide (bits (leaves (before ++ [e]) e (s.regOld a)) 15 0 < s.perMin n)) .badArg info]
  else
    let (u, k) := regAt a
    if !k.listed then bad
    else firstFail [failIf (!s.unitPresent u) .absent, failIf (!s.unitOn u) .conflict]

/-- Entry i of the 16-byte entries in a byte string, and whether its reserved bytes are not 0. -/
def entryAt (bs : List Byte) (i : Nat) : SeamEntry × Bool :=
  let k := 16 * i
  ({ kind := byteAt bs k, op := byteAt bs (k + 1), addr := wordAt bs (k + 4), value := wordAt bs (k + 8),
     mask := wordAt bs (k + 12) }, byteAt bs (k + 2) ≠ 0#8 || byteAt bs (k + 3) ≠ 0#8)

/-- The checks of all new entries, each with those before it. -/
def State.entryChecks (s : State) (held : List SeamEntry) (new : List (SeamEntry × Bool)) : List Check :=
  (List.range new.length).map fun i =>
    match new[i]? with
    | some (e, r) => s.entryCheck (held ++ (new.take i).map (·.1)) e r (fieldAt 0 i)
    | none => none

/-- The first check that ends in a status. -/
def firstWith (st : Status) (l : List Check) : Check :=
  firstFail (l.map fun c => match c with | some (t, i) => if t = st then some (t, i) else none | none => none)

/-! SEAM_OPEN, SEAM_ADD (10 R281 to R283). -/

/-- The slot that a handle names with matching generation. -/
def State.slotOf? (s : State) (h : BitVec 16) : Option (Fin 64) :=
  let k : Fin 64 := Fin.ofNat 64 (h.toNat % 64)
  if s.seamHandle k = h then some k else none

/-- The lowest FREE slot is opened; while none is FREE and some slot retires, the descriptor waits. -/
def State.seamOpen (s : State) (h : DescHdr) (axes : Dword) (flags : BitVec 8) : State :=
  match (List.finRange 64).find? fun k => s.seam.slot[k].st = SeamSt.free with
  | none =>
    if (List.finRange 64).any fun k => s.seam.slot[k].st = SeamSt.retiring then s.setAct h (.seamOpen axes (flags.getLsbD 0))
    else s.done h .noSpace
  | some k =>
    let s := s.modSlot k fun x => { gen := x.gen + 1#10, st := .opened, axes := axes, segGo := flags.getLsbD 0 }
    s.done h .ok ((s.seamHandle k).setWidth 32)

/-- A slot has become FREE: the oldest SEAM_OPEN that waits opens it. -/
def State.seamOpenWaiting (s : State) (k : Fin 64) : State :=
  match s.hst.inflight.findSome? fun d => match d.act with | .seamOpen m g => some (d, m, g) | _ => none with
  | none => s
  | some (d, m, g) =>
    let s := s.modSlot k fun x => { gen := x.gen + 1#10, st := .opened, axes := m, segGo := g }
    s.completeIf (fun e => e.act = d.act) d.src d.tag .ok ((s.seamHandle k).setWidth 32)

def execSeamOpen (h : DescHdr) (axes : Dword) (flags : BitVec 8) (s : State) : Host.Outcome State Fault Refusal :=
  .next (s.decodeNow h false (.seamOpen h axes flags)
    (fun s => firstFail [failIf (decide (2 ≤ flags.toNat)) .badArg, s.axesCheck axes])
    (fun s => s.seamOpen h axes flags))

/-- The entries of SEAM_ADD are checked whole, then appended. -/
def State.seamAdd (s : State) (h : DescHdr) (handle : BitVec 16) (n : Nat) (bs : List Byte) : State :=
  match s.slotOf? handle with
  | none => s.done h .badArg
  | some k =>
    let x := s.seam.slot[k]
    let new := (List.range n).map (entryAt bs)
    let cs := s.entryChecks x.entries new
    let all := x.entries ++ new.map (·.1)
    match firstFail [firstWith .absent cs, firstWith .badArg cs,
      failIf (decide (256 < (all.filter fun e => !isExpect e).length) || decide (16 < (all.filter isExpect).length)) .noSpace,
      firstWith .conflict cs] with
    | some (st, info) => s.done h st info
    | none => (s.modSlot k fun x => { x with entries := all }).done h .ok

def execSeamAdd (h : DescHdr) (handle nEntries : BitVec 16) (entryCrc : Word) (bytes : List Byte) (s : State) :
    Host.Outcome State Fault Refusal :=
  .next (s.decodeNow h false (.seamAdd h handle nEntries entryCrc bytes)
    (fun s => firstFail [failIf (nEntries = 0#16 || decide (256 < nEntries.toNat)) .badArg, dataCheck h 16 (16 * nEntries.toNat),
      match s.slotOf? handle with
      | none => some (.badArg, 0#32)
      | some k => failIf (s.seam.slot[k].st ≠ SeamSt.opened) .conflict,
      failIf (crc32c (bytes.take (16 * nEntries.toNat)) ≠ entryCrc) .crc])
    (fun s => s.seamAdd h handle nEntries.toNat bytes))

/-! SEAM_ARM and staging (10 R286, R288, R295). -/

/-- The counter of an axis runs (04 R94). -/
def State.counterRuns (s : State) (n : AxisId) : Bool :=
  s.axOn n && ((s.axis n).pwm.mode = CntMode.counting || (s.axis n).pwm.mode = CntMode.slipping)

/-- The operands of SEAM_ARM. -/
def State.armCheck (s : State) (handle : BitVec 16) (point armFlags ref : BitVec 8) (at_ step : Dword) : Check :=
  let deferAlm := point = 3#8 && armFlags = 1#8
  firstFail [
    failIf (!((s.slotOf? handle).any fun k => s.seam.slot[k].st = SeamSt.opened)) .badArg,
    failIf (decide (4 < point.toNat) || decide (1 < armFlags.toNat)) .badArg,
    failIf (!(point = 1#8 || point = 2#8) && ref ≠ 0#8) .badArg,
    failIf (point = 0#8 && at_ ≠ 0#64) .badArg,
    failIf (step ≠ 0#64 && !deferAlm) .badArg,
    (if point = 1#8 || point = 2#8 then
      match axisOf? ref with
      | none => some (.badArg, 0#32)
      | some n => failIf (!s.hasAxis n || !s.counterRuns n) .badArg
     else none),
    s.powerCheck,
    failIf (decide (16 ≤ s.armedCount)) .noSpace]

/-- A Seam is armed; its descriptor stays in flight. -/
def State.seamArm (s : State) (h : DescHdr) (k : Fin 64) (point armFlags ref : BitVec 8) (at_ step : Dword) : State :=
  let s := s.modSlot k fun x => { x with
    st := .armed, hdr := some h, point := point, defer := armFlags.getLsbD 0, refAxis := Fin.ofNat 64 ref.toNat
    at_ := at_, deferStep := step, order := s.seam.arms, staging := false, deferrals := 0, decided := false, dueT := 0, t := none }
  (s.modSeam fun u => { u with arms := u.arms + 1 }).setAct h (.seam k)

def execSeamArm (h : DescHdr) (handle : BitVec 16) (point armFlags refAxis : BitVec 8) (at_ deferStep : Dword) (s : State) :
    Host.Outcome State Fault Refusal :=
  .next (s.decodeNow h false (.seamArm h handle point armFlags refAxis at_ deferStep)
    (fun s => s.armCheck handle point armFlags refAxis at_ deferStep)
    (fun s => match s.slotOf? handle with
      | none => s.done h .badArg
      | some k => s.seamArm h k point armFlags refAxis at_ deferStep))

/-- Both Seams write one target (10 R295). -/
def seamsMeet (x y : SeamSlot) : Bool :=
  x.entries.any fun e => !isExpect e && y.entries.any fun f => sameTarget e f

/-- A conflicting Seam armed earlier has neither committed nor aborted. -/
def State.stagingHeld (s : State) (k : Fin 64) : Bool :=
  let x := s.seam.slot[k]
  (List.finRange 64).any fun j =>
    let y := s.seam.slot[j]
    j ≠ k && (y.st = .armed || y.st = .staged || y.going && y.t.isNone) && decide (y.order < x.order) && seamsMeet x y

/-- STAGING_START (10 R288, R295). -/
def execStagingStart (slot : Fin 64) (s : State) : Host.Outcome State Fault Refusal :=
  .next (if s.seam.slot[slot].st = SeamSt.armed && !s.seam.slot[slot].staging && !s.stagingHeld slot
    then s.modSlot slot fun x => { x with staging := true } else s)

/-- The bytes of CTM at `off` as the entries of a Seam leave them. -/
def State.ctmAfter (s : State) (es : List SeamEntry) (n : AxisId) (off len : Nat) : List Byte :=
  (List.range (len / 4)).flatMap fun i =>
    let a := off + 4 * i
    let e : SeamEntry := { kind := 0x03#8, addr := fieldAt 16 n.val ||| fieldAt 0 a, value := 0#32 }
    wordBytes (leaves es e ((s.axis n).clu.ctm.rd (a / 4)))

/-- Offsets in CTM that are part of a region. -/
def inRegion (o lo len : Nat) : Bool := lo ≤ o && o < lo + len

/-- The re-check of one entry at staging (10 R288): PER, FBK_SSI_FMT, records and queued segments as the Seam
leaves them, and the words of stopped open engines. -/
def State.restage (s : State) (es : List SeamEntry) (e : SeamEntry) : Bool :=
  let a := e.addr.toNat
  if e.kind = 0x02#8 then
    match regAxis? a with
    | none => false
    | some n =>
      (regOff a = 0x004 && decide (bits (leaves es e (s.regOld a)) 15 0 < s.perMin n)) ||
      (regOff a = 0xC14 && ssiFmtBad (leaves es e (s.regOld a)))
  else if e.kind = 0x01#8 then s.openStopped (sigAxis a) (sigEng a)
  else if e.kind = 0x03#8 then
    let n : AxisId := Fin.ofNat 64 (bits e.addr 21 16)
    let o := bits e.addr 15 0
    if (s.axis n).clu.role then false
    else if inRegion o 0x1280 48 then !startOk (s.ctmAfter es n 0x1280 48)
    else if inRegion o 0x12B0 48 then !stopOk (s.ctmAfter es n 0x12B0 48)
    else if inRegion o 0x1000 640 then
      let q := (o - 0x1000) / 40
      if s.segDepth n ≤ (q + 16 - s.segHead n) % 16 then false
      else !segOk (s.ctmAfter es n (0x1000 + 40 * q) 40)
    else false
  else false

/-- PER of the half after the next boundary of the counter: the shadow where that boundary is an update point. -/
def Pwm.nextPer (w : Pwm) : Nat := if (if w.down then w.updZero else w.updPeak) then w.shadow.per.toNat else w.act.per.toNat

/-- The cp to the end of the half in which the counter is; a slip delays it (04 R95). -/
def Pwm.toEnd (w : Pwm) (cref : Nat) : Nat :=
  if w.down then w.count else (w.half - w.count) + (if w.mode = .slipping then w.goAt - cref else 0)

/-- The slip at the coming zero of a counter that counts down, under the PER and PHASE in force after that zero. -/
def Pwm.slipAhead (w : Pwm) (cref : Nat) : Nat :=
  Nat.min 64 (Pwm.toTarget { w with act := if w.updZero then w.shadow else w.act } (cref + w.toEnd cref))

/-- The cp from now to the next zero of an axis whose counter runs, and to its next peak, with the slip before it. -/
def Pwm.toZero (w : Pwm) (cref : Nat) : Nat := if w.down then w.toEnd cref else w.toEnd cref + w.nextPer
def Pwm.toPeak (w : Pwm) (cref : Nat) : Nat :=
  if w.down then w.toEnd cref + w.slipAhead cref + w.nextPer else w.toEnd cref

/-- PCOUNT of the period in which the next peak lies. -/
def Pwm.peakCount (w : Pwm) : Nat := if w.down then w.pcount.toNat + 1 else w.pcount.toNat

/-- Almanac time k cp from now, at the rate in force; in the past with k < 0. -/
def State.almAfter (s : State) (k : Int) : Dword :=
  if s.almOn then s.alm.time + BitVec.ofInt 64 (((s.alm.frac : Int) + k * (5 * 2 ^ 32 + 5 * s.almRate)) / 2 ^ 33) else s.alm.time

/-- The commit point of an armed Seam, or the trigger of a snapshot, lies d cp ahead: a zero or peak of an axis at a
PCOUNT (0 for the first), the first edge at or after an Almanac time, or the edge 16 cp after a SYNCIN edge number (10
R287). A forward step of the Almanac's time over the point brings it on the next edge, and to a Seam on the edge 4 cp
after the step, since its decision comes 4 cp before T (12 R367; DEDUCED, log entry 140). -/
def Pwm.zeroIn (w : Pwm) (cref at_ d : Nat) : Bool := w.toZero cref = d && (at_ = 0 || at_ = w.pcount.toNat + 1)
def Pwm.peakIn (w : Pwm) (cref at_ d : Nat) : Bool := w.toPeak cref = d && (at_ = 0 || at_ = w.peakCount)
def State.almStepped (s : State) (at_ d : Nat) : Bool :=
  s.alm.stepAt.any fun e => e.1 + (1 - d) = s.cref && decide (e.2.toNat < at_)
def State.almIn (s : State) (at_ d : Nat) : Bool :=
  decide (at_ ≤ (s.almAfter d).toNat) && (decide ((s.almAfter ((d : Int) - 1)).toNat < at_) || s.almStepped at_ d)
def State.syncIn (s : State) (at_ d : Nat) : Bool :=
  s.alm.syncEdges.any fun e => e.1 + 16 = s.cref + d && (at_ = 0 || at_ = e.2.toNat)

/-- T of a staged Seam lies 4 cp ahead, at its point; all but IMMEDIATE lie at least 2 µs after staging. -/
def State.seamPoint (s : State) (x : SeamSlot) : Bool :=
  let w := (s.axis x.refAxis).pwm
  let far := decide (x.stagedAt + us 2 ≤ s.cref + 4)
  match x.point.toNat with
  | 0 => s.cref = x.stagedAt
  | 1 => far && s.counterRuns x.refAxis && w.zeroIn s.cref x.at_.toNat 4
  | 2 => far && s.counterRuns x.refAxis && w.peakIn s.cref x.at_.toNat 4
  | 3 => far && s.almIn x.at_.toNat 4
  | _ => far && s.syncIn x.at_.toNat 4

/-- The commit point of a staged Seam is late: past, or less than 2 µs ahead (10 R288). -/
def State.seamLate (s : State) (x : SeamSlot) : Bool :=
  let w := (s.axis x.refAxis).pwm
  let at_ := x.at_.toNat
  let pc := w.pcount.toNat
  match x.point.toNat with
  | 1 => x.at_ ≠ 0#64 && (decide (at_ ≤ pc) || (decide (at_ = pc + 1) && decide (w.toZero s.cref < us 2)))
  | 2 => x.at_ ≠ 0#64 && (decide (at_ < w.peakCount) || (decide (at_ = w.peakCount) && decide (w.toPeak s.cref < us 2)))
  | 3 => decide (at_ ≤ (s.almAfter (us 2 - 1)).toNat)
  | 4 => x.at_ ≠ 0#64 && decide (at_ ≤ s.alm.syncCnt.toNat)
  | _ => false

/-- The Almanac time of a late commit point: AT itself, that of a boundary or of a SYNCIN edge's commit edge still ahead,
else that of the abort (10 R294; DEDUCED, log entry 140). -/
def State.lateTime (s : State) (x : SeamSlot) : Dword :=
  let w := (s.axis x.refAxis).pwm
  match x.point.toNat with
  | 1 => if x.at_.toNat = w.pcount.toNat + 1 then s.almAfter (w.toZero s.cref) else s.alm.time
  | 2 => if x.at_.toNat = w.peakCount then s.almAfter (w.toPeak s.cref) else s.alm.time
  | 3 => x.at_
  | 4 => match s.alm.syncEdges.find? fun e => e.2 = x.at_ with
    | some e => s.almAfter (((e.1 + 16 : Nat) : Int) - s.cref)
    | none => s.alm.time
  | _ => s.alm.time

/-- LATE_POLICY (10 R288): an abort, or the next point that is far enough ahead. An Almanac point moves by
whole steps, each of which counts as one deferral. -/
def State.seamDefer (s : State) (k : Fin 64) : State :=
  let x := s.seam.slot[k]
  if !x.defer || (x.point = 3#8 && x.deferStep = 0#64) then s.seamAbortAt k 1 0 (s.lateTime x)
  else if x.point = 3#8 then
    let need := (s.almAfter (us 2 - 1)).toNat + 1 - x.at_.toNat
    let d := (need + x.deferStep.toNat - 1) / x.deferStep.toNat
    s.modSlot k fun y => { y with at_ := BitVec.ofNat 64 (y.at_.toNat + d * y.deferStep.toNat), deferrals := y.deferrals + d }
  else s.modSlot k fun y => { y with at_ := 0#64, deferrals := y.deferrals + 1 }

/-- STAGING_COMPLETE (10 R288). -/
def State.stagingDone (s : State) (k : Fin 64) : State :=
  let x := s.seam.slot[k]
  if x.st ≠ .armed || !x.staging then s
  else
    match (List.range x.entries.length).find? fun i => match x.entries[i]? with
      | some e => s.restage x.entries e
      | none => false with
    | some i => s.seamAbort k 6 i
    | none =>
      let s := s.modSlot k fun y => { y with st := .staged, stagedAt := s.cref }
      if s.seamLate x then s.seamDefer k else s

def execStagingComplete (slot : Fin 64) (s : State) : Host.Outcome State Fault Refusal := .next (s.stagingDone slot)

/-! The decision edge (10 R289). -/

/-- An axis that blocks a Seam. -/
def State.seamBlocked (s : State) (n : AxisId) : Bool :=
  let a := s.axis n
  a.ch.st = .safe || a.clu.recovering || a.pwm.dbgHalted || a.gdr.latches ≠ 0#16 || s.hst.halted.getLsbD n.val

/-- An expect condition holds (10 R284). -/
def State.expectHolds (s : State) (e : SeamEntry) : Bool :=
  let raw := if e.kind = 0x10#8 then s.sigRead e.addr.toNat else s.regRead e.addr.toNat
  let a := raw &&& e.mask
  let v := e.value &&& e.mask
  match e.op.toNat with
  | 0 => a = v
  | 1 => a ≠ v
  | 2 => decide (a.toInt < v.toInt)
  | 3 => decide (v.toInt ≤ a.toInt)
  | 4 => F32.lt a v
  | _ => F32.le v a

/-- The expect conditions of a Seam, in order. -/
def SeamSlot.expects (x : SeamSlot) : List SeamEntry := x.entries.filter isExpect

/-- The word of FBK_CTRL or FBK_CPR that a Seam leaves on an axis. -/
def fbkAfter (x : SeamSlot) (n : AxisId) (r : Nat) (old : Word) : Word :=
  leaves x.entries { kind := 0x02#8, addr := BitVec.ofNat 32 (0x80000 + 0x2000 * n.val + r), value := 0#32 } old

/-- A Seam's writes to register r of an axis, FBK_CTRL or else FBK_CPR, change its base (05 R153). -/
def State.seamBase (s : State) (x : SeamSlot) (n : AxisId) (r : Nat) : Bool :=
  let f := (s.axis n).fbk
  if r = 0xC00 then f.changesBase (fbkAfter x n 0xC00 f.ctrl) f.cpr else f.changesBase f.ctrl (fbkAfter x n 0xC08 f.cpr)

/-- The first entry that makes a base change on an axis not in HOLD. -/
def State.baseBad (s : State) (x : SeamSlot) : Option Nat :=
  (List.range x.entries.length).find? fun i =>
    match x.entries[i]? with
    | some e => e.kind = 0x02#8 && (regOff e.addr.toNat = 0xC00 || regOff e.addr.toNat = 0xC08) &&
        (match regAxis? e.addr.toNat with
         | some n => decide ((s.axis n).ch.st ≠ AxState.hold) && s.seamBase x n (regOff e.addr.toNat)
         | none => false)
    | none => false

/-- SEAM_DECISION, 4 cp before T: the Seam aborts, or it leaves STAGED and will commit on T. A SYNCIN edge less than
2 µs after staging is no commit point: a Seam that named it is late. -/
def State.seamDecide (s : State) (k : Fin 64) : State :=
  let x := s.seam.slot[k]
  let alm := s.almAfter 4
  if x.st ≠ .staged then s
  else if x.point = 4#8 && x.at_ ≠ 0#64 && s.syncIn x.at_.toNat 4 && decide (s.cref + 4 < x.stagedAt + us 2) then s.seamDefer k
  else if !s.seamPoint x then s
  else
    match (axesOf x.members).find? s.seamBlocked with
    | some n => s.seamAbortAt k 2 n.val alm
    | none =>
      match (List.range x.expects.length).find? fun i => match x.expects[i]? with
        | some e => !s.expectHolds e
        | none => false with
      | some i => s.seamAbortAt k 3 i alm
      | none =>
        match s.baseBad x with
        | some i => s.seamAbortAt k 6 i alm
        | none => s.modSlot k fun y => { y with st := .retiring, decided := true, dueT := s.cref + 4 }

def execSeamDecision (slot : Fin 64) (s : State) : Host.Outcome State Fault Refusal := .next (s.seamDecide slot)

/-! The commit edge (10 R290; 01 R20; 05 R146). -/

/-- A PWM register of an axis takes a word: the shadow group's shadows, else the set-up registers. -/
def Pwm.write (w : Pwm) (r : Nat) (v : Word) : Pwm :=
  let g := w.shadow
  let u := w.setup
  match r with
  | 0x000 => { w with setup := { u with ctrl := v &&& 0x000001F3#32 } }
  | 0x004 => { w with shadow := { g with per := v.setWidth 16 } }
  | 0x008 => { w with shadow := { g with cmpA := v &&& 0xC01FFFFF#32 } }
  | 0x00C => { w with shadow := { g with cmpB := v &&& 0xC01FFFFF#32 } }
  | 0x010 => { w with shadow := { g with cmpC := v &&& 0xC01FFFFF#32 } }
  | 0x014 => { w with shadow := { g with dtA := v &&& 0x7FFF7FFF#32 } }
  | 0x018 => { w with shadow := { g with dtB := v &&& 0x7FFF7FFF#32 } }
  | 0x01C => { w with shadow := { g with dtC := v &&& 0x7FFF7FFF#32 } }
  | 0x020 => { w with shadow := { g with phase := v.setWidth 17 } }
  | 0x024 => { w with shadow := { g with trg := v } }
  | 0x028 => { w with setup := { u with trgCfg := v &&& 0x0000000F#32 } }
  | 0x02C => { w with setup := { u with win := v &&& 0x0000FFFF#32 } }
  | 0x030 => { w with setup := { u with bst := v &&& 0x003FFFFF#32 } }
  | 0x034 => { w with setup := { u with hem := v &&& 0x0000FFFF#32 } }
  | 0x038 => { w with setup := { u with evt := v &&& 0x00007FFF#32 } }
  | 0x03C => { w with setup := { u with dbg := v &&& 0x000001FF#32 } }
  | _ => w

/-- A set-up or preset register of the feedback interface takes a word. -/
def Fbk.write (f : Fbk) (r : Nat) (v : Word) : Fbk :=
  match r with
  | 0xC00 => { f with ctrl := v &&& 0x0000FF6F#32 }
  | 0xC04 => { f with filt := v }
  | 0xC08 => { f with cpr := v &&& 0x00FFFFFF#32 }
  | 0xC0C => { f with idxCfg := v }
  | 0xC10 => { f with ssiCfg := v &&& 0xFF3F07FF#32 }
  | 0xC14 => { f with ssiFmt := v &&& 0xFF3F3FBF#32 }
  | 0xC18 => { f with lossCfg := v &&& 0x0000FFFF#32 }
  | 0xC20 => { f with presetLo := v &&& 0x00FFFFFF#32 }
  | 0xC24 => { f with presetHi := v }
  | _ => f

/-- The set-up registers of an axis change together: a base change follows where they make one. -/
def State.fbkSet (s : State) (n : AxisId) (g : Fbk → Fbk) : State :=
  s.fbkBase n fun f =>
    let f' := g f
    if f.changesBase f'.ctrl f'.cpr then f'.baseChange f.mode s.cref else f'

/-- The register writes of a Seam on one axis. -/
def State.commitAxis (s : State) (x : SeamSlot) (n : AxisId) : State :=
  let mine := x.entries.filter fun e => e.kind = 0x02#8 && regAxis? e.addr.toNat = some n
  let pw := mine.filter fun e => decide (regOff e.addr.toNat < 0x400)
  let fb := mine.filter fun e => decide (0xC00 ≤ regOff e.addr.toNat)
  let s := if pw.isEmpty then s
    else
      let s := s.modPwm n fun w => w.capture s.cref
      pw.foldl (fun s e => s.modPwm n fun w =>
        w.write (regOff e.addr.toNat) (maskWrite (s.regOld e.addr.toNat) e.value e.mask)) s
  let s := if fb.isEmpty then s
    else s.fbkSet n fun f => fb.foldl (fun f e => f.write (regOff e.addr.toNat)
      (maskWrite (f.read s.cref (regOff e.addr.toNat)) e.value e.mask)) f
  let s := if fb.isEmpty then s else s.indexCheck n
  let cmd := (fb.filter fun e => regOff e.addr.toNat = 0xC1C).foldl (fun v e => v ||| (e.value &&& e.mask)) 0#32
  let s := if bit cmd 1 then s.modFbk n Fbk.arm else s
  if bit cmd 0 then s.presetPos n false else s

/-- Axes whose base change sets CPR. -/
def State.cprAxes (s : State) (x : SeamSlot) : List AxisId :=
  (axesOf x.members).filter fun n =>
    let f := (s.axis n).fbk
    decide (fbkAfter x n 0xC08 f.cpr &&& 0x00FFFFFF#32 ≠ f.cpr)

/-- SEAM_COMMIT: T has come for a Seam that was decided. It triggers the snapshots on it. E4.73 of an axis whose CPR changes is noted for the
epoch edge (05 R153). -/
def State.seamCommit (s : State) (k : Fin 64) : State :=
  let x := s.seam.slot[k]
  if !x.going || x.t.isSome || x.dueT ≠ s.cref then s
  else
    let cpr := s.cprAxes x
    let s := (axesOf x.members).foldl (fun s n => s.commitAxis x n) s
    s.modSlot k fun y => { y with
      t := some s.cref, tAlm := s.alm.time
      olds := cpr.map fun n => { ctm := false, addr := sigAddr n 4 73, old := s.e n 4 73 } }

def execSeamCommit (slot : Fin 64) (s : State) : Host.Outcome State Fault Refusal := .next (s.seamCommit slot)

/-! The epoch edge (10 R290 to R292). -/

/-- Adds an old value unless the word has one. -/
def keepOld (l : List OldVal) (o : OldVal) : List OldVal :=
  if l.any fun p => p.ctm = o.ctm && p.addr = o.addr then l else l ++ [o]

/-- One signal or CTM write of a Seam, with the old value it covers. Writes to a stopped open engine and to a
cluster that is off are discarded, and cover nothing (R540). -/
def State.epochWrite (s : State) (k : Fin 64) (e : SeamEntry) : State :=
  let a := e.addr.toNat
  if e.kind = 0x01#8 then
    if s.openStopped (sigAxis a) (sigEng a) || !s.axOn (sigAxis a) then s
    else
    let old := s.sigRead a
    let s := s.modSlot k fun y => { y with olds := keepOld y.olds { ctm := false, addr := a, old := old } }
    s.hostSigWrite a (maskWrite old e.value e.mask)
  else if e.kind = 0x03#8 then
    let n : AxisId := Fin.ofNat 64 (bits e.addr 21 16)
    let i := bits e.addr 15 0 / 4
    if !s.axOn n then s
    else
      let old := (s.axis n).clu.ctm.rd i
      let s := s.modSlot k fun y => { y with olds := keepOld y.olds { ctm := true, addr := ctmKey n i, old := old } }
      s.modClu n fun c => { c with ctm := c.ctm.wr i (maskWrite old e.value e.mask) }
  else s

/-- The engines with a public word that a Seam wrote, once each. -/
def seamEngines (l : List OldVal) : List (AxisId × EngId) :=
  ((l.filter fun o => !o.ctm).map fun o => (sigAxis o.addr, sigEng o.addr)).eraseDups

/-- SEG_GO: the head of an axis' queue begins where it waits with START 2 (10 R292). -/
def State.segGo (s : State) (n : AxisId) (t : Nat) : State :=
  let c := (s.axis n).ch
  let free := match c.seg with | none => true | some r => r.ended.isSome
  let g := s.headSeg n
  if s.axOn n && !(s.axis n).clu.role && free && s.segDepth n ≠ 0 && segOk g && byteAt g 24 = 2#8 then s.segBegin n t else s

/-- SEAM_EPOCH, 4 ce after T: the signal and CTM writes, the SEAM events and SEG_GO; the Seam then reports its commit. Seams
that share T share one epoch edge (10 R295). -/
def State.seamEpoch (s : State) (k : Fin 64) : State :=
  let x := s.seam.slot[k]
  match x.t with
  | none => s
  | some t =>
    if !x.going || decide (s.cref < t + 2) then s
    else
      let shared := (List.finRange 64).any fun j =>
        let y := s.seam.slot[j]
        j ≠ k && y.st = .retiring && !y.going && y.t = some t && y.epoch = s.seam.epoch.toNat
      let s := if shared then s else s.modSeam fun u => { u with epoch := u.epoch + 1#32 }
      let s := x.olds.foldl (fun s o =>
        let n := sigAxis o.addr
        if s.axOn n then s.setE n 4 73 (fieldAt 0 ((s.axis n).fbk.cprVal)) else s) s
      let s := x.entries.foldl (fun s e => s.epochWrite k e) s
      let s := (seamEngines s.seam.slot[k].olds).foldl (fun s e => s.oneEvent e.1 e.2 11) s
      let s := if x.segGo then (axesOf x.members).foldl (fun s n => s.segGo n t) s else s
      let s := s.modSlot k fun y => { y with epoch := s.seam.epoch.toNat }
      s.seamResolve k .ok 0 0 x.tAlm

def execSeamEpoch (slot : Fin 64) (s : State) : Host.Outcome State Fault Refusal := .next (s.seamEpoch slot)

/-- Some activation in the module began before epoch edge `e` and is still open, running or held by the debugger
(10 R293). -/
def State.olderRuns (s : State) (e : Nat) : Bool :=
  s.present.any fun n => (s.axis n).clu.eng.toList.any fun x => (x.st = EngState.active || (x.st = EngState.halted && x.haltedFrom = EngState.active)) &&
    decide (0 < epochAfter x.epoch e)

/-- SEAM_RETIRE: the buffer is zeroed and the slot is FREE, which a SEAM_OPEN that waits takes at once. -/
def execSeamRetire (slot : Fin 64) (s : State) : Host.Outcome State Fault Refusal :=
  .next (let x := s.seam.slot[slot]
    if x.st = SeamSt.retiring && !x.going && !(x.t.isSome && s.olderRuns x.epoch) then (s.modSlot slot fun x => { gen := x.gen }).seamOpenWaiting slot else s)

/-- SEAM_CANCEL (10 R296). -/
def State.seamCancel (s : State) (h : DescHdr) (handle : BitVec 16) : State :=
  match s.slotOf? handle with
  | none => s.done h .badArg
  | some k =>
    let x := s.seam.slot[k]
    if x.st = .opened || x.waits then (s.seamAbort k 4 0).done h .ok else s.done h .conflict

def execSeamCancel (h : DescHdr) (handle : BitVec 16) (s : State) : Host.Outcome State Fault Refusal :=
  .next (s.decodeNow h false (.seamCancel h handle) (fun _ => none) (fun s => s.seamCancel h handle))

/-! Snapshots (10 R297, R298). -/

/-- One entry of a snapshot's list. -/
def State.snapEntry (s : State) (w : Word) (i : Nat) : Check :=
  let info := fieldAt 0 i
  if bit w 31 then
    let (u, k) := regAt (bits w 23 0)
    if bits w 30 24 ≠ 0 || !k.listed then some (.badArg, info)
    else firstFail [failIf (!s.unitPresent u) .absent, failIf (!s.unitOn u) .conflict]
  else if bits w 30 20 ≠ 0 then some (.badArg, info)
  else firstFail [failIf (!s.hasAxis (sigAxis w.toNat)) .absent, failIf (!s.axOn (sigAxis w.toNat)) .conflict]

/-- The value of one entry. -/
def State.snapValue (s : State) (w : Word) : Word := if bit w 31 then s.regRead (bits w 23 0) else s.sigRead w.toNat

/-- The checks of SNAPSHOT. -/
def State.snapCheck (s : State) (x : Snap) : Check :=
  let cs := (List.range x.list.length).map fun i => s.snapEntry (x.list.getD i 0#32) i
  firstFail [
    failIf (decide (4 < x.trigger.toNat) || decide (6 < x.event.toNat)) .badArg,
    failIf (x.trigger ≠ 1#8 && (x.event ≠ 0#8 || x.ref ≠ 0#8)) .badArg,
    failIf (x.trigger ≠ 4#8 && x.handle ≠ 0#16) .badArg,
    failIf (x.trigger ≠ 2#8 && x.trigger ≠ 3#8 && x.at_ ≠ 0#64) .badArg,
    failIf (x.dest.toNat % 8 ≠ 0) .badArg,
    dataCheck x.hdr 1 (4 * x.list.length),
    spanCheck x.hdr.src x.dest (16 + 4 * x.list.length),
    (if x.trigger = 1#8 then
      match axisOf? x.ref with
      | none => some (.badArg, 0#32)
      | some n => failIf (!s.hasAxis n) .absent
     else none),
    failIf (x.trigger = 4#8 && !((s.slotOf? x.handle).any fun k =>
      let y := s.seam.slot[k]
      y.st = .opened || y.st = .armed || y.st = .staged || (y.going && y.t.isNone))) .badArg,
    firstWith .absent cs, firstWith .badArg cs, firstWith .conflict cs,
    failIf (decide (16 ≤ (s.seam.snaps.filter fun y => y.t.isNone).length)) .noSpace,
    failIf (x.trigger = 1#8 && !s.counterRuns (Fin.ofNat 64 x.ref.toNat)) .aborted 8#32]

def execSnapshot (h : DescHdr) (trigger event ref cnt : BitVec 8) (handle : BitVec 16) (at_ : Dword)
    (list : List Word) (dest : Dword) (s : State) : Host.Outcome State Fault Refusal :=
  let n := if cnt = 0#8 then 256 else cnt.toNat
  let x : Snap := { hdr := h, trigger := trigger, event := event, ref := ref, handle := handle, at_ := at_,
                    list := list.take n, dest := dest, from_ := s.cref }
  .next (s.decodeNow h false (.snapshot h trigger event ref cnt handle at_ list dest)
    (fun s => s.snapCheck x)
    (fun s => (s.modSeam fun u => { u with snaps := u.snaps ++ [x] }).setAct h .snapshot))

/-- T of a waiting snapshot is this CKP edge (10 R298): the first after decoding, the named event, the Almanac time,
the edge 16 cp after the SYNCIN edge, or the commit edge of the Seam. -/
def State.snapNow (s : State) (x : Snap) : Bool :=
  match x.trigger.toNat with
  | 0 => s.cref = x.from_ + 1
  | 1 => x.t.any fun t => t.1 = s.cref
  | 2 => s.almIn x.at_.toNat 0
  | 3 => s.syncIn x.at_.toNat 0
  | _ => (s.slotOf? x.handle).any fun k => s.seam.slot[k].t = some s.cref

/-- On T the register entries are latched. -/
def State.snapLatch (s : State) (x : Snap) : State :=
  let x' := { x with t := some (s.cref, s.alm.time)
                     regs := some (x.list.map fun w => if bit w 31 then s.snapValue w else 0#32) }
  s.modSeam fun u => { u with snaps := u.snaps.map fun y => if y = x then x' else y }

/-- On E(T) the signal words are read and the record is written. -/
def State.snapWrite (s : State) (x : Snap) (t : Nat) (alm : Dword) (regs : List Word) : State :=
  let vals := (x.list.zip regs).map fun p => if bit p.1 31 then p.2 else s.snapValue p.1
  (s.writeOut x.hdr.src x.dest (dwordBytes (BitVec.ofNat 64 t) ++ dwordBytes alm ++ vals.flatMap wordBytes)).snapEnd x .ok 0

/-- SNAPSHOT_CAPTURE comes twice: on T, after the edge's other actions (01 R20), and on E(T), once every Seam that
committed has reached its epoch edge. -/
def State.snapCapture (s : State) (src : RingSrc) (tag : BitVec 16) : State :=
  match s.seam.snaps.find? fun x => x.hdr.src = src && x.hdr.tag = tag with
  | none => s
  | some x =>
    match x.t, x.regs with
    | some (t, alm), some regs => if s.epochHeldAt t || decide (s.cref < t + 2) then s else s.snapWrite x t alm regs
    | _, _ => if s.snapNow x && !s.commitDue then s.snapLatch x else s

def execSnapshotCapture (src : RingSrc) (tag : BitVec 16) (s : State) : Host.Outcome State Fault Refusal :=
  .next (s.snapCapture src tag)

end Sys2Proof.Machine
end

