-- ==== Sys2Proof/Machine/HostLink.lean ====
section
/-! DEFINITION. The host link (11): configuration, PERST_N and FLR, rings and doorbells, fetching and
completing descriptors, interrupts, urgent commands, the heartbeat and host loss. -/

namespace Sys2Proof.Machine

/-! Interrupt messages (11 R314). -/

/-- The function takes configuration requests: the link is up and PD72 is on (11 R308, 14 R411). -/
def State.linked (s : State) : Bool := s.hst.linkUp && s.sysOn 72
/-- BAR0 answers: not in D3hot, where the module sees no heartbeat (11 R308). -/
def State.bar0 (s : State) : Bool := s.linked && !s.hst.d3hot

/-- Sends MSI-X vector v, once the host has enabled MSI-X: a vector that is masked, by itself or with the whole function,
becomes pending instead (PRESUMED from the Base Specification, log entry 71). -/
def State.msix (s : State) (v : BitVec 6) : State :=
  if !s.bar0 || !s.hst.msixEn then s
  else
    let w (k : Nat) : Word := Mem.get msixDflt s.hst.msix (4 * v.toNat + k)
    if s.hst.msixMask || bit (w 3) 0 then s.modHst fun h => { h with pba := setBitW h.pba v.toNat true }
    else s.emit (.msix v (join64 (w 1) (w 0)) (w 2))

/-- The device vector, at most once in 100 µs (11 R341, 15 R425). -/
def State.devVector (s : State) : State :=
  let due := match s.flt.devVecAt with | none => true | some t => decide (t + us 100 ≤ s.cref)
  if due then
    (s.msix ((s.hst.hbCfg >>> 10).setWidth 6)).modFlt fun f => { f with devVecAt := some s.cref }
  else s

/-! Rings (11 R310 to R312). -/

/-- A ring's base and size are within their limits. -/
def ringOk (base : Word) (cfg : Word) (align : Nat) : Bool :=
  decide (4 ≤ bits cfg 3 0) && decide (bits cfg 3 0 ≤ 12) && decide (base.toNat % align = 0)

/-- A write of HST_SQ_CFG(q). While EN is 1 only a write that clears EN acts. A draining ring is not enabled. -/
def State.sqCfg (s : State) (q : Fin 64) (v : Word) : State :=
  let r := s.hst.sq[q]
  let on := bit v 31
  let put (f : Sq → Sq) : State := s.modHst fun h => { h with sq := h.sq.set q (f h.sq[q]) }
  if (r.en && on) || (on && s.draining q) then s
  else
    let c := v &&& 0x3F00000F#32
    if !on then put fun r => { r with cfg := c, en := false }
    else if ringOk r.baseLo v 64 then
      put fun r => { r with cfg := c, en := true, halted := false, err := 0#3, head := 0#12, tail := 0#12, chainFail := false }
    else put fun r => { r with cfg := c, err := 3#3 }

/-- A write of HST_CQ_CFG(c). -/
def State.cqCfg (s : State) (c : Fin 16) (v : Word) : State :=
  let r := s.hst.cq[c]
  let put (f : Cq → Cq) : State := s.modHst fun h => { h with cq := h.cq.set c (f h.cq[c]) }
  let w := v &&& 0x403F000F#32
  if bit r.cfg 31 && bit v 31 then s
  else if !bit v 31 then put fun r => { r with cfg := w }
  else if ringOk r.baseLo v 16 then put fun r => { r with cfg := w ||| 0x80000000#32, head := 0#12, tail := 0#12, phase := true }
  else put fun r => { r with cfg := w }

/-- RING_ENABLE: the CFG write that sets EN. -/
def execRingEnable (cq : Bool) (q : Fin 64) (cfg : Word) (s : State) : Host.Outcome State Fault Refusal :=
  let v := cfg ||| 0x80000000#32
  .next (if !s.bar0 then s
    else if cq then (if q.val < 16 then s.cqCfg (Fin.ofNat 16 q.val) v else s)
    else s.sqCfg q v)

/-- RING_DISABLE: the CFG write that clears EN of a submission ring and leaves its other fields. -/
def execRingDisable (q : Fin 64) (s : State) : Host.Outcome State Fault Refusal :=
  .next (if s.bar0 then s.sqCfg q (s.hst.sq[q].cfg &&& 0x3F00000F#32) else s)

/-- SQ_DOORBELL (11 R311): the other bits of the value are ignored. -/
def State.sqDoorbell (s : State) (q : Fin 64) (v : Word) : State :=
  let r := s.hst.sq[q]
  if !s.bar0 || !r.en then s
  else
    let i : BitVec 12 := v.setWidth 12
    let r := { r with tail := i }
    let r := if r.halted || i.toNat < ringSize r.cfg then r else { r with halted := true, err := 1#3 }
    s.modHst fun h => { h with sq := h.sq.set q r }

def execSqDoorbell (q : Fin 64) (value : Word) (s : State) : Host.Outcome State Fault Refusal := .next (s.sqDoorbell q value)

/-- CQ_HEAD_DOORBELL (11 R313). -/
def State.cqDoorbell (s : State) (c : Fin 16) (v : Word) : State :=
  let r := s.hst.cq[c]
  if !s.bar0 || !bit r.cfg 31 then s
  else
    let i : BitVec 12 := v.setWidth 12
    let r := if i.toNat < ringSize r.cfg then { r with head := i } else { r with headBad := true }
    s.modHst fun h => { h with cq := h.cq.set c r }

def execCqHeadDoorbell (c : Fin 16) (value : Word) (s : State) : Host.Outcome State Fault Refusal :=
  .next (s.cqDoorbell c value)

/-! Fetching (11 R315). -/

/-- A ring has something to fetch. -/
def Sq.fetchable (r : Sq) : Bool := r.en && !r.halted && r.head ≠ r.tail

/-- The ring of class c that is fetched from next: round robin after the one fetched from last. -/
def State.nextOf (s : State) (c : BitVec 2) : Option (Fin 64) :=
  if !s.place c then none
  else
    let last := s.hst.rr[Fin.ofNat 4 c.toNat]
    ((List.range 64).map fun i => (Fin.ofNat 64 (last.val + 1 + i) : Fin 64)).find? fun q =>
      s.hst.sq[q].fetchable && s.ringClass (.sq q) = c

/-- The ring that is fetched from next: classes in the order URGENT, MOTION, CONFIG, BULK. -/
def State.nextRing (s : State) : Option (Fin 64) :=
  (s.nextOf 0#2).orElse fun _ => (s.nextOf 1#2).orElse fun _ => (s.nextOf 2#2).orElse fun _ => s.nextOf 3#2

/-- DESCRIPTOR_FETCH: the 64 bytes at HEAD of the ring that is next; a fetch that fails halts its ring. -/
def State.fetch (s : State) (ok : Bool) (desc : List Byte) : State :=
  if !s.bar0 then s
  else
    match s.nextRing with
    | none => s
    | some q =>
      let r := s.hst.sq[q]
      if !ok then s.modHst fun h => { h with sq := h.sq.set q { r with halted := true, err := 2#3 } }
      else
        let c := s.ringClass (.sq q)
        s.modHst fun h => { h with
          sq := h.sq.set q { r with head := BitVec.ofNat 12 ((r.head.toNat + 1) % ringSize r.cfg) }
          rr := h.rr.set (Fin.ofNat 4 c.toNat) q
          inflight := h.inflight ++ [s.newEntry (.sq q) desc] }

def execDescriptorFetch (ok : Bool) (desc : List Byte) (s : State) : Host.Outcome State Fault Refusal := .next (s.fetch ok desc)

/-- BAD_DESCRIPTOR (11 R317): an unknown opcode, a FLAGS bit 7:4 or a reserved byte that is not 0. -/
def execBadDescriptor (h : DescHdr) (opcode : BitVec 8) (s : State) : Host.Outcome State Fault Refusal :=
  .next (s.decode h true true (.badDescriptor h opcode) (fun _ => some (.badArg, 0#32)) id)

/-! Completions (11 R313, R318; 12 R356). -/

/-- The 16 bytes of a completion. -/
def State.cplBytes (s : State) (e : Completion) (b3 : BitVec 8) : List Byte :=
  [e.tag.setWidth 8, (e.tag >>> 8).setWidth 8, e.status.code, b3] ++ wordBytes e.info ++
  dwordBytes (e.time.getD s.alm.time)

/-- A completion that can leave now. One of a tunnel leaves after the window data its descriptor wrote, and at
most 32 wait for the bus. -/
def State.cplReady (s : State) (e : Completion) : Bool :=
  match e.src with
  | .sq q =>
    let c := s.hst.cq[s.hst.sq[q].cqOf]
    s.bar0 && bit c.cfg 31 && !c.noRoom
  | .tun c =>
    let tx := s.can[c].ownFrames
    !(tx.any fun b => b.owner = TxOwner.window) &&
    decide ((tx.filter fun b => match b.owner with | .cpl _ _ => true | _ => false).length < 32)

/-- The descriptor of a completion is in flight no more. -/
def State.retire (s : State) (e : Completion) : State :=
  s.modHst fun h => { h with
    inflight := dropFirst (fun d => d.src = e.src && d.tag = e.tag && d.act = Act.done && !d.mute) h.inflight
    cplWait := dropFirst (fun x => x = e) h.cplWait }

/-- COMPLETION_WRITE: the oldest completion that can leave is written at its ring's tail, with its interrupt, or
handed to its bus. -/
def State.cplWrite (s : State) : State :=
  match s.hst.cplWait.find? s.cplReady with
  | none => s
  | some e =>
    match e.src with
    | .sq q =>
      let i := s.hst.sq[q].cqOf
      let c := s.hst.cq[i]
      let b3 : BitVec 8 := BitVec.ofNat 8 (q.val + if c.phase then 128 else 0)
      let s := s.emit (.hostWrite (join64 c.baseHi c.baseLo + BitVec.ofNat 64 (16 * c.tail.toNat)) (s.cplBytes e b3))
      let t := (c.tail.toNat + 1) % ringSize c.cfg
      let s := s.modHst fun h => { h with
        cq := h.cq.set i { c with tail := BitVec.ofNat 12 t, phase := if t = 0 then !c.phase else c.phase } }
      let s := (s.retire e).cplGone e.src e.tag
      if e.irq || bit c.cfg 30 then s.msix ((c.cfg >>> 16).setWidth 6) else s
    | .tun c =>
      let t := s.can[c].tun
      let s := s.retire e
      s.queueOwn c (.cpl e.src e.tag) (bit t 31) (bits t 28 0 + 3) (s.cplBytes e (BitVec.ofNat 8 c.val))

def execCompletionWrite (s : State) : Host.Outcome State Fault Refusal := .next s.cplWrite

/-! Timeouts (11 R319; 10 R296; 13 R381; 15 R440). -/

/-! The bus and the frames that wait for it (12 R346, R351; 15 R439). -/

/-- Time quanta in a nominal bit, in CKN cycles, and in a data bit (R346). -/
def Can.bitNom (k : Can) : Nat := (1 + (bits k.nbt 15 8 + 1) + (bits k.nbt 6 0 + 1)) * (bits k.nbt 24 16 + 1)
def Can.bitData (k : Can) : Nat := (1 + (bits k.dbt 4 0 + 1) + (bits k.dbt 11 8 + 1)) * (bits k.dbt 20 16 + 1)

/-- The attempt time of a frame in CKN cycles (15 R439). -/
def Can.attempt (k : Can) (fdf brs : Bool) : Nat :=
  if !fdf then 160 * k.bitNom else if brs then 80 * k.bitNom + 700 * k.bitData else 780 * k.bitNom

/-- The key by which a frame arbitrates, lowest first: a base identifier stands in bits 28:18 and wins against an
extended one that begins with it (R351; PRESUMED from ISO 11898-1, log entry 143). -/
def frameKey (f : CanFrame) : Nat := if f.ide then 2 * f.id.toNat + 1 else 2 * (f.id.toNat % 2048 * 2 ^ 18)

/-- A frame can be on the bus since CREF `sof`: it was queued by then, FD frames need FD_EN, and no other frame that
waited then goes before it, by identifier or, with the same, by order (R351, R371). -/
def Can.mayGo (k : Can) (b : TxBuf) (sof : Nat) : Bool :=
  let able (x : TxBuf) : Bool := (bit k.ctrl 1 || !x.frame.fdf) && decide (x.at_ ≤ sof)
  able b && !(k.tx.any fun x => able x &&
    (decide (frameKey x.frame < frameKey b.frame) || (frameKey x.frame = frameKey b.frame && decide (x.id < b.id))))

/-- A frame may be on the bus now: the controller is live, no other frame is known to be on it, and the frame may have begun
within the time of one attempt. -/
def State.mayBeOnBus (s : State) (c : CanId) (b : TxBuf) : Bool :=
  let k := s.can[c]
  bit k.ctrl 0 && !bit k.ctrl 2 && !k.busOff && !k.tecOver && !(k.tx.any fun x => x.late) &&
  k.mayGo b (Nat.max b.at_ (s.cref - 5 * k.attempt b.frame.fdf b.frame.brs))

/-- The timeout of a CAN_SEND: a frame whose SOF has not come is withdrawn, one on the bus runs on. Where it may be on the
bus the commands do not show whether its SOF has come, so that is a free value. -/
def State.canSendTimeout (s : State) (c : CanId) (id : Nat) (src : RingSrc) (tag : BitVec 16) : State :=
  match s.can[c].tx.find? fun b => b.id = id with
  | none => s
  | some b =>
    let onBus := s.mayBeOnBus c b && Config.freeBool s.freeCtr
    let s := s.bump
    if b.late then s
    else if onBus then s.modCan c fun k => { k with tx := modFirst (fun b => b.id = id) (fun b => { b with late := true, lateAt := s.cref }) k.tx }
    else
      (s.modCan c fun k => { k with tx := dropFirst (fun b => b.id = id) k.tx }).completeIf
        (fun d => match d.act with | .canSend _ i _ => i = id | _ => false) src tag .timeout 0#32

/-- The timeout of an SP_TRANSFER: one whose select has not fallen sends nothing, one that runs ends late. -/
def State.spTimeout (s : State) (p : Fin 8) (src : RingSrc) (tag : BitVec 16) : State :=
  let x := s.ser.port[p]
  if x.queue.any fun r => r.src = src && r.tag = tag then
    (s.modSer fun r => { r with port := r.port.set p { x with queue := dropFirst (fun q => q.src = src && q.tag = tag) x.queue } }).completeIf
      (fun d => d.act = Act.spTransfer p) src tag .timeout 0#32
  else
    match x.job with
    | some (.desc a b addr _, sl) =>
      if a = src && b = tag then s.modSer fun r => { r with port := r.port.set p { x with job := some (.desc a b addr true, sl) } } else s
    | _ => s

/-- The timeout of a descriptor in flight has run out, counted from its decode or its start edge (11 R319). -/
def InFlight.expired (d : InFlight) (cref : Nat) : Bool := decide (d.since + us d.timeoutUs ≤ cref)

/-- The timeout of a Fitting: a timed one that has not begun to act, its axes neither charging nor sweeping, ends without
effect that long after its TIME; one that acts ends as 08 R221 has it, which names no timeout. -/
def State.fitTimeout (s : State) (d : InFlight) : State :=
  let idle (f : Fit) : Bool := f.hdr.src = d.src && f.hdr.tag = d.tag && f.hdr.flags.getLsbD 2 && !f.started && f.ending.isNone &&
    !((axesOf f.op.axes).any fun n => (s.axis n).ch.st = .charging) &&
    decide (f.hdr.time.toNat + 1000 * d.timeoutUs ≤ s.alm.time.toNat)
  if s.fits.any idle then
    State.completeIf { s with fits := dropFirst idle s.fits } (fun e => e.act = d.act) d.src d.tag .timeout 0#32
  else s

/-- DESCRIPTOR_TIMEOUT of the oldest descriptor in flight with this source and tag that has expired. A descriptor not
yet decoded and a timed one before its start edge have no timeout running; a pulse ends at its stop edge, and a
LENS_MAP that has written FORMAT 0 ends as 08 R244 has it (DESIGN CHOICE, log entry 15). -/
def State.timeout (s : State) (src : RingSrc) (tag : BitVec 16) : State :=
  match s.hst.inflight.find? fun d => d.src = src && d.tag = tag && d.act ≠ .done && d.act ≠ .fetched && d.expired s.cref with
  | none => s
  | some d =>
    match d.act with
    | .axisRun _ _ => s.completeIf (fun e => e.act = d.act) src tag .timeout 0#32
    | .axisMode _ _ | .seamOpen _ _ => s.completeIf (fun e => e.act = d.act) src tag .timeout 0#32
    | .fitting _ => s.fitTimeout d
    | .seam k => if s.seam.slot[k].waits then s.seamResolve k .timeout 0 0 s.alm.time else s
    | .snapshot =>
      match s.seam.snaps.find? fun x => x.hdr.src = src && x.hdr.tag = tag with
      | some x => s.snapEnd x .timeout 0
      | none => s
    | .canSend c id _ => s.canSendTimeout c id src tag
    | .spTransfer p => s.spTimeout p src tag
    | .fetched | .timed _ | .begun _ _ | .pulse _ _ _ _ _ | .lensMap _ _ _ | .done => s

def execDescriptorTimeout (src : RingSrc) (tag : BitVec 16) (s : State) : Host.Outcome State Fault Refusal :=
  .next (s.timeout src tag)

/-! Host loss (11 R332, R333). -/

/-- A stop request on an axis: a stop from RUN, HOLD from STARTING, nothing else (07 R207, R210). -/
def State.stopRequest (s : State) (n : AxisId) : State :=
  match (s.axis n).ch.st with
  | .run => s.beginStop n
  | .starting => s.sendSafe n .hold .aborted
  | .hold | .charging | .stopping | .safe => s

/-- Host loss: axes stop, Fittings and undecided Seams end, HOST_LOST is set and the host is told. -/
def State.loseHost (s : State) : State :=
  let s := (s.fits.filter fun f => f.ending.isNone).foldl (fun s f =>
    (axesOf f.op.axes).foldl (fun s n => s.endFittings n .aborted 4#8) s) s
  let s := (s.forAxes s.present fun n s => s.stopRequest n).settleFits
  let s := (List.finRange 64).foldl (fun s k =>
    let x := s.seam.slot[k]
    if x.st = .opened || x.waits then s.seamAbort k 5 0 else s) s
  let s := s.modHst fun h => { h with hostLost := true, hbArmed := false }
  (s.devVector).raise 1111

/-- HOST_TIMEOUT in cp: 0 acts as 1 ms, above 1,000 as 1,000 (11 R341). -/
def State.hostTimeout (s : State) : Nat := ms (Nat.max 1 (Nat.min 1000 (bits s.hst.hbCfg 9 0)))

/-- HOST_LOSS: an armed timer has reached HOST_TIMEOUT. Until the first heartbeat none is armed. -/
def execHostLoss (s : State) : Host.Outcome State Fault Refusal :=
  .next (if s.hst.hbArmed && decide (s.hst.hbAt + s.hostTimeout ≤ s.cref) then s.loseHost else s)

/-- HB_DOORBELL. -/
def execHbDoorbell (s : State) : Host.Outcome State Fault Refusal := .next (if s.bar0 then s.heartbeat else s)

/-! Resets of the link (11 R307 to R309). -/

/-- A telemetry stream that is closed: nothing of it is kept but what its registers show. -/
def Stream.closed (t : Stream) : Stream := { wp := t.wp, rp := t.rp, drop := t.drop, seq := t.seq }

/-- HST, DBL and MSI-X registers take their reset words, HST_HALTED among them: the marks of HALT commands are gone.
Descriptors in flight run on, their completions discarded (DEDUCED, log entry 16). -/
def Hst.linkReset (h : Hst) : Hst :=
  let isSq (r : RingSrc) : Bool := !isTun r
  { h with
    sq := Vector.replicate 64 {}, cq := Vector.replicate 16 {}, hostLost := false, hbArmed := false
    bar2Cnt := 0#16, hbCfg := 0x00000032#32, urgLast := 0#8, urgBad := 0#8, urgCnt := 0#16
    halted := 0#64, msix := [], pba := 0#64, msixEn := false, msixMask := false, bars := Vector.replicate 4 0#32, d3hot := false
    inflight := (h.inflight.filter fun d => !(isSq d.src && d.act = Act.done)).map fun d => if isSq d.src then { d with mute := true } else d
    cplWait := h.cplWait.filter fun c => !isSq c.src }

/-- The host's latched HI words are forgotten. -/
def State.dropLatches (s : State) (who : Fin 3) : State := { s with hiLatch := s.hiLatch.filter fun e => e.1 ≠ who }

/-- The supervisor has declared itself ready, in SERVICE mode too. -/
def State.supUp (s : State) : Bool := s.sup = SupMode.ready || s.sup = SupMode.service

/-- The Vendor ID of every variant (00 R1; 11 R305). -/
def vendorId : BitVec 16 := 0x1F7E#16

/-- The bits of a dword of configuration space that R305 fixes, as a mask and their values: the ids, class code and
revision; the address bits and type of the BARs, 1 MiB non-prefetchable and 4 MiB prefetchable, each of 64 bits; D0 and
D3hot; 64 MSI-X vectors with table and PBA in BAR0; 256 bytes of payload; FLR; 8 GT/s, x4 and ASPM L1. The Subsystem ids are
the Device ID and Vendor ID while OTP word 0x300 is not programmed. Their places are those of the Base Specification
(PRESUMED, log entry 165). -/
def State.cfgFixed (s : State) (o : BitVec 12) : Word × Word :=
  let all : Word := 0xFFFFFFFF#32
  let h := s.hst
  let id := fieldAt 16 (bits s.variant.devId 31 16) ||| vendorId.setWidth 32
  let sub := s.otpWord 0x300
  let exp := Config.capAt 0
  let pm := Config.capAt 1
  let mx := Config.capAt 2
  if o = 0x000#12 then (all, id)
  else if o = 0x004#12 then (0x00100000#32, 0x00100000#32)
  else if o = 0x008#12 then (all, 0x08800000#32 ||| fieldAt 0 (bits s.variant.devId 15 8))
  else if o = 0x00C#12 then (0x00FF0000#32, 0#32)
  else if o = 0x010#12 then (all, (h.bars[0] &&& 0xFFF00000#32) ||| 0x4#32)
  else if o = 0x014#12 then (all, h.bars[1])
  else if o = 0x018#12 then (all, (h.bars[2] &&& 0xFFC00000#32) ||| 0xC#32)
  else if o = 0x01C#12 then (all, h.bars[3])
  else if o = 0x020#12 || o = 0x024#12 then (all, 0#32)
  else if o = 0x02C#12 then (all, if sub = 0#32 then id else sub)
  else if o = 0x100#12 then (0x0000FFFF#32, 0x0001#32)
  else if o = exp then (0x00F000FF#32, 0x10#32)
  else if o = exp + 4#12 then (0x10000007#32, 0x10000001#32)
  else if o = exp + 12#12 then (0x00000FFF#32, fieldAt 10 2 ||| fieldAt 4 4 ||| 3#32)
  else if o = pm then (0x060000FF#32, 0x01#32)
  else if o = pm + 4#12 then (0x3#32, if h.d3hot then 3#32 else 0#32)
  else if o = mx then (0xFFFF00FF#32, bitAt 31 h.msixEn ||| bitAt 30 h.msixMask ||| fieldAt 16 63 ||| 0x11#32)
  else if o = mx + 4#12 then (all, 0xA000#32)
  else if o = mx + 8#12 then (all, 0xA400#32)
  else (0#32, 0#32)

/-- A dword of configuration space (11 R305). What the Base Specification alone gives is a free value. -/
def State.cfgRead (s : State) (o : BitVec 12) : Word :=
  let f := s.cfgFixed o
  (Config.freeWord s.freeCtr &&& ~~~ f.1) ||| f.2

/-- A pending vector that is masked no more is sent (11 R314). -/
def State.msixUnmask (s : State) (v : BitVec 6) : State :=
  if s.hst.pba.getLsbD v.toNat && s.hst.msixEn && !s.hst.msixMask && !bit (Mem.get msixDflt s.hst.msix (4 * v.toNat + 3)) 0 then
    (s.modHst fun h => { h with pba := setBitW h.pba v.toNat false }).msix v
  else s

/-- CONFIG_REQUEST: a retry status until the supervisor is ready; then the answer, or the change that is written. -/
def State.config (s : State) (r : CfgReq) : State :=
  let s := s.modHst fun h => { h with cfgRetry := !s.supUp, ready := s.supUp }
  if !s.supUp then s
  else
    match r with
    | .read o => (s.emit (.cfgData o (s.cfgRead o))).bump
    | .power d3 => s.modHst fun h => { h with d3hot := d3 }
    | .msix e m => (List.range 64).foldl (fun s v => s.msixUnmask (BitVec.ofNat 6 v)) (s.modHst fun h => { h with msixEn := e, msixMask := m })
    | .bar i v => s.modHst fun h => { h with bars := h.bars.set i v }

def execConfigRequest (r : CfgReq) (s : State) : Host.Outcome State Fault Refusal :=
  .next (if s.linked then s.config r else s)

/-- PERST_N falls: nothing of the link answers. -/
def execPerstNAssert (s : State) : Host.Outcome State Fault Refusal :=
  .next (s.modHst fun h => { h with perstLow := true, linkUp := false })

/-- PERST_N is released: PD72 and its registers are reset and the link trains. -/
def execPerstNRelease (s : State) : Host.Outcome State Fault Refusal :=
  .next (if !s.hst.perstLow then s
    else
      let s := s.dropLatches 0
      s.modHst fun h => { h.linkReset with perstLow := false, linkUp := s.clk.ckh && s.sysOn 72, ready := s.supUp })

/-- FUNCTION_LEVEL_RESET. -/
def execFunctionLevelReset (s : State) : Host.Outcome State Fault Refusal :=
  .next (if !s.linked then s
    else
      let s := s.loseHost.dropLatches 0
      s.modHst fun h => { h.linkReset with ready := s.supUp, rpBad := 0#32, tel := Vector.replicate 32 {} })

/-- What a host read of BAR2 at an offset returns: the signal word whole, 0 for an absent cluster and, past the 4 MiB, nothing
(11 R306); no command stands for it. -/
def State.bar2Read (s : State) (offset : Nat) : Option Word :=
  if s.bar0 && decide (offset < 0x400000) then some (s.sigRead (offset / 4)) else none

/-- BAR2_WRITE: discarded and counted (11 R306). -/
def execBar2Write (_offset : Nat) (_value : Word) (s : State) : Host.Outcome State Fault Refusal :=
  .next (if s.bar0 then s.modHst fun h => { h with bar2Cnt := satInc h.bar2Cnt } else s)

/-! Urgent commands (11 R330, R331). -/

/-- The axes that a code and argument act on, when they are valid. -/
def State.urgentAxes (s : State) (code arg : Nat) : Option Dword :=
  let mask (l : List AxisId) : Dword := l.foldl (fun m n => m ||| axisMask n) 0#64
  match code with
  | 1 => some (mask s.present)
  | 2 => if h : arg < 8 then (if s.hasBank ⟨arg, h⟩ then some (mask ((bankAxes ⟨arg, h⟩).filter s.hasAxis)) else none) else none
  | 3 => if h : arg < 64 then (if s.hasAxis ⟨arg, h⟩ then some (axisMask ⟨arg, h⟩) else none) else none
  | _ => none

/-- A Fitting that has not begun on a halted axis ends at once; one that sweeps or charges ends when its axes
are back in HOLD. -/
def State.haltFits (s : State) (m : Dword) : State :=
  let early (f : Fit) : Bool := (f.op.axes &&& m) ≠ 0#64 && f.ending.isNone && !f.started &&
    !(axesOf f.op.axes).any fun n => (s.axis n).ch.st = .charging
  let s' := (s.fits.filter early).foldl (fun s f => s.completeIf
    (fun d => match d.act with | .fitting _ => true | _ => false) f.hdr.src f.hdr.tag .halted 0#32) s
  { s' with fits := s'.fits.filter fun f => !early f }

/-- The axes are marked, the descriptors that name them end HALTED, and each axis goes to its safe state with
STATE HOLD, from SAFE too (DEDUCED, log entry 24). -/
def State.haltAll (s : State) (m : Dword) : State :=
  let s := s.modHst fun h => { h with halted := h.halted ||| m }
  let fitting (d : InFlight) : Bool := match d.act with | .fitting _ => true | _ => false
  let t := s
  let s := s.completeAll (fun d => !fitting d && (t.haltAxes d &&& m) ≠ 0#64) .halted
  let s := s.haltFits m
  s.forAxes (axesOf m) fun n s => s.sendSafe n .hold .halted

/-- A write of URG_DOORBELL or an URGENT frame: a valid command acts and counts, any other counts as bad. -/
def State.urgent (s : State) (data : Word) : State :=
  let code := bits data 31 24
  match s.urgentAxes code (bits data 7 0) with
  | none => s.modHst fun h => { h with urgBad := satInc h.urgBad }
  | some m => (s.modHst fun h => { h with urgLast := BitVec.ofNat 8 code, urgCnt := h.urgCnt + 1#16 }).haltAll m

/-- The data word of a command. -/
def urgWord (code : Nat) (arg : BitVec 8) : Word := fieldAt 24 code ||| arg.setWidth 32

def execHaltAll (arg : BitVec 8) (s : State) : Host.Outcome State Fault Refusal :=
  .next (if s.bar0 then s.urgent (urgWord 1 arg) else s)
def execHaltBank (arg : BitVec 8) (s : State) : Host.Outcome State Fault Refusal :=
  .next (if s.bar0 then s.urgent (urgWord 2 arg) else s)
def execSafeAxis (arg : BitVec 8) (s : State) : Host.Outcome State Fault Refusal :=
  .next (if s.bar0 then s.urgent (urgWord 3 arg) else s)
/-- BAD_URGENT_COMMAND: the write as any other; with a code or argument that is not valid it only counts. -/
def execBadUrgentCommand (data : Word) (s : State) : Host.Outcome State Fault Refusal :=
  .next (if s.bar0 then s.urgent data else s)

end Sys2Proof.Machine
end

