-- ==== Sys2Proof/Machine/AxisDesc.lean ====
section
/-! DEFINITION. The descriptors of axes (11 R324 to R329): NOP, HEARTBEAT, AXIS_STATE, AXIS_MODE,
AXIS_PROFILE, SIGNAL_WRITE, SIGNAL_PULSE, SEGMENT_PUSH and SEGMENT_FLUSH. -/

namespace Sys2Proof.Machine

def execNop (h : DescHdr) (s : State) : Host.Outcome State Fault Refusal :=
  .next (s.decodeNow h true (.nop h) (fun _ => none) (fun s => s.done h .ok))

/-- HEARTBEAT, from any source (11 R332). -/
def execHeartbeat (h : DescHdr) (s : State) : Host.Outcome State Fault Refusal :=
  .next (s.decodeNow h true (.heartbeat h) (fun _ => none) (fun s => s.heartbeat.done h .ok))

/-! AXIS_STATE (11 R326). -/

/-- A reaction is outstanding on a scope that holds axis n (15 R426). -/
def State.outstanding (s : State) (n : AxisId) : Bool :=
  s.flt.axisOut.getLsbD n.val || s.flt.bankOut.getLsbD n.bank.val || s.flt.deviceOut || s.flt.grave

/-- An axis in the coordination role takes no axis descriptor. -/
def State.roleCheck (s : State) (m : Dword) : Check := failIf ((axesOf m).any fun n => (s.axis n).clu.role) .conflict

/-- TARGET HOLD acts: a stop request on RUN and STARTING, a return to HOLD from SAFE. On an axis of a Fitting it is the
stop request of 08 R221, which ends the Fitting, and the descriptor itself completes CONFLICT (11 R326; DEDUCED, log entry
42). -/
def State.holdAct (s : State) (h : DescHdr) (m : Dword) : State :=
  let bad (n : AxisId) : Bool := s.outstanding n || (s.axis n).clu.recovering
  match firstFail [s.axesCheck m, s.roleCheck m, failIf ((axesOf m).any bad) .faulted] with
  | some (st, info) => s.done h st info
  | none =>
    if (axesOf m).any s.inAnyFit then
      let own := (axesOf m).filter s.inAnyFit
      let s := own.foldl (fun s n => s.endFittings n .aborted 3#8) s
      ((s.forAxes own fun n s => s.beginStop n).done h .conflict).settleFits
    else
    let s := s.forAxes (axesOf m) fun n s =>
      if (s.axis n).ch.st = .safe then
        (s.modCh n fun c => { c with st := .hold, holdAt := some s.cref }).takeWaiting n
      else s.stopRequest n
    (s.done h .ok).settleFits

def execAxisStateHold (h : DescHdr) (axes : Dword) (s : State) : Host.Outcome State Fault Refusal :=
  .next (s.decode h true false (.axisStateHold h axes)
    (fun s => firstFail [s.axesCheck axes, s.roleCheck axes]) (fun s => s.holdAct h axes))

/-- What keeps TARGET RUN from being tried. -/
def State.runCheck (s : State) (m : Dword) : Check :=
  firstFail [s.axesCheck m, failIf s.hst.hostLost .denied, failIf s.flt.grave .faulted, s.powerCheck, s.roleCheck m,
    failIf ((axesOf m).any s.inAnyFit) .conflict, failIf ((axesOf m).any fun n => (s.axis n).ch.st ≠ .hold) .conflict]

/-- TARGET RUN acts: checks 1 to 6 of 06 R168 on every axis, then every axis charges. -/
def State.runAct (s : State) (h : DescHdr) (m : Dword) : State :=
  match s.runCheck m with
  | some (st, info) => s.done h st info
  | none =>
    let fails := (axesOf m).filterMap fun n => (s.exitCheck n (s.axis n).ch.mode).map fun e => (n, e)
    match fails with
    | (n, code, st) :: _ =>
      (fails.foldl (fun s f => s.refuse f.1 f.2.1) s).done h st (fieldAt 0 code ||| fieldAt 8 n.val)
    | [] =>
      if (axesOf m).isEmpty then s.done h .ok
      else ((axesOf m).foldl (fun s n => s.charge n) s).setAct h (.axisRun m none)

def execAxisStateRun (h : DescHdr) (axes : Dword) (s : State) : Host.Outcome State Fault Refusal :=
  .next (s.decode h true false (.axisStateRun h axes) (fun s => s.axesCheck axes) (fun s => s.runAct h axes))

/-! AXIS_MODE (11 R327). -/

/-- MODE_REQ with VALID. -/
def modeReq (mode reduced : BitVec 8) : Word := 0x80000000#32 ||| fieldAt 4 reduced.toNat ||| fieldAt 0 mode.toNat

/-- The check of AXIS_MODE. Operand ranges come before absent targets, in every descriptor (DESIGN CHOICE, log entry
142). -/
def State.modeCheck (s : State) (m : Dword) (mode reduced : BitVec 8) : Check :=
  firstFail [failIf (decide (3 < mode.toNat) || decide (1 < reduced.toNat)) .badArg, s.axesCheck m, s.roleCheck m,
    failIf ((axesOf m).any s.inAnyFit) .conflict]

/-- Writes MODE_REQ of each axis; the descriptor waits for the answers. -/
def State.modeAct (s : State) (h : DescHdr) (m : Dword) (mode reduced : BitVec 8) : State :=
  match s.modeCheck m mode reduced with
  | some (st, info) => s.done h st info
  | none =>
    if (axesOf m).isEmpty then s.done h .ok
    else
      let s := s.forAxes (axesOf m) fun n s =>
        (s.setE n 12 18 (modeReq mode reduced)).modCh n fun c => { c with modeWait := true }
      s.setAct h (.axisMode m 0#64)

def execAxisMode (h : DescHdr) (axes : Dword) (mode reduced : BitVec 8) (s : State) : Host.Outcome State Fault Refusal :=
  .next (s.decode h true false (.axisMode h axes mode reduced)
    (fun s => s.modeCheck axes mode reduced) (fun s => s.modeAct h axes mode reduced))

/-! AXIS_PROFILE (11 R328). -/

def execAxisProfile (h : DescHdr) (axis record : BitVec 8) (crc : Word) (bytes : List Byte) (s : State) :
    Host.Outcome State Fault Refusal :=
  let r := bytes.take 48
  .next (s.decodeNow h false (.axisProfile h axis record crc bytes)
    (fun s => firstFail [failIf (decide (1 < record.toNat)) .badArg, dataCheck h 16 48, s.axisCheck axis,
      (match axisOf? axis with | some n => s.roleCheck (axisMask n) | none => none),
      failIf (crc32c r ≠ crc) .crc, failIf (!(if record = 0#8 then startOk r else stopOk r)) .badArg])
    (fun s => match axisOf? axis with
      | some n => (s.ctmWrite n (if record = 0#8 then 0x1280 else 0x12B0) r).done h .ok
      | none => s.done h .badArg))

/-! SIGNAL_WRITE and SIGNAL_PULSE (11 R324, R325). -/

/-- The checks of the entries, each with its index. -/
def State.sigChecks (s : State) (es : List (Word × Word)) : List Check :=
  (List.range es.length).map fun i =>
    let e := es.getD i (0#32, 0#32)
    s.writeCheck e.1.toNat e.2 (fieldAt 8 i)

/-- An absent target ends the descriptor first, then the first entry that fails. -/
def State.sigCheck (s : State) (es : List (Word × Word)) : Check :=
  let cs := s.sigChecks es
  firstFail [failIf (es.isEmpty || decide (5 < es.length)) .badArg, firstWith .absent cs, firstFail cs]

/-- The writes of SIGNAL_WRITE, in order. -/
def State.sigAct (s : State) (h : DescHdr) (es : List (Word × Word)) : State :=
  match s.sigCheck es with
  | some (st, info) => s.done h st info
  | none => (es.foldl (fun s e => s.hostSigWrite e.1.toNat e.2) s).done h .ok

def execSignalWrite (h : DescHdr) (entries : List (Word × Word)) (s : State) : Host.Outcome State Fault Refusal :=
  .next (s.decode h true false (.signalWrite h entries)
    (fun s => firstFail [s.sigCheck entries, s.haltCheck (s.motionAxes (.signalWrite h entries))])
    (fun s => s.sigAct h entries))

/-- The check of a pulse: TIMED is required; the window comes before the lateness. A window of less than a cp
ends OK with ZERO_LENGTH. -/
def State.pulseCheck (s : State) (h : DescHdr) (addr on off : Word) (stop : Dword) : Check :=
  firstFail [
    failIf (!h.flags.getLsbD 2) .badArg,
    firstFail (s.sigChecks [(addr, on)]), firstFail (s.sigChecks [(addr, off)]),
    failIf (decide (stop ≤ h.time)) .badWindow,
    s.haltCheck (s.motionAxes (.signalPulse h addr on off stop)),
    failIf (decide (h.time.toNat < s.alm.time.toNat + 2000)) .aborted 1#32,
    failIf (decide (stop.toNat < h.time.toNat + 3)) .ok 0x80000000#32]

/-- The start edge of a pulse; VALUE_ON takes effect 4 ce later. -/
def State.pulseAct (s : State) (h : DescHdr) (addr on off : Word) (stop : Dword) : State :=
  if stop ≤ s.alm.time then s.done h .ok 0x80000000#32
  else s.setAct h (.pulse addr (some (on, s.cref)) off stop none)

def execSignalPulse (h : DescHdr) (addr on off : Word) (stop : Dword) (s : State) : Host.Outcome State Fault Refusal :=
  .next (s.decode h true false (.signalPulse h addr on off stop)
    (fun s => s.pulseCheck h addr on off stop) (fun s => s.pulseAct h addr on off stop))

/-- Signal words of a timed descriptor take effect 4 ce after its edge (11 R322). -/
def wordsDue (edge cref : Nat) : Bool := decide (edge + 2 ≤ cref)

/-- PULSE_STOP_EDGE comes twice: at the stop edge, and 4 ce later, when VALUE_OFF is written, once VALUE_ON was, and the
descriptor completes. -/
def State.pulseStop (s : State) (src : RingSrc) (tag : BitVec 16) : State :=
  let p (d : InFlight) : Bool := match d.act with | .pulse _ _ _ _ _ => true | _ => false
  match s.hst.inflight.find? fun d => d.src = src && d.tag = tag && p d with
  | none => s
  | some d =>
    match d.act with
    | .pulse a on off stop none =>
      if stop ≤ s.alm.time
      then s.modInflight (fun e => e = d) fun e => { e with act := .pulse a on off stop (some s.cref) } else s
    | .pulse a none off _ (some e) =>
      if wordsDue e s.cref then (s.hostSigWrite a.toNat off).completeIf p src tag .ok 0#32 else s
    | _ => s

def execPulseStopEdge (src : RingSrc) (tag : BitVec 16) (s : State) : Host.Outcome State Fault Refusal :=
  .next (s.pulseStop src tag)

/-! SEGMENT_PUSH and SEGMENT_FLUSH (11 R329). -/

/-- A segment is appended at the queue's end. -/
def State.segAppend (s : State) (n : AxisId) (g : List Byte) : State :=
  let d := s.segDepth n
  (s.ctmWrite n (s.segOff n d) g).setOut n 10 1 (BitVec.ofNat 32 (d + 1))

/-- The checks of SEGMENT_PUSH. -/
def State.segCheck (s : State) (axis : BitVec 8) (g : List Byte) : Check :=
  match axisOf? axis with
  | none => some (.badArg, 0#32)
  | some n => firstFail [s.axisCheck axis, s.haltCheck (axisMask n), failIf (g.length ≠ 40 || !segOk g) .badArg,
      failIf ((s.axis n).clu.role || (s.axis n).ch.mode ≠ AxMode.position) .conflict,
      failIf (decide (16 ≤ s.segDepth n)) .noSpace]

def execSegmentPush (h : DescHdr) (axis : BitVec 8) (seg : List Byte) (s : State) : Host.Outcome State Fault Refusal :=
  .next (s.decodeNow h false (.segmentPush h axis seg) (fun s => s.segCheck axis seg)
    (fun s => match axisOf? axis with
      | some n => (s.segAppend n seg).done h .ok (fieldAt 0 (s.segDepth n + 1))
      | none => s.done h .badArg))

/-- Each named queue is flushed. -/
def State.flushAct (s : State) (h : DescHdr) (m : Dword) : State :=
  match firstFail [s.axesCheck m, s.roleCheck m] with
  | some (st, info) => s.done h st info
  | none => (s.forAxes (axesOf m) fun n s => s.segFlush n).done h .ok

def execSegmentFlush (h : DescHdr) (axes : Dword) (s : State) : Host.Outcome State Fault Refusal :=
  .next (s.decode h true false (.segmentFlush h axes)
    (fun s => firstFail [s.axesCheck axes, s.roleCheck axes]) (fun s => s.flushAct h axes))

/-! Start edges (11 R322, R323). -/

/-- What a timed descriptor does at its start edge. -/
def State.timedAct (s : State) : Instr → State
  | .axisStateHold h m => s.holdAct h m
  | .axisStateRun h m => s.runAct h m
  | .axisMode h m a b => s.modeAct h m a b
  | .signalWrite h es => s.sigAct h es
  | .signalPulse h a on off stop => s.pulseAct h a on off stop
  | .segmentFlush h m => s.flushAct h m
  | _ => s

/-- TIME of a timed descriptor. -/
def timedTime : Instr → Dword
  | .axisStateHold h _ | .axisStateRun h _ | .axisMode h _ _ _ | .signalWrite h _ | .signalPulse h _ _ _ _
  | .segmentFlush h _ => h.time
  | _ => 0#64

/-- The descriptors whose one action is to write signal words, the words of SIGNAL_WRITE or MODE_REQ: it takes effect 4 ce
after the start edge. -/
def isSigWrite : Instr → Bool
  | .signalWrite _ _ | .axisMode _ _ _ _ => true
  | _ => false

/-- TIMED_START: the start edge, once Almanac time is at or past TIME; the descriptor's timeout counts from here. The
words of SIGNAL_WRITE and AXIS_MODE and VALUE_ON of SIGNAL_PULSE are written when the command comes again 4 ce later. -/
def State.timedStart (s : State) (src : RingSrc) (tag : BitVec 16) : State :=
  let q (d : InFlight) : Bool := d.src = src && d.tag = tag &&
    match d.act with | .timed i => decide (timedTime i ≤ s.alm.time) | .begun _ e => wordsDue e s.cref
                     | .pulse _ (some x) _ _ _ => wordsDue x.2 s.cref | _ => false
  match s.hst.inflight.find? q with
  | none => s
  | some d =>
    let set (a : Act) (t : Nat) : State := s.modInflight (fun e => e = d) fun e => { e with act := a, since := t }
    match d.act with
    | .timed i => if isSigWrite i then set (.begun i s.cref) s.cref else (set .fetched s.cref).timedAct i
    | .begun i _ => (set .fetched d.since).timedAct i
    | .pulse a (some x) off stop o => (set (.pulse a none off stop o) d.since).hostSigWrite a.toNat x.1
    | _ => s

def execTimedStart (src : RingSrc) (tag : BitVec 16) (s : State) : Host.Outcome State Fault Refusal :=
  .next (s.timedStart src tag)

end Sys2Proof.Machine
end

