-- ==== Sys2Proof/Machine/Telemetry.lean ====
section
/-! DEFINITION. Telemetry streams (11 R334 to R339). -/

namespace Sys2Proof.Machine

def State.modTel (s : State) (i : Fin 32) (f : Stream → Stream) : State :=
  s.modHst fun h => { h with tel := h.tel.set i (f h.tel[i]) }

/-! TEL_OPEN (R335). -/

/-- RING_SIZE is a power of two from 4 KiB to 64 MiB. -/
def telSizeOk (v : Word) : Bool := (List.range 15).any fun i => v.toNat = 4096 * 2 ^ i

/-- The checks of TEL_OPEN. The words of the list are those that the host link read. -/
def State.telCheck (s : State) (h : DescHdr) (stream cnt event ref vector : BitVec 8) (list : List Word)
    (ringAddr : Dword) (ringSize listCrc watermark : Word) : Check :=
  let words := list.take cnt.toNat
  firstFail [
    failIf (isTun h.src || decide (32 ≤ stream.toNat)) .badArg,
    failIf (!s.sysOn 76) .conflict,
    failIf (s.hst.tel[Fin.ofNat 32 stream.toNat].isOpen) .conflict,
    failIf (cnt = 0#8 || decide (64 < cnt.toNat) || decide (7 < event.toNat)) .badArg,
    failIf (event = 7#8 && ref ≠ 0#8) .badArg,
    failIf (decide (64 ≤ vector.toNat) && vector ≠ 0xFF#8) .badArg,
    failIf (!telSizeOk ringSize || decide (ringSize ≤ watermark)) .badArg,
    failIf (ringAddr.toNat % Nat.max 1 ringSize.toNat ≠ 0) .badArg,
    failIf (crc32c (words.flatMap wordBytes) ≠ listCrc) .crc,
    (if event = 7#8 then none
     else match axisOf? ref with | some n => failIf (!s.hasAxis n) .absent | none => some (.badArg, 0#32)),
    failIf (words.any fun w => bits w 31 20 = 0 && !s.hasAxis (sigAxis w.toNat)) .absent,
    failIf (words.length ≠ cnt.toNat || words.any fun w => bits w 31 20 ≠ 0) .badArg,
    failIf (words.any fun w => !s.axOn (sigAxis w.toNat)) .conflict]

def execTelOpen (h : DescHdr) (stream cnt event ref : BitVec 8) (decim : BitVec 16) (vector : BitVec 8)
    (list : List Word) (ringAddr : Dword) (ringSize listCrc watermark : Word) (s : State) :
    Host.Outcome State Fault Refusal :=
  .next (s.decodeNow h false (.telOpen h stream cnt event ref decim vector list ringAddr ringSize listCrc watermark)
    (fun s => s.telCheck h stream cnt event ref vector list ringAddr ringSize listCrc watermark)
    (fun s => (s.modTel (Fin.ofNat 32 stream.toNat) fun t => {
      isOpen := true, list := list.take cnt.toNat, event := event, ref := ref, decim := Nat.max 1 decim.toNat
      vector := vector, ringAddr := ringAddr, ringSize := ringSize.toNat, watermark := watermark.toNat
      drop := t.drop, tickAt := s.cref / 4000 }).done h .ok))

/-! Records (R337, R338). -/

/-- A record's header. -/
def telHdr (type stream len : Nat) (seq : Word) (cref : Dword) : List Byte :=
  [BitVec.ofNat 8 type, BitVec.ofNat 8 stream, BitVec.ofNat 8 len, BitVec.ofNat 8 (len / 256)] ++ wordBytes seq ++
  dwordBytes cref

/-- The length of a SAMPLE record of k words. -/
def sampleLen (k : Nat) : Nat := 16 * ((16 + 4 * k + 15) / 16)

/-- The bytes that the host has not freed, WP − RP. -/
def Stream.used (t : Stream) : Nat := (t.wp - t.rp).toNat
/-- The free space of the ring. -/
def Stream.free (t : Stream) : Nat := t.ringSize - t.used
/-- The bytes from WP to the ring's end. -/
def Stream.toEnd (t : Stream) : Nat := t.ringSize - t.wp.toNat % t.ringSize
/-- The PAD that a record of `len` bytes needs at WP. -/
def Stream.pad (t : Stream) (len : Nat) : Nat := if t.toEnd < len then t.toEnd else 0
/-- WP after a record of `len` bytes with its PAD. -/
def Stream.past (t : Stream) (len : Nat) : Stream := { t with wp := t.wp + BitVec.ofNat 32 (t.pad len + len) }
/-- The PAD that a sample of `len` bytes needs where it stands: after the GAP that goes before it (11 R338). -/
def Stream.samplePad (t : Stream) (len : Nat) : Nat := if t.gapDrops = 0 then t.pad len else (t.past 32).pad len

/-- Writes bytes at WP and advances it. -/
def State.telPut (s : State) (i : Fin 32) (bs : List Byte) : State :=
  let t := s.hst.tel[i]
  (s.emit (.hostWrite (t.ringAddr + BitVec.ofNat 64 (t.wp.toNat % t.ringSize)) bs)).modTel i fun t =>
    { t with wp := t.wp + BitVec.ofNat 32 bs.length }

/-- Writes a record, after a PAD to the ring's end where it would straddle it. What a PAD holds after its header
is open. -/
def State.telRecord (s : State) (i : Fin 32) (bs : List Byte) : State :=
  let p := s.hst.tel[i].pad bs.length
  let s := if p = 0 then s
    else (s.telPut i (telHdr 3 i.val p 0#32 0#64 ++ openBytes s.freeCtr (p - 16))).bumpBy (p - 16)
  s.telPut i bs

/-- The vector is sent when WP − RP has risen through WATERMARK. -/
def State.telVector (s : State) (i : Fin 32) (before : Nat) : State :=
  let t := s.hst.tel[i]
  if t.vector ≠ 0xFF#8 && decide (before ≤ t.watermark) && decide (t.watermark < t.used) then s.msix (t.vector.setWidth 6)
  else s

/-- CREF of the selected event whose sample the stream takes next, when one is due: its words are read on E(T), 4 ce
after the event, with every Seam that committed at its epoch edge (R334). TICK is every 4,000 cp of CREF,
and its every DECIM-th is counted from the opening (R335; DEDUCED, log entry 132). -/
def State.telDue (s : State) (t : Stream) : Option Nat :=
  if !t.isOpen || !s.sysOn 76 then none
  else if t.event = 7#8 then
    if s.cref % 4000 = 2 && decide (t.tickAt + t.decim ≤ s.cref / 4000) && (s.cref / 4000 - t.tickAt) % t.decim = 0
    then some (s.cref - 2) else none
  else t.due.head?.filter fun e => decide (e + 2 ≤ s.cref)

/-- The sample that is due is taken off. -/
def Stream.taken (t : Stream) (cref : Nat) : Stream :=
  if t.event = 7#8 then { t with tickAt := cref / 4000 } else { t with due := t.due.drop 1 }

/-- The bytes of a SAMPLE record of an event at CREF `at_`. -/
def State.sampleBytes (s : State) (i : Fin 32) (at_ : Nat) : List Byte :=
  let t := s.hst.tel[i]
  let len := sampleLen t.list.length
  let bs := telHdr 1 i.val len t.seq (BitVec.ofNat 64 at_) ++ (t.list.map fun a => s.sigRead a.toNat).flatMap wordBytes
  bs ++ List.replicate (len - bs.length) 0#8

/-- The bytes of a GAP record. -/
def gapBytes (t : Stream) (i : Fin 32) : List Byte :=
  telHdr 2 i.val 32 t.seq 0#64 ++ wordBytes (BitVec.ofNat 32 t.gapDrops) ++ wordBytes 0#32 ++ dwordBytes t.gapCref

/-- A sample for which there is no room is dropped and counted, and its SEQ is consumed. -/
def Stream.dropped (t : Stream) (cref : Nat) : Stream :=
  { t with drop := satInc t.drop, seq := t.seq + 1#32, gapDrops := satAdd (2 ^ 32 - 1) t.gapDrops 1
           gapCref := if t.gapDrops = 0 then BitVec.ofNat 64 cref else t.gapCref }

/-- TEL_SAMPLE: the event that DECIM selected is sampled. A stream whose host link does not answer finds no room. -/
def State.telSample (s : State) (i : Fin 32) : State :=
  let t := s.hst.tel[i]
  match (s.telDue t).filter fun e => !s.epochHeldAt e with
  | none => s
  | some at_ =>
    let bs := s.sampleBytes i at_
    let s := s.modTel i fun t => t.taken s.cref
    if !s.bar0 || decide (t.free < bs.length + t.samplePad bs.length + 48) then s.modTel i fun t => t.dropped at_
    else
      let s := if t.gapDrops = 0 then s else s.telRecord i (gapBytes t i)
      let s := s.telRecord i bs
      let s := s.modTel i fun t => { t with seq := t.seq + 1#32, gapDrops := 0, gapCref := 0#64 }
      s.telVector i t.used

def execTelSample (i : Fin 32) (s : State) : Host.Outcome State Fault Refusal := .next (s.telSample i)

/-! TEL_CLOSE (R336) and TEL_RP (R339). -/

/-- TEL_CLOSE acts: a stream that is not open has no room for an END record. -/
def State.telClose (s : State) (h : DescHdr) (i : Fin 32) : State :=
  let t := s.hst.tel[i]
  let room := t.isOpen && s.bar0 && decide (16 ≤ t.free)
  let s := if room then (s.telRecord i (telHdr 4 i.val 16 t.seq 0#64)).telVector i t.used else s
  (s.modTel i Stream.closed).done h .ok (bitAt 0 (!room))

def execTelClose (h : DescHdr) (stream : BitVec 8) (s : State) : Host.Outcome State Fault Refusal :=
  .next (s.decodeNow h false (.telClose h stream)
    (fun s => firstFail [failIf (decide (32 ≤ stream.toNat)) .badArg, failIf (!s.sysOn 76) .conflict])
    (fun s => s.telClose h (Fin.ofNat 32 stream.toNat)))

/-- A host write of TEL_RP. -/
def State.telRp (s : State) (i : Fin 32) (v : Word) : State :=
  let t := s.hst.tel[i]
  if !s.bar0 || !s.sysOn 76 then s
  else if t.ringSize < (t.wp - v).toNat then s.modHst fun h => { h with rpBad := setBitW h.rpBad i.val true }
  else s.modTel i fun t => { t with rp := v }

def execTelRpWrite (i : Fin 32) (value : Word) (s : State) : Host.Outcome State Fault Refusal := .next (s.telRp i value)

end Sys2Proof.Machine
end

