-- ==== Sys2Proof/Machine/Tallying.lean ====
section
/-! DEFINITION. The Tally (18): wall time and boundaries, clock steps, the records of the journal, and its
commands. -/

namespace Sys2Proof.Machine

/-! Wall time (R489). -/

/-- BOUND_HOUR. -/
def tlyHour (cfg : Word) : Int := Nat.min 23 (bits cfg 7 3)
/-- WEEKDAY. -/
def tlyWeekday (cfg : Word) : Int := let d := bits cfg 10 8; if d = 7 then 0 else d
/-- MONTH_DAY. -/
def tlyMonthDay (cfg : Word) : Int := Nat.max 1 (Nat.min 28 (bits cfg 15 11))

/-- What is added to Almanac seconds to give wall seconds: − LEAP_S + 60 × UTC_OFS. -/
def tlyOffset (clock : Word) : Int :=
  let o : Int := (clock.setWidth 32 >>> 16 |>.setWidth 16 : BitVec 16).toInt
  let o := if o < -720 then -720 else if 840 < o then 840 else o
  60 * o - bits clock 7 0

/-- The day of the month of day d, counted from 2000-01-01. -/
def monthDay (d : Int) : Int :=
  let z := (d + 730425) % 146097
  let yoe := (z - z / 1460 + z / 36524 - z / 146096) / 365
  let doy := z - (365 * yoe + yoe / 4 - yoe / 100)
  let mp := (5 * doy + 2) / 153
  doy - (153 * mp + 2) / 5 + 1

/-- A period boundary falls on day d: day 0 was a Saturday. -/
def boundaryDay (cfg : Word) (d : Int) : Bool :=
  match bits cfg 1 0 with
  | 0 => true
  | 1 => (d + 5) % 7 = tlyWeekday cfg
  | _ => monthDay d = tlyMonthDay cfg

/-- The Almanac time in ns at which the boundary of day d falls. -/
def boundaryAt (cfg clock : Word) (d : Int) : Int :=
  (86400 * d + 3600 * tlyHour cfg - tlyOffset clock) * 1000000000

/-- The day of wall time that an Almanac time falls on. -/
def wallDay (clock : Word) (t : Int) : Int := (t / 1000000000 + tlyOffset clock) / 86400

/-- The first boundary after an Almanac time. -/
def nextBoundary (cfg clock : Word) (t : Int) : Int :=
  let d := wallDay clock t
  let days := (List.range 34).map fun (k : Nat) => d + (k : Int)
  match days.find? fun e => boundaryDay cfg e && decide (t < boundaryAt cfg clock e) with
  | some e => boundaryAt cfg clock e
  | none => t

/-- The last boundary at or before an Almanac time. -/
def lastBoundary (cfg clock : Word) (t : Int) : Int :=
  let d := wallDay clock t
  let days := (List.range 34).map fun (k : Nat) => d - (k : Int)
  match days.find? fun e => boundaryDay cfg e && decide (boundaryAt cfg clock e ≤ t) with
  | some e => boundaryAt cfg clock e
  | none => t

/-! What moving Almanac time does (R490, R496). -/

/-- The open period follows the validity of wall time: it is marked while there is none, and its end is found
once there is. The end of a period whose start is not known is the first boundary after that instant. -/
def State.tlyWall (s : State) : State :=
  if !s.variant.tally then s
  else if !s.wallOk then s.modTly fun t => { t with noTime := true }
  else s.modTly fun t =>
    let t := if t.nextEnd ≠ 0#64 then t
      else { t with nextEnd := BitVec.ofInt 64 (nextBoundary t.cfgNow t.clockNow
                      (if t.start = 0#64 then (s.alm.time.toNat : Int) else t.start.toNat)) }
    if t.lastEnd ≤ s.alm.time then { t with behind := false } else t

/-- A step of Almanac time is noted, with the time before it and its size in ns. -/
def State.tlyStep (s : State) (before : Dword) (size : Int) : State :=
  if !s.variant.tally then s
  else
    let s := s.modTly fun t =>
      let back := decide (s.alm.time < t.lastEnd)
      { t with
        stepCnt := satAdd (2 ^ 32 - 1) t.stepCnt 1
        backNs := if size < 0 then satAdd (2 ^ 64 - 1) t.backNs (-size).toNat else t.backNs
        fwdNs := if size < 0 then t.fwdNs else satAdd (2 ^ 64 - 1) t.fwdNs size.toNat
        steps := t.steps ++ [(before, size)]
        behind := t.behind || back, wasBehind := t.wasBehind || back }
    s.tlyWall

/-! Records (R497). -/

/-- A mask bit as a number. -/
def recBit (i : Nat) (b : Bool) : Nat := if b then 2 ^ i else 0

/-- Torque time with the present run counted in whole milliseconds. -/
def Accrual.upTo (a : Accrual) (cref : Nat) : Accrual :=
  match a.since with
  | none => a
  | some c =>
    let k := (cref - c) / 400000
    { a with torqueMs := satAdd (2 ^ 32 * 1000 - 1) a.torqueMs k, since := some (c + 400000 * k) }

/-- The 24 bytes of an axis. -/
def Accrual.bytes (a : Accrual) : List Byte :=
  wordBytes (fieldAt 0 (a.torqueMs / 1000)) ++ wordBytes (fieldAt 0 a.starts) ++
  dwordBytes (BitVec.ofNat 64 (a.energy / energyUnit)) ++ wordBytes (fieldAt 0 a.peakMa) ++ wordBytes (fieldAt 0 a.faults)

/-- Bytes 0 to 63 of a record. -/
def State.tlyHead (s : State) (type flags : Nat) (end_ : Dword) : List Byte :=
  let t := s.tly
  [0x43#8, 0x59#8, 0x54#8, 0x4C#8, 1#8, 0#8, BitVec.ofNat 8 type, BitVec.ofNat 8 flags] ++ wordBytes (t.headSeq + 1#32) ++
  wordBytes 0#32 ++ dwordBytes t.start ++ dwordBytes end_ ++ dwordBytes s.alm.time ++ wordBytes (fieldAt 0 t.stepCnt) ++
  wordBytes 0#32 ++ dwordBytes (BitVec.ofNat 64 t.backNs) ++ dwordBytes (BitVec.ofNat 64 t.fwdNs)

/-- Bytes 128 to 1,663 of a record. -/
def State.tlyAxes (s : State) : List Byte :=
  allAxes.flatMap fun n => if s.hasAxis n then (s.tly.acc[n].upTo s.cref).bytes else List.replicate 24 0#8

/-- STEPS: the first eight steps that no checkpoint holds yet. -/
def State.tlySteps (s : State) : List Byte :=
  fit 128 ((s.tly.steps.take 8).flatMap fun e => dwordBytes e.1 ++ dwordBytes (BitVec.ofInt 64 e.2))

/-- A record's 2,048 bytes, its CRC last. -/
def tlySeal (body : List Byte) : List Byte := let b := fit 2044 body; b ++ wordBytes (crc32c b)

/-- RFLAGS of the open period: CLOCK_BEHIND, RULE_CHANGE, NO_TIME and RESTORED. -/
def Tly.flags (t : Tly) : Nat := recBit 0 t.wasBehind + recBit 2 t.ruleChange + recBit 5 t.noTime + recBit 6 t.restored

/-- The open period in the form of a CHECKPOINT. -/
def State.checkBytes (s : State) : List Byte :=
  tlySeal (s.tlyHead 2 s.tly.flags 0#64 ++ List.replicate 64 0#8 ++ s.tlyAxes ++ s.tlySteps)

/-- PREV_HASH. -/
def State.prevHash (s : State) : List Byte :=
  match s.tly.lastClose with
  | some b => fit 48 (sha384 b)
  | none => List.replicate 48 0#8

/-! Closing (R493 to R495). -/

/-- The totals of a period that begins: the remainder of torque time below a second is carried. -/
def Accrual.next (a : Accrual) (cref : Nat) : Accrual :=
  let a := a.upTo cref
  { torqueMs := a.torqueMs % 1000, since := a.since }

/-- The open period closes with END e. -/
def State.close (s : State) (e : Int) (span readBackOk : Bool) : State :=
  let t := s.tly
  let debug := s.sec.tokenOpen
  let noKey := !debug && !s.sec.identity
  let flags := t.flags + recBit 1 span + recBit 3 debug + recBit 4 noKey
  let end_ := BitVec.ofInt 64 e
  let sig := if debug || noKey then List.replicate 96 0#8 else openBytes s.freeCtr 96
  let body := s.tlyHead 1 flags end_ ++ s.prevHash ++ List.replicate 16 0#8 ++ s.tlyAxes ++ List.replicate 128 0#8
  let body := body ++ sig
  let r : TlyRec := { seq := t.headSeq + 1#32, bytes := tlySeal body }
  let s := (if debug || noKey then s else s.bumpBy 96).flashWork
  s.modTly fun t => { t with
    cfgNow := t.cfg, clockNow := t.clock, rulePending := false, ruleChange := t.rulePending
    unsigned_ := debug || noKey, journalErr := t.journalErr || !readBackOk
    headSeq := r.seq, lastEnd := end_, start := end_
    nextEnd := BitVec.ofInt 64 (nextBoundary t.cfg t.clock e)
    wasBehind := t.behind, noTime := false, restored := false, stepCnt := 0, backNs := 0, fwdNs := 0
    acc := t.acc.map fun a => a.next s.cref
    lastClose := some body, held := if readBackOk then none else some r
    closes := if readBackOk then (r :: t.closes).take 512 else t.closes }

/-- PERIOD_CLOSE: valid wall time is at or past the end of the open period. More than one boundary passed
closes it once, at the last of them. -/
def State.periodClose (s : State) (readBackOk : Bool) : State :=
  let t := s.tly
  if !s.variant.tally || s.sup ≠ SupMode.ready || !s.wallOk || t.nextEnd = 0#64 || s.alm.time < t.nextEnd then s
  else
    let e := lastBoundary t.cfgNow t.clockNow s.alm.time.toNat
    if (t.nextEnd.toNat : Int) < e then s.close e true readBackOk else s.close t.nextEnd.toNat false readBackOk

def execPeriodClose (readBackOk : Bool) (s : State) : Host.Outcome State Fault Refusal :=
  .next (s.periodClose readBackOk)

/-! Checkpoints (R498, R499). -/

/-- A checkpoint is due: after 10 min, a clock step or a raise of VIN_UV. -/
def State.checkDue (s : State) : Bool :=
  decide (s.tly.checkAt + ms 600000 ≤ s.cref) || !s.tly.steps.isEmpty || s.tly.checkUv

/-- CHECKPOINT: the open period is written to the checkpoint ring. -/
def State.checkpoint (s : State) (readBackOk : Bool) : State :=
  if !s.variant.tally || s.sup ≠ SupMode.ready || !s.checkDue then s
  else
    let r : TlyRec := { seq := s.tly.headSeq + 1#32, bytes := s.checkBytes }
    s.flashWork.modTly fun t =>
      let t := { t with checkAt := s.cref, checkUv := false }
      if readBackOk then { t with steps := t.steps.drop 8, held := none, checks := (r :: t.checks).take 512 }
      else { t with journalErr := true, held := some r }

def execCheckpoint (readBackOk : Bool) (s : State) : Host.Outcome State Fault Refusal := .next (s.checkpoint readBackOk)

/-- The accrual that the 24 bytes of an axis hold. -/
def accrualOf (b : List Byte) (k : Nat) : Accrual :=
  { torqueMs := 1000 * (wordAt b k).toNat, starts := (wordAt b (k + 4)).toNat
    energy := energyUnit * (dwordAt b (k + 8)).toNat, peakMa := (wordAt b (k + 16)).toNat, faults := (wordAt b (k + 20)).toNat }

/-- The Tally at a boot: the head and its END come from the journal, and the open period from the newest
checkpoint that accrues towards a later close (R498). -/
def State.tlyBoot (s : State) : State :=
  if !s.variant.tally then s
  else
    let s := s.modTly fun t =>
      let b := match t.closes.head? with | some r => r.bytes | none => []
      let seq := match t.closes.head? with | some r => r.seq | none => 0#32
      let fl := (byteAt b 7).toNat
      { cfg := t.cfg, clock := t.clock, cfgNow := t.cfg, clockNow := t.clock, wasSet := t.wasSet, lock := t.lock, checkAt := s.cref
        closes := t.closes, checks := t.checks, headSeq := seq, lastEnd := dwordAt b 24, start := dwordAt b 24
        unsigned_ := fl / 8 % 4 ≠ 0, lastClose := if b.isEmpty then none else some (b.take 1888) }
    match s.tly.checks.find? fun r => decide (s.tly.headSeq < r.seq) with
    | none => s.tlyWall
    | some r =>
      let b := r.bytes
      let fl := (byteAt b 7).toNat
      let s := s.modTly fun t => { t with
        restored := true, start := dwordAt b 16, stepCnt := (wordAt b 40).toNat, backNs := (dwordAt b 48).toNat
        fwdNs := (dwordAt b 56).toNat, wasBehind := fl % 2 = 1, ruleChange := fl / 4 % 2 = 1, noTime := fl / 32 % 2 = 1
        acc := Vector.ofFn fun n => accrualOf b (128 + 24 * n.val) }
      s.tlyWall

/-! Reading (R500). -/

/-- The CLOSE record of a SEQ, in the journal or kept in SRAM. -/
def Tly.closeOf (t : Tly) (q : Word) : Option TlyRec := (t.held.toList ++ t.closes).find? fun r => r.seq = q && byteAt r.bytes 6 = 1#8

/-- The records that TALLY_READ writes. -/
def State.tallyRecords (s : State) (kind : BitVec 8) (count : Nat) (first : Word) : List (List Byte) :=
  if kind = 0#8 then
    (((List.range count).map fun i => first.toNat + i).takeWhile fun q => decide (q ≤ s.tly.headSeq.toNat)).filterMap fun q =>
      (s.tly.closeOf (BitVec.ofNat 32 q)).map (·.bytes)
  else if kind = 1#8 then (s.tly.checks.take count).map (·.bytes)
  else [s.checkBytes]

def execTallyRead (h : DescHdr) (kind : BitVec 8) (count : BitVec 16) (firstSeq : Word) (addr : Dword) (s : State) :
    Host.Outcome State Fault Refusal :=
  .next (s.decodeNow h false (.tallyRead h kind count firstSeq addr)
    (fun s => firstFail [failIf (!s.variant.tally) .absent,
      failIf (decide (2 < kind.toNat) || count = 0#16 || decide (64 < count.toNat) || (kind = 2#8 && count ≠ 1#16)) .badArg,
      failIf (kind = 0#8 && (decide (s.tly.headSeq < firstSeq) || decide (firstSeq.toNat + 511 < s.tly.headSeq.toNat))) .badArg,
      spanCheck h.src addr (2048 * count.toNat)])
    (fun s =>
      let rs := s.tallyRecords kind count.toNat firstSeq
      (s.writeOut h.src addr rs.flatten).done h .ok (fieldAt 0 rs.length)))

/-! TLY_LOCK and the writes of TLY_CFG and TLY_CLOCK (R492, R501). -/

/-- TLY_LOCK set. -/
def State.tlyLock (s : State) : State := if s.variant.tally then s.modTly fun t => { t with lock := true } else s

/-- A write of TLY_CFG or TLY_CLOCK. -/
def State.tlyRule (s : State) (clock : Bool) (v : Word) : State :=
  if !s.variant.tally || s.tly.lock then s
  else if clock then s.modTly fun t => { t with clock := v &&& 0xFFFF00FF#32, rulePending := true }
  else s.modTly fun t => { t with cfg := v &&& 0x0000FFFB#32, rulePending := true }

end Sys2Proof.Machine
end

