-- ==== Sys2Proof/Machine/Can.lean ====
section
/-! DEFINITION. The CAN controllers (12 R344 to R359): enabling, sending, receiving into the ring, errors and
bus-off, and the tunnels. -/

namespace Sys2Proof.Machine

/-! Controllers. -/

/-- The unit's registers answer. -/
def State.canOn (s : State) (c : CanId) : Bool := s.unitOn (.can c)
/-- The controller takes part in its bus: enabled and not in bus-off, nor about to enter it. -/
def State.canLive (s : State) (c : CanId) : Bool := s.canOn c && bit s.can[c].ctrl 0 && !s.can[c].busOff && !s.can[c].tecOver
/-- It may send: not in listen-only mode (R349). -/
def State.canSends (s : State) (c : CanId) : Bool := s.canLive c && !bit s.can[c].ctrl 2
/-- Its tunnel is active (R349, R355). -/
def State.tunOn (s : State) (c : CanId) : Bool := s.canSends c && bit s.can[c].ctrl 4

/-- EN may rise (R345). -/
def Can.cfgOk (k : Can) : Bool :=
  decide (80 ≤ k.bitNom) && decide (10 ≤ k.bitData) && decide (bits k.nbt 31 25 ≤ bits k.nbt 6 0) &&
  decide (bits k.dbt 15 12 ≤ bits k.dbt 11 8)

/-- CANSTBc follows EN (R350). -/
def State.canStb (s : State) (c : CanId) : State :=
  s.modPwr fun p => { p with canStb := setBitW p.canStb c.val (!bit s.can[c].ctrl 0 || p.mode = PwrMode.sleep) }

/-- A write of CAN_CTRL. While EN is 1 only EN takes it. The window is zeroed when TUN_EN falls (R345, R357). -/
def State.canCtrl (s : State) (c : CanId) (v : Word) : State :=
  if !s.canOn c then s
  else
    let s := s.modCan c fun k =>
      let f := v &&& 0x1E#32
      if bit k.ctrl 0 then
        let k := if f = k.ctrl &&& 0x1E#32 then k else { k with sticky := k.sticky ||| 0x04000000#32 }
        { k with ctrl := (k.ctrl &&& 0x1E#32) ||| (v &&& 1#32) }
      else
        let k := if bit k.ctrl 4 && !bit v 4 then { k with window := [] } else k
        if !bit v 0 then { k with ctrl := f }
        else if k.cfgOk then { k with ctrl := f ||| 1#32 }
        else { k with ctrl := f, sticky := k.sticky ||| 0x08000000#32 }
    s.canStb c

def execCanEnable (c : CanId) (ctrl : Word) (s : State) : Host.Outcome State Fault Refusal := .next (s.canCtrl c ctrl)

/-! Sending (R351, R352). -/

/-- A length that a frame can have. -/
def canLenOk (n : Nat) (fdf : Bool) : Bool :=
  if fdf then n ≤ 8 || n = 12 || n = 16 || n = 20 || n = 24 || n = 32 || n = 48 || n = 64 else n ≤ 8

/-- The timeout of a descriptor in µs, the class default filled in. -/
def State.effTimeout (s : State) (h : DescHdr) : Nat :=
  if h.timeoutUs = 0#32 then classTimeout (s.ringClass h.src) else h.timeoutUs.toNat

/-- The checks of CAN_SEND: the operands, then the three of R352 with bus-off after the first (R348). -/
def State.canSendCheck (s : State) (h : DescHdr) (chan flags len : BitVec 8) (id : Word) : Check :=
  let c : CanId := Fin.ofNat 4 chan.toNat
  let k := s.can[c]
  let b (i : Nat) : Bool := flags.getLsbD i
  firstFail [
    failIf (decide (4 ≤ chan.toNat)) .badArg, failIf (!s.hasCan c) .absent,
    failIf (decide (16 ≤ flags.toNat) || (b 2 && !b 1) || (b 3 && b 1)) .badArg,
    failIf (!canLenOk len.toNat (b 1)) .badArg,
    failIf (decide ((if b 0 then 2 ^ 29 else 2 ^ 11) ≤ id.toNat)) .badArg,
    dataCheck h 4 len.toNat, failIf ((len = 0#8 || b 3) && h.dataAddr ≠ 0#64) .badArg,
    failIf (decide (80 * s.effTimeout h < 4 * k.attempt (b 1) (b 2))) .badArg,
    failIf (!s.canOn c || !bit k.ctrl 0 || bit k.ctrl 2) .conflict,
    failIf k.busOff .faulted 1#32,
    failIf (decide (48 ≤ (k.tx.filter TxBuf.isSend).length)) .noSpace]

/-- The frame is queued. A remote frame carries no data; its `data` gives its length alone. -/
def State.canQueue (s : State) (h : DescHdr) (chan flags len : BitVec 8) (id : Word) (data : List Byte) : State :=
  let c : CanId := Fin.ofNat 4 chan.toNat
  let n := s.can[c].txCount
  let b (i : Nat) : Bool := flags.getLsbD i
  let f : CanFrame := { ide := b 0, fdf := b 1, brs := b 2, rtr := b 3, id := id.setWidth 29
                        data := if b 3 then List.replicate len.toNat 0#8 else fit len.toNat data }
  (s.modCan c fun k => { k with
    txCount := n + 1, tx := k.tx ++ [{ id := n, owner := .send h.src h.tag, frame := f, at_ := s.cref }] }).setAct h (.canSend c n false)

def execCanSend (h : DescHdr) (chan frameFlags len : BitVec 8) (id : Word) (data : List Byte) (s : State) :
    Host.Outcome State Fault Refusal :=
  .next (s.decodeNow h false (.canSend h chan frameFlags len id data) (fun s => s.canSendCheck h chan frameFlags len id)
    (fun s => s.canQueue h chan frameFlags len id data))

/-- The descriptor of a buffer completes. -/
def State.sendDone (s : State) (b : TxBuf) (st : Status) (info : Nat) (time : Option Dword) : State :=
  match b.owner with
  | .send src tag => s.completeIf (fun d => match d.act with | .canSend _ i _ => i = b.id | _ => false) src tag st (fieldAt 0 info) time
  | _ => s

/-- A buffer is free again, and a frame that waits may take it. -/
def State.dropTx (s : State) (c : CanId) (id : Nat) : State :=
  s.modCan c fun k => Can.settleOwn { k with tx := dropFirst (fun b => b.id = id) k.tx } s.cref

/-- An attempt whose SOF lies at CREF `sof` can have been made: a frame whose descriptor has timed out was on the bus by
then and makes no other attempt (15 R440). -/
def Can.tried (k : Can) (b : TxBuf) (sof : Nat) : Bool := k.mayGo b sof && (!b.late || decide (sof ≤ b.lateAt))

/-- CREF and Almanac time of a SOF that lies `age` CKN cycles of 12.5 ns back, in the time as it now runs (R360). -/
def State.sofCref (s : State) (age : Nat) : Nat := s.cref - 5 * age
def State.sofTime (s : State) (age : Nat) : Dword := s.almAfter (-(5 * age))

/-- A frame has been acknowledged and has ended; its SOF lies `age` CKN cycles back. -/
def State.canSent (s : State) (c : CanId) (id : Nat) (tdcv : BitVec 7) (age : Nat) : State :=
  match s.can[c].tx.find? fun b => b.id = id with
  | none => s
  | some b =>
    if !s.canSends c || !s.can[c].tried b (s.sofCref age) then s
    else
      let s := (s.emit (.canFrame c b.frame)).dropTx c id
      let s := s.modCan c fun k => { k with
        tec := k.tec - (if k.tec = 0#8 then 0#8 else 1#8)
        tdcv := if b.frame.fdf && b.frame.brs then tdcv else k.tdcv }
      let s := s.sendDone b (if b.late then .lateSent else .ok) (Nat.min 0xFFFF b.retries) (some (s.sofTime age))
      let s := match b.owner with | .cpl src tag => s.cplGone src tag | _ => s
      if b.owner = TxOwner.reference && !(s.can[c].ownFrames.any fun x => x.owner = TxOwner.reference)
      then s.modAlm fun a => { a with prevSof := some (s.sofTime age) } else s

def execCanFrameSent (c : CanId) (id : Nat) (tdcv : BitVec 7) (age : Nat) (s : State) : Host.Outcome State Fault Refusal :=
  .next (s.canSent c id tdcv age)

/-! Bus-off (R348). -/

/-- TEC has passed 255, as CAN_TX_RETRY noted. The module's own frames that wait are discarded, those of tunnel completions
not yet handed over among them. A frame whose descriptor has timed out already ends TIMEOUT (15 R440). -/
def State.busOff (s : State) (c : CanId) : State :=
  if !s.canOn c || !bit s.can[c].ctrl 0 || s.can[c].busOff || !s.can[c].tecOver then s
  else
    let tx := s.can[c].tx
    let own := s.can[c].ownFrames
    let s := tx.foldl (fun s b => if b.late then s.sendDone b .timeout 0 none else s.sendDone b .faulted 1 none) s
    let cpl := s.hst.cplWait.filter fun e => e.src = RingSrc.tun c
    let s := cpl.foldl (fun s e => (s.retire e).cplGone e.src e.tag) s
    s.modCan c fun k =>
      let k := (List.range (own.length + cpl.length)).foldl (fun k _ => k.count 8)
        { k with tx := [], own := [], busOff := true, tecOver := false, recovering := false }
      k.count 24

def execBusOff (c : CanId) (s : State) : Host.Outcome State Fault Refusal := .next (s.busOff c)

/-- A write of CAN_CMD RECOVER: outside bus-off it is ignored. -/
def State.canRecover (s : State) (c : CanId) : State :=
  if s.canOn c && s.can[c].busOff then s.modCan c fun k => { k with recovering := true, recoverAt := s.cref } else s

def execCanRecover (c : CanId) (s : State) : Host.Outcome State Fault Refusal := .next (s.canRecover c)

/-- The least time of 128 occurrences of 11 recessive bits, in cp. -/
def Can.recoverCp (k : Can) : Nat := 128 * 11 * 5 * k.bitNom

/-- BUS_OFF_RECOVERED: 128 occurrences of 11 recessive bits have passed; error active, with both counts 0. -/
def execBusOffRecovered (c : CanId) (s : State) : Host.Outcome State Fault Refusal :=
  .next (if s.canOn c && s.can[c].busOff && s.can[c].recovering && decide (s.can[c].recoverAt + s.can[c].recoverCp ≤ s.cref) then
    s.modCan c fun k => { k with busOff := false, recovering := false, tec := 0#8, rec_ := 0#8 } else s)

/-! Errors (R344, R347). -/

/-- An attempt of a buffer, begun `age` CKN cycles back, ends without success. An error adds 8 to TEC; when error passive it may leave TEC as it is
(PRESUMED from ISO 11898-1). A frame whose descriptor has timed out makes no further attempt. -/
def State.canRetry (s : State) (c : CanId) (id : Nat) (error : Bool) (age : Nat) : State :=
  match s.can[c].tx.find? fun b => b.id = id with
  | none => s
  | some b =>
    if !s.canSends c || !s.can[c].tried b (s.sofCref age) then s
    else
      let s := if b.late then (s.dropTx c id).sendDone b .timeout 0 none
        else s.modCan c fun k => { k with tx := modFirst (fun x => x.id = id) (fun x => { x with retries := x.retries + 1 }) k.tx }
      if !error then s
      else
        let t := s.can[c].tec.toNat
        if 128 ≤ t && Config.freeBool s.freeCtr then s.bump
        else if 256 ≤ t + 8 then
          (s.bump).modCan c fun k => { k with tec := 0xFF#8, tecOver := true }
        else (s.bump).modCan c fun k => { k with tec := BitVec.ofNat 8 (t + 8) }

def execCanTxRetry (c : CanId) (id : Nat) (error : Bool) (age : Nat) (s : State) : Host.Outcome State Fault Refusal :=
  .next (s.canRetry c id error age)

/-- CAN_RX_ERROR: REC rises by what the error adds; in listen-only mode it does not change (R349). -/
def execCanRxError (c : CanId) (recAdd : BitVec 8) (s : State) : Host.Outcome State Fault Refusal :=
  .next (if s.canSends c then
    s.modCan c fun k => { k with rec_ := BitVec.ofNat 8 (Nat.min 255 (k.rec_.toNat + recAdd.toNat)) } else s)

/-- A frame received without error lowers REC by one; from above 127 it falls to a value from 119 to 127, which ISO
11898-1 leaves open (PRESUMED). -/
def State.canRxGood (s : State) (c : CanId) : State :=
  if bit s.can[c].ctrl 2 || s.can[c].rec_ = 0#8 then s
  else if 128 ≤ s.can[c].rec_.toNat then
    s.bump.modCan c fun k => { k with rec_ := BitVec.ofNat 8 (119 + (Config.freeWord s.freeCtr).toNat % 9) }
  else s.modCan c fun k => { k with rec_ := k.rec_ - 1#8 }

/-! The receive ring (R353, R354). -/

/-- The lowest filter that accepts a frame. -/
def Can.filterOf (k : Can) (f : CanFrame) : Option (Fin 32) :=
  (List.finRange 32).find? fun i =>
    bit k.fltId[i] 31 && (bit k.fltId[i] 30 == f.ide) && ((f.id.setWidth 32 ^^^ k.fltId[i]) &&& k.fltMask[i] &&& 0x1FFFFFFF#32) = 0#32

/-- The data of a received frame: a classical frame carries at most 8 bytes. -/
def framePayload (f : CanFrame) : List Byte := if f.fdf then f.data else f.data.take 8

/-- The 80 bytes of a record. -/
def rxRecord (b : RxBuf) : List Byte :=
  let f := b.frame
  wordBytes (bitAt 31 f.ide ||| bitAt 30 f.fdf ||| bitAt 29 (f.fdf && f.brs) ||| (if f.ide then f.id.setWidth 32 else f.id.setWidth 32 &&& 0x7FF#32)) ++
  [BitVec.ofNat 8 (framePayload f).length, BitVec.ofNat 8 b.filter, if f.esi then 1#8 else 0#8, 0#8] ++ dwordBytes b.sof ++
  fit 64 (framePayload f)

/-- The records that the host has not freed. -/
def Can.rxUsed (k : Can) : Nat := (k.wp - k.rp).toNat

/-- Waiting frames are written to the ring while it has room; `fuel` bounds their number. -/
def State.deliver (s : State) (c : CanId) : Nat → State
  | 0 => s
  | fuel + 1 =>
    let k := s.can[c]
    match k.rx with
    | [] => s
    | b :: rest =>
      if !s.bar0 || !bit k.rxCfg 31 || 2 ^ bits k.rxCfg 3 0 ≤ k.rxUsed then s
      else
        let at_ := join64 k.rxHi k.rxLo + BitVec.ofNat 64 (80 * (k.wp.toNat % 2 ^ bits k.rxCfg 3 0))
        let s := (s.emit (.hostWrite at_ (rxRecord b))).modCan c fun k => { k with rx := rest, wp := k.wp + 1#32 }
        let s := if k.rxUsed = 0 then s.msix (BitVec.ofNat 6 (bits k.rxCfg 21 16)) else s
        State.deliver s c fuel

/-- An accepted frame takes a receive buffer, or is lost. -/
def State.rxAccept (s : State) (c : CanId) (f : CanFrame) (age : Nat) : State :=
  match s.can[c].filterOf f with
  | none => s
  | some i =>
    let s := s.deliver c 12
    if 12 ≤ s.can[c].rx.length then s.modCan c fun k => k.count 0
    else (s.modCan c fun k => { k with rx := k.rx ++ [{ frame := f, filter := i.val, sof := s.sofTime age }] }).deliver c 12

/-- A write of CAN_RX_RP. -/
def State.canRp (s : State) (c : CanId) (v : Word) : State :=
  if !s.canOn c then s
  else
    let k := s.can[c]
    if 2 ^ bits k.rxCfg 3 0 < (k.wp - v).toNat then s.modCan c fun k => { k with sticky := k.sticky ||| 0x02000000#32 }
    else (s.modCan c fun k => { k with rp := v }).deliver c 12

def execCanRxRpWrite (c : CanId) (value : Word) (s : State) : Host.Outcome State Fault Refusal :=
  .next (if s.bar0 then s.canRp c value else s)

/-- A write of CAN_RX_CFG: enabling sets WP and RP to 0, and a SIZE outside 4 to 12 leaves EN 0. -/
def State.canRxCfg (s : State) (c : CanId) (v : Word) : State :=
  let v := v &&& 0x803F000F#32
  let ok := decide (4 ≤ bits v 3 0) && decide (bits v 3 0 ≤ 12)
  let v := if bit v 31 && !ok then v &&& 0x7FFFFFFF#32 else v
  (s.modCan c fun k =>
    let k := if bit v 31 && !bit k.rxCfg 31 then { k with wp := 0#32, rp := 0#32 } else k
    { k with rxCfg := v }).deliver c 12

/-! Tunnels (R355 to R359). -/

/-- The offset of a frame's identifier from TUN_BASE, when the tunnel is active and the frame is one of its five. -/
def State.tunFrame (s : State) (c : CanId) (f : CanFrame) : Option Nat :=
  let t := s.can[c].tun
  let b := bits t 28 0
  if s.tunOn c && (bit t 31 == f.ide) && decide (b ≤ f.id.toNat) && decide (f.id.toNat < b + 5) then some (f.id.toNat - b) else none

/-- A bad tunnel frame counts in TUN_BAD. -/
def State.tunBad (s : State) (c : CanId) : State := s.modCan c fun k => k.count 16

/-- A descriptor frame: it waits to be decoded, or completes NO_SPACE while 16 wait. The one that comes after a refused one
with CHAIN ends as its successor (11 R316). -/
def State.tunDescriptor (s : State) (c : CanId) (f : CanFrame) : State :=
  let e := { s.newEntry (.tun c) f.data with follows := s.can[c].chainDrop }
  let waiting := (s.hst.inflight.filter fun d => d.src = RingSrc.tun c && d.act = Act.fetched).length
  let full := decide (16 ≤ waiting)
  let s := s.modCan c fun k => { k with chainDrop := full && e.flags.getLsbD 3 }
  if full then
    s.modHst fun h => { h with
      inflight := h.inflight ++ [{ e with act := Act.done }]
      cplWait := h.cplWait ++ [{ src := .tun c, tag := e.tag, status := .noSpace }] }
  else s.modHst fun h => { h with inflight := h.inflight ++ [e] }

/-- A window-data frame. -/
def State.tunWindow (s : State) (c : CanId) (f : CanFrame) : State :=
  let o := (wordAt f.data 0).toNat
  if o % 4 ≠ 0 || 65476 < o then s.tunBad c
  else s.modCan c fun k => { k with window := k.window.wrList o ((f.data.drop 4).take 60) }

/-- A frame at offset k of the tunnel. Frames that only the module sends are dropped. -/
def State.tunTake (s : State) (c : CanId) (k : Nat) (f : CanFrame) : State :=
  match k with
  | 0 => if f.rtr || (framePayload f).length ≠ 4 then s.tunBad c else s.urgent (wordAt f.data 0)
  | 1 => if f.rtr || !f.fdf || f.data.length ≠ 64 then s.tunBad c else s.tunDescriptor c f
  | 2 => if f.rtr || !f.fdf || f.data.length ≠ 64 then s.tunBad c else s.tunWindow c f
  | _ => s

/-- A frame that arrives at offset k of an active tunnel. FD frames need FD_EN (R371). -/
def State.tunArrive (s : State) (c : CanId) (f : CanFrame) (k : Nat) : State :=
  if s.tunFrame c f = some k && (bit s.can[c].ctrl 1 || !f.fdf) then (s.canRxGood c).tunTake c k f else s

def execTunnelUrgent (c : CanId) (f : CanFrame) (s : State) : Host.Outcome State Fault Refusal := .next (s.tunArrive c f 0)
def execTunnelDescriptor (c : CanId) (f : CanFrame) (s : State) : Host.Outcome State Fault Refusal := .next (s.tunArrive c f 1)
def execTunnelWindowData (c : CanId) (f : CanFrame) (s : State) : Host.Outcome State Fault Refusal := .next (s.tunArrive c f 2)

/-! Writes of the CAN registers (R345, R371). -/

/-- A write of the register at offset r of controller c. -/
def State.canWrite (s : State) (c : CanId) (r : Nat) (v : Word) : State :=
  let put (f : Can → Can) : State := s.modCan c f
  let locked (f : Can → Can) : State :=
    put fun k => if bit k.ctrl 0 then { k with sticky := k.sticky ||| 0x04000000#32 } else f k
  match r with
  | 0x000 => s.canCtrl c v
  | 0x004 => locked fun k => { k with nbt := v &&& 0xFFFFFF7F#32 }
  | 0x008 => locked fun k => { k with dbt := v &&& 0x001FFF1F#32 }
  | 0x00C => locked fun k => { k with tdc := v &&& 0x80007F00#32 }
  | 0x010 => put fun k => { k with sticky := k.sticky &&& ~~~ (v &&& 0x0E000000#32) }
  | 0x014 => if bit v 0 then s.canRecover c else s
  | 0x01C => locked fun k => { k with tun := v }
  | 0x020 => put fun k => { k with rxLo := v }
  | 0x024 => put fun k => { k with rxHi := v }
  | 0x028 => s.canRxCfg c v
  | 0x030 => s.canRp c v
  | _ =>
    if 0x100 ≤ r && r < 0x200 then
      let f : Fin 32 := Fin.ofNat 32 ((r - 0x100) / 8)
      if r % 8 = 0 then put fun k => { k with fltId := k.fltId.set f (v &&& 0xDFFFFFFF#32) }
      else put fun k => { k with fltMask := k.fltMask.set f (v &&& 0x1FFFFFFF#32) }
    else s

end Sys2Proof.Machine
end

