-- ==== Sys2Proof/Machine/Almanac.lean ====
section
/-! DEFINITION. The Almanac (12 R360 to R372): roles, references, steps and steering, SYNCIN, SYNCOUT and frame
lock, with WALL_TIME_SET (18 R491) and the frames that a controller receives. -/

namespace Sys2Proof.Machine

/-! Steps (R361, R364, R367). -/

/-- The module acts as a slave: by its role, or as a master that has yielded. -/
def State.almSlave (s : State) : Bool := almRole s.alm.ctrl = 1 || s.alm.yielded
/-- The controller of CHAN. -/
def State.almChan (s : State) : CanId := Fin.ofNat 4 (bits s.alm.ctrl 5 4)
/-- A sticky bit of ALM_STATUS is set. -/
def State.almFlag (s : State) (i : Nat) : State := s.modAlm fun a => { a with sticky := setBitW a.sticky i true }

/-- The period in units of 2^−16 ns. -/
def almPer (d : Dword) : Nat := d.toNat % 2 ^ 48

/-- The Almanac time in units of 2^−16 ns of pulse k. -/
def Alm.soutAt (a : Alm) (k : Nat) : Nat := 65536 * a.soutStart.toNat + k * almPer a.soutPer

/-- The number of the first pulse whose time is not past at `t`. With PER 0 every pulse falls on START, and they are one. -/
def Alm.soutFirst (a : Alm) (t : Dword) : Nat :=
  let p := almPer a.soutPer
  if p = 0 then (if a.soutStart < t then 1 else 0)
  else (65536 * t.toNat - 65536 * a.soutStart.toNat + p - 1) / p

/-- Almanac time steps to `t`. A slave's stamps are expressed in the time as it now runs (DEDUCED); a master's next
reference carries STEPPED and no pair. SYNCOUT pulses whose times a forward step passes over are not emitted. -/
def State.almStep (s : State) (t : Dword) : State :=
  let before := s.alm.time
  let s := s.modAlm fun a => { a with
    time := t, frac := 0, stepped := true, stepAt := some (s.cref, before)
    soutNext := if bit a.soutCfg 31 then Nat.max a.soutNext (a.soutFirst t) else a.soutNext
    stamps := a.stamps.map fun x => { x with stamp := x.stamp + (t - before) } }
  (s.almFlag 4).tlyStep before ((t.toNat : Int) - before.toNat)

/-- SET: outside SLAVE the time steps to ALM_SET. -/
def State.almSet (s : State) : State :=
  if s.almSlave then s.almFlag 7
  else ((s.modTly fun t => { t with wasSet := true }).almStep s.alm.set).tlyWall

def execAlmSet (s : State) : Host.Outcome State Fault Refusal := .next (if s.almOn then s.almSet else s)

/-- WALL_TIME_SET (18 R491): its target is the Almanac, so that it acts on every part. -/
def execWallTimeSet (h : DescHdr) (time : Dword) (s : State) : Host.Outcome State Fault Refusal :=
  .next (s.decodeNow h false (.wallTimeSet h time) (fun s => failIf s.almSlave .conflict)
    (fun s => (((s.modTly fun t => { t with wasSet := true }).almStep time).tlyWall).done h .ok))

/-! Roles and states (R361, R365, R366). -/

/-- The slave enters HOLDOVER: the phase term is dropped, and CROSS sweeps run on in holdover (08 R238). -/
def State.enterHoldover (s : State) : State :=
  let s := s.modAlm fun a => { a with st := .holdover, phase := 0, phaseEnd := none, holdAt := s.cref }
  (State.tlyWall { s with fits := s.fits.map fun (f : Fit) => if f.op.cross && f.started && f.ending.isNone then { f with holdover := true } else f })

/-- A jump of the time base ends CROSS sweeps (08 R239). -/
def State.crossEnd (s : State) : State := s.fitPartial (fun f => f.op.cross) 6#8

/-- RIVAL_MASTER is set. -/
def State.rival (s : State) : State := (s.almFlag 5).crossEnd

/-- The module begins as a slave, following nothing. -/
def State.almBeginSlave (s : State) : State :=
  (s.modAlm fun a => { a with stamps := [], following := false, lastRef := none, misses := 0, frameLocked := false }).enterHoldover

/-- The module begins as a master. -/
def State.almBeginMaster (s : State) : State :=
  (s.modAlm fun a => { a with
    st := .master, yielded := false, prevSof := none, refFirst := true, stepped := false, frameLocked := false, lockRun := 0, lockFirst := true
    phase := 0, phaseEnd := none, refNext := s.cref }).tlyWall

/-- FRAME_LOCK acts: on a master, with PER within its range (R369). -/
def State.frameLock (s : State) : Bool :=
  bit s.alm.ctrl 11 && s.alm.st = AlmSt.master && decide (100000 * 65536 ≤ almPer s.alm.syncPer) &&
  decide (almPer s.alm.syncPer ≤ 1000000000 * 65536)

/-- Where FRAME_LOCK acts as 0 on a master, its phase term and its run of edges are gone, FRAME_LOCKED reads 0 and the next
edge after it is enabled again is the first; the frequency term stays (R369). -/
def State.lockSettle (s : State) : State :=
  if s.frameLock || s.alm.st ≠ AlmSt.master then s
  else s.modAlm fun a => { a with frameLocked := false, lockRun := 0, lockFirst := true, phase := 0, phaseEnd := none }

/-- A write of ALM_CTRL. MASTER needs an enabled controller that is not listen-only. -/
def State.almCtrl (s : State) (v : Word) : State :=
  let c : CanId := Fin.ofNat 4 (bits v 5 4)
  if almRole v = 2 && !(s.canOn c && bit s.can[c].ctrl 0 && !bit s.can[c].ctrl 2) then s.almFlag 7
  else
    let old := s.alm.ctrl
    let s := (s.modAlm fun a => { a with ctrl := v &&& 0x00FEFE33#32 }).lockSettle
    if almRole v = almRole old && bits v 5 4 = bits old 5 4 then s
    else
      let s := s.modAlm fun a => { a with yielded := false }
      match almRole v with
      | 1 => s.almBeginSlave
      | 2 => s.almBeginMaster
      | _ => (s.modAlm fun a => { a with
          st := .off, phase := 0, phaseEnd := none, frameLocked := false, stamps := [], following := false }).tlyWall

def execAlmRoleWrite (ctrl : Word) (s : State) : Host.Outcome State Fault Refusal :=
  .next (if s.almOn then s.almCtrl ctrl else s)

/-! The master's references (R362). -/

/-- INTERVAL of a master, ms. -/
def almInterval (ctrl : Word) : Nat := Nat.max 1 (Nat.min 100 (bits ctrl 23 17))

/-- ALM_REFERENCE_DUE: a reference is queued, the first as the master begins and then one every INTERVAL. PAIR_VALID is 0
in the first and in the first after a step. M is the stamp of the reference before; while that one has not been sent it has
none, and M is then a free value (DESIGN CHOICE, log entry 79). -/
def State.refDue (s : State) : State :=
  let c := s.almChan
  if !s.almOn || s.alm.st ≠ AlmSt.master || s.cref < s.alm.refNext || !s.canSends c then s
  else
    let s := s.modAlm fun a => { a with refNext := a.refNext + ms (almInterval a.ctrl) }
    let a := s.alm
    let pair := !a.refFirst && !a.stepped
    let m := a.prevSof.getD (Config.freeDword s.freeCtr)
    let data := dwordBytes m ++ [a.seq.setWidth 8, (a.seq >>> 8).setWidth 8, BitVec.ofNat 8 (almInterval a.ctrl),
      BitVec.ofNat 8 (recBit 0 pair + recBit 1 a.stepped + recBit 2 a.frameLocked)] ++ List.replicate 4 0#8
    let f : CanFrame := { ide := bit a.id 31, fdf := true, brs := bit a.ctrl 10
                          id := BitVec.ofNat 29 (bits a.id 28 0 + bits a.ctrl 15 12), data := data }
    let s := s.modCan c fun k => k.post .reference f s.cref
    s.bump.modAlm fun a => { a with seq := a.seq + 1#16, prevSof := none, refFirst := false, stepped := false }

def execAlmReferenceDue (s : State) : Host.Outcome State Fault Refusal := .next s.refDue

/-! The slave (R363 to R366). -/

/-- A quotient to the nearest integer; a half goes to the even one. -/
def divNear (a d : Int) : Int := divRne (if d < 0 then -a else a) d.natAbs

/-- The action on a usable reference with offset o and interval i in ms (R364). -/
def State.almAct (s : State) (o : Int) (i : Nat) (stepped : Bool) : State :=
  let sat : Int := if o < -2147483648 then -2147483648 else if 2147483647 < o then 2147483647 else o
  let s := s.modAlm fun a => { a with offset := BitVec.ofInt 32 sat }
  let big := decide (10000 < o.natAbs) || stepped
  let s := if big then s.almStep (BitVec.ofInt 64 ((s.alm.time.toNat : Int) - o))
    else s.modAlm fun a => { a with
      freq := a.freq - divNear (o * 2 ^ 32) (4 * i * 1000000)
      phase := -(divNear (o * 2 ^ 32) (i * 1000000)), phaseEnd := some (s.cref + ms i) }
  if big || decide (o.natAbs ≤ 1000) then (s.modAlm fun a => { a with st := .locked }).tlyWall else s

/-- The slave changes the master that it follows (R366). -/
def State.changeMaster (s : State) (off : BitVec 4) : State :=
  ((s.modAlm fun a => { a with follow := off, misses := 0, lastRef := none }).almFlag 6).enterHoldover.crossEnd

/-- The stamp of the reference before x: R363 sets no time within which its successor must come. -/
def State.refPrev (s : State) (x : RefStamp) : Option RefStamp :=
  s.alm.stamps.find? fun l => l.stamped && l.off = x.off && l.seq + 1#16 = x.seq

/-- The action on a reference that carries PAIR_VALID: it is usable with the stamp of the one before it (R363). -/
def State.refUse (s : State) (prev : Option RefStamp) (m : Dword) (i : Nat) (stepped : Bool) : State :=
  match prev with
  | none => s
  | some l =>
    let o := ((l.stamp.toNat : Int) - bits s.alm.cfg 15 0) - m.toNat
    s.almAct o i stepped

/-- The latest reference of each identifier is kept. -/
def State.refNote (s : State) (x : RefStamp) : State :=
  s.modAlm fun a => { a with stamps := x :: a.stamps.filter fun y => y.off ≠ x.off }

/-- A reference that the slave follows is stamped and used. -/
def State.refFollow (s : State) (x : RefStamp) (d : List Byte) : State :=
  let i := Nat.max 1 (Nat.min 100 (byteAt d 10).toNat)
  let prev := s.refPrev x
  let s := s.modAlm fun a => { a with misses := 0, interval := i, lastRef := some x.at_ }
  let fl := byteAt d 11
  let s := s.refNote x
  if fl.getLsbD 0 then s.refUse prev (dwordAt d 0) i (fl.getLsbD 1) else s

/-- The lowest identifier offset of a list of references. -/
def lowestRef (l : List RefStamp) (off : BitVec 4) : BitVec 4 := l.foldl (fun m x => if x.off < m then x.off else m) off

/-- A reference arrives at a slave, its SOF `age` CKN cycles back. The slave follows the lowest identifier heard in the
latest 3 × INTERVAL. -/
def State.refSlave (s : State) (off : BitVec 4) (d : List Byte) (age : Nat) : State :=
  let a := s.alm
  let x : RefStamp := { off := off, seq := byteAt d 9 ++ byteAt d 8, stamp := s.sofTime age, at_ := s.sofCref age }
  let heard := a.stamps.filter fun l => x.at_ ≤ l.at_ + 3 * ms a.interval
  let s := if heard.any fun l => l.off ≠ off then s.rival else s
  if !a.following then (s.modAlm fun a => { a with following := true, follow := off }).refFollow x d
  else if off < a.follow || (a.follow < off && !(heard.any fun l => l.off = a.follow)) then
    let low := lowestRef heard off
    let s := s.changeMaster low
    if low = off then s.refFollow x d else s.refNote { x with stamped := false }
  else if a.follow < off then s.refNote { x with stamped := false }
  else
    match heard.find? fun l => l.off = off with
    | some l =>
      if 2 * (x.at_ - l.at_) < ms a.interval then
        (s.modAlm fun a => { a with stamps := (a.stamps.filter fun y => y ≠ l), misses := 0, lastRef := some x.at_ }).rival
      else s.refFollow x d
    | none => s.refFollow x d

/-- The offset of a reference frame's identifier from BASE, on the Almanac's controller. -/
def State.refFrame (s : State) (c : CanId) (f : CanFrame) : Option (BitVec 4) :=
  let b := bits s.alm.id 28 0
  if almRole s.alm.ctrl ≠ 0 && s.almChan = c && (bit s.alm.id 31 == f.ide) && decide (b ≤ f.id.toNat) && decide (f.id.toNat < b + 16)
  then some (BitVec.ofNat 4 (f.id.toNat - b)) else none

/-- A reference frame arrives. A master that hears a lower identifier notes a rival and may yield (R366). -/
def State.refTake (s : State) (off : BitVec 4) (f : CanFrame) (age : Nat) : State :=
  if f.rtr || !f.fdf || f.data.length ≠ 16 then s
  else if s.almSlave then s.refSlave off f.data age
  else if off.toNat < bits s.alm.ctrl 15 12 then
    let s := s.rival
    if !bit s.alm.ctrl 9 then s
    else
      let no (l : List TxBuf) : List TxBuf := l.filter fun b => b.owner ≠ TxOwner.reference
      let s := s.modCan s.almChan fun k => Can.settleOwn { k with tx := no k.tx, own := no k.own } s.cref
      ((s.modAlm fun a => { a with yielded := true }).almBeginSlave).refSlave off f.data age
  else s

/-- A controller can take a frame: it is live, and FD frames need FD_EN. -/
def State.canTakes (s : State) (c : CanId) (f : CanFrame) : Bool := s.canLive c && (bit s.can[c].ctrl 1 || !f.fdf)

def execAlmReferenceReceived (f : CanFrame) (age : Nat) (s : State) : Host.Outcome State Fault Refusal :=
  let c := s.almChan
  .next (if !s.canTakes c f then s
    else match s.refFrame c f with | some off => (s.canRxGood c).refTake off f age | none => s)

/-- A reference that was due has not arrived: the latest one's SOF and a whole number of INTERVALs have passed. -/
def State.missDue (s : State) : Bool := s.alm.lastRef.any fun t => decide (t + (s.alm.misses + 1) * ms s.alm.interval ≤ s.cref)

/-- ALM_REFERENCE_MISSED. -/
def State.refMissed (s : State) : State :=
  if !s.almSlave || !s.missDue then s
  else
    let m := s.alm.misses + 1
    let s := s.modAlm fun a => { a with misses := m }
    if m ≠ 3 then s
    else if s.alm.yielded then s.almBeginMaster
    else if s.alm.st = AlmSt.locked then s.enterHoldover
    else s

def execAlmReferenceMissed (s : State) : Host.Outcome State Fault Refusal := .next (if s.almOn then s.refMissed else s)

/-- ALM_LOSS reference intervals have passed in HOLDOVER (R365); 0 acts as 1. -/
def State.lossDue (s : State) : Bool :=
  s.alm.st = .holdover && decide (s.alm.holdAt + Nat.max 1 (bits s.alm.cfg 23 16) * ms s.alm.interval ≤ s.cref)

/-- ALM_LOST (R365): timed descriptors and snapshots on Almanac time end, a FITTING that waits for its TIME with
them, and CROSS sweeps end PARTIAL (08 R238; 10 R298; 11 R323). -/
def State.almLost (s : State) : State :=
  if !s.lossDue then s
  else
    let s := (s.modAlm fun a => { a with st := .lost }).almFlag 3
    let s := s.completeAll (fun d => match d.act with | .timed _ => true | _ => false) .aborted 7#32
    let s := (s.seam.snaps.filter fun x => x.trigger = 2#8 && x.t.isNone).foldl (fun s x => s.snapEnd x .aborted 7) s
    let early (f : Fit) : Bool := f.hdr.flags.getLsbD 2 && !f.started && f.ending.isNone
    let axes := (s.fits.filter early).foldl (fun m f => m ||| f.op.axes) 0#64
    let s := s.forAxes (axesOf axes) fun n s => s.uncharge n
    let s := { s with fits := s.fits.map fun f => if early f then { f with ending := some (.aborted, 7#8) } else f }
    s.settleFits.fitPartial (fun f => f.op.cross) 5#8

def execAlmLost (s : State) : Host.Outcome State Fault Refusal := .next (if s.almOn then s.almLost else s)

/-! Frames that a controller receives (R353). -/

/-- A frame: taken by the tunnel or as a reference, else filtered. Remote frames are never accepted. -/
def State.canReceive (s : State) (c : CanId) (f : CanFrame) (age : Nat) : State :=
  if !s.canTakes c f then s
  else
    let s := s.canRxGood c
    match s.tunFrame c f, s.refFrame c f with
    | some k, _ => s.tunTake c k f
    | none, some off => s.refTake off f age
    | none, none => if f.rtr then s else s.rxAccept c f age

def execCanFrameReceived (c : CanId) (f : CanFrame) (age : Nat) (s : State) : Host.Outcome State Fault Refusal :=
  .next (s.canReceive c f age)

/-! SYNCIN (R368, R369). -/

/-- The phase error e of an edge in units of 2^−16 ns. -/
def Alm.phaseError (a : Alm) : Int :=
  let per : Int := almPer a.syncPer
  let d := ((a.syncTs.toNat : Int) - a.syncOrg.toNat) * 65536
  d - divNear d per * per

/-- A frame-locked master is steered by an edge. -/
def State.frameSteer (s : State) : State :=
  let a := s.alm
  let e := a.phaseError
  let per : Int := almPer a.syncPer
  let ns (k : Nat) : Int := 65536 * k
  let s :=
    if a.lockFirst && decide (ns 10000 < e.natAbs) then s.almStep (BitVec.ofInt 64 ((a.time.toNat : Int) - divNear e 65536))
    else s.modAlm fun a => { a with
      freq := a.freq - divNear (e * 2 ^ 32) (64 * per), phase := -(divNear (e * 2 ^ 32) (4 * per)), phaseEnd := none }
  let run := if ns 100 < e.natAbs then 0 else a.lockRun + 1
  s.modAlm fun a => { a with
    lockFirst := false, lockRun := run
    frameLocked := if ns 1000 < e.natAbs then false else a.frameLocked || decide (16 ≤ run) }

/-- SYNCIN_EDGE: an accepted edge. -/
def State.syncinEdge (s : State) : State :=
  let s := s.modAlm fun a => { a with
    syncCnt := a.syncCnt + 1#64, syncTs := a.time, syncAt := some s.cref
    syncEdges := (s.cref, a.syncCnt + 1#64) :: a.syncEdges.filter fun e => decide (s.cref ≤ e.1 + 16) }
  if s.frameLock then s.frameSteer else s

/-- SYNCIN has stood at a new level for FILT cp, which accepts it; only the edge that EDGE chooses counts (R368). -/
def State.syncinPin (s : State) (p : Pin) : State :=
  if p.level = s.alm.syncLevel || p.held < bits s.alm.syncCfg 7 0 then s
  else
    let s := s.modAlm fun a => { a with syncLevel := p.level }
    if p.level != bit s.alm.syncCfg 31 then s.syncinEdge else s

def execSyncinEdge (p : Pin) (s : State) : Host.Outcome State Fault Refusal := .next (if s.almOn then s.syncinPin p else s)

/-- No SYNCIN edge has come within 2 × PER, which is in units of 2^−16 ns; a cp is 2.5 ns. -/
def State.lockLapsed (s : State) : Bool :=
  s.frameLock && s.alm.syncAt.any fun t => decide (2 * almPer s.alm.syncPer ≤ 163840 * (s.cref - t))

/-- FRAME_LOCK_TIMEOUT: no edge within 2 × PER. The phase term ends; the next edge is the first after the loss. -/
def execFrameLockTimeout (s : State) : Host.Outcome State Fault Refusal :=
  .next (if s.almOn && s.lockLapsed then
    s.modAlm fun a => { a with frameLocked := false, lockRun := 0, lockFirst := true, phase := 0 } else s)

/-- The SYNCIN count is set to 0. -/
def State.zeroCount (s : State) : State := s.modAlm fun a => { a with syncCnt := 0#64, zeroArmed := false }

def execSyncZero (s : State) : Host.Outcome State Fault Refusal :=
  .next (if s.almOn then s.modAlm fun a => { a with zeroArmed := true } else s)

/-- SYNC_ZERO_APPLY: Almanac time is at or past ALM_SET. -/
def execSyncZeroApply (s : State) : Host.Outcome State Fault Refusal :=
  .next (if s.almOn && s.alm.zeroArmed && decide (s.alm.set ≤ s.alm.time) then s.zeroCount else s)

/-- A write of ALM_CMD: with SET, SYNC_ZERO acts on the edge of the step. -/
def State.almCmd (s : State) (v : Word) : State :=
  let step := bit v 0 && !s.almSlave
  let s := if bit v 0 then s.almSet else s
  if !bit v 1 then s else if step then s.zeroCount else s.modAlm fun a => { a with zeroArmed := true }

/-! SYNCOUT (R370). -/

/-- Pulse k is programmed. -/
def Alm.soutHas (a : Alm) (k : Nat) : Bool :=
  bit a.soutCfg 31 && (bits a.soutCfg 29 16 = 0 || decide (k < bits a.soutCfg 29 16)) && (almPer a.soutPer ≠ 0 || k = 0)

/-- The pin's level, inactive and active. -/
def Alm.soutLevel (a : Alm) (active : Bool) : Bool := active != bit a.soutCfg 30

/-- SYNCOUT_PULSE: the next pulse whose time has come begins; pulses that a step has passed over are not emitted. -/
def State.syncout (s : State) : State :=
  let a := s.alm
  let now := 65536 * a.time.toNat
  if !a.soutHas a.soutNext || now < a.soutAt a.soutNext then s
  else
    let p := almPer a.soutPer
    let k := if p = 0 then a.soutNext else Nat.max a.soutNext ((now - 65536 * a.soutStart.toNat) / p)
    if !a.soutHas k then s.modAlm fun a => { a with soutNext := k }
    else (s.emit (.syncout (a.soutLevel true))).modAlm fun a => { a with
      soutNext := k + 1, soutEnd := some (s.cref + Nat.max 1 (bits a.soutCfg 15 0)) }

def execSyncoutPulse (s : State) : Host.Outcome State Fault Refusal := .next (if s.almOn then s.syncout else s)

/-- SYNCOUT_PULSE_END, WIDTH cp after the latest pulse began. -/
def execSyncoutPulseEnd (s : State) : Host.Outcome State Fault Refusal :=
  .next (if s.almOn && (s.alm.soutEnd.any fun t => decide (t ≤ s.cref)) then
    (s.emit (.syncout (s.alm.soutLevel false))).modAlm fun a => { a with soutEnd := none } else s)

/-! Writes of the ALM registers (R372). -/

/-- A write of the register at offset r of the ALM block. -/
def State.almWrite (s : State) (r : Nat) (v : Word) : State :=
  match r with
  | 0x00 => s.almCtrl v
  | 0x04 => s.modAlm fun a => { a with id := v &&& 0x9FFFFFFF#32 }
  | 0x08 => s.modAlm fun a => { a with cfg := v &&& 0x00FFFFFF#32 }
  | 0x0C => s.modAlm fun a => { a with sticky := a.sticky &&& ~~~ ((v &&& 0xF8#32).setWidth 8) }
  | 0x18 => s.modAlm fun a => { a with set := join64 (hi32 a.set) v }
  | 0x1C => s.modAlm fun a => { a with set := join64 v (lo32 a.set) }
  | 0x20 => s.almCmd v
  | 0x30 => s.modAlm fun a => { a with syncCfg := v &&& 0x800000FF#32 }
  | 0x34 => (s.modAlm fun a => { a with syncPer := join64 (hi32 a.syncPer) v }).lockSettle
  | 0x38 => (s.modAlm fun a => { a with syncPer := join64 (v &&& 0xFFFF#32) (lo32 a.syncPer) }).lockSettle
  | 0x3C => s.modAlm fun a => { a with syncOrg := join64 (hi32 a.syncOrg) v }
  | 0x40 => s.modAlm fun a => { a with syncOrg := join64 v (lo32 a.syncOrg) }
  | 0x54 => s.modAlm fun a => { a with soutStart := join64 (hi32 a.soutStart) v }
  | 0x58 => s.modAlm fun a => { a with soutStart := join64 v (lo32 a.soutStart) }
  | 0x5C => s.modAlm fun a => { a with soutPer := join64 (hi32 a.soutPer) v }
  | 0x60 => s.modAlm fun a => { a with soutPer := join64 (v &&& 0xFFFF#32) (lo32 a.soutPer) }
  | 0x64 => s.modAlm fun a => { a with
      soutCfg := v, soutNext := if bit v 31 && !bit a.soutCfg 31 then a.soutFirst a.time else a.soutNext }
  | _ => s

end Sys2Proof.Machine
end

