-- ==== Sys2Proof/Machine/SerialPorts.lean ====
section
/-! DEFINITION. The master ports, the slave port and the general-purpose ports (13 R380 to R395). -/

namespace Sys2Proof.Machine

def State.modPort (s : State) (p : Fin 8) (f : SpPort → SpPort) : State :=
  s.modSer fun r => { r with port := r.port.set p (f r.port[p]) }
def State.modSpSlot (s : State) (p k : Fin 8) (f : SpSlot → SpSlot) : State :=
  s.modPort p fun x => { x with slot := x.slot.set k (f x.slot[k]) }

/-! Deposits (R385). -/

/-- A word that a deposit may name (R383): an input or reference word of a vendor engine, or any public word of
an open engine. -/
def State.depositOk (s : State) (a : Nat) : Bool :=
  let j := sigEng a
  let k := sigWord a
  s.isOpen (sigAxis a) j || (decide (16 ≤ k) && decide (k < 64) && !isSensing j.val k)

/-- The engine that owns the deposited words receives SP_DONE; E4 of a vendor chain watches it (06 R180). -/
def State.spDone (s : State) (n : AxisId) (j : EngId) : State :=
  let s := s.oneEvent n j 10
  if j = 4 && !s.isOpen n j && s.axOn n then s.modCh n fun c => { c with spDoneAt := some s.cref } else s

/-- Words are deposited from an address on, in ascending order. -/
def State.deposit (s : State) (a : Nat) (ws : List Word) : State :=
  let n := sigAxis a
  let j := sigEng a
  if !s.axOn n || s.noWords n j then s
  else
    let s := (List.range ws.length).foldl (fun s i => s.outWrite (a + i) (ws.getD i 0#32)) s
    s.spDone n j

/-! Schedules (R383, R384). -/

/-- The number of words that a schedule deposits. -/
def SpSlot.words (x : SpSlot) : Nat := if x.angle then 1 else (x.len + 31) / 32

/-- The checks of SP_SCHEDULE. A removal is checked for its port and slot alone. -/
def State.schedCheck (s : State) (port slot sel trig ref format shift width : BitVec 8) (len : BitVec 16) (dest : Word) : Check :=
  let a := dest.toNat
  let cnt := if format = 1#8 then 1 else (len.toNat + 31) / 32
  let pre := [failIf (port = 0#8 || decide (8 < port.toNat) || decide (8 ≤ slot.toNat)) .badArg, failIf (!s.sysOn 74) .conflict]
  if trig = 0xFF#8 then firstFail pre
  else firstFail (pre ++ [
    failIf (decide (4 ≤ sel.toNat) || decide (8 ≤ trig.toNat) || decide (2 ≤ format.toNat)) .badArg,
    failIf (trig = 7#8 && ref ≠ 0#8) .badArg,
    failIf (trig ≠ 7#8 && decide (64 ≤ ref.toNat)) .badArg,
    failIf (decide (2 ^ 20 ≤ a)) .badArg,
    failIf (trig ≠ 7#8 && !s.hasAxis (Fin.ofNat 64 ref.toNat)) .absent,
    failIf (!s.hasAxis (sigAxis a)) .absent,
    failIf (len = 0#16 || decide (512 < len.toNat)) .badArg,
    failIf (format = 1#8 && (decide (32 ≤ shift.toNat) || width = 0#8 || decide (32 < width.toNat) ||
      decide (len.toNat < shift.toNat + width.toNat))) .badArg,
    failIf (decide (1024 < sigWord a + cnt) || (List.range cnt).any fun i => !s.depositOk (a + i)) .badArg,
    failIf (!s.axOn (sigAxis a) || (trig ≠ 7#8 && !s.axOn (Fin.ofNat 64 ref.toNat))) .conflict])

/-- The schedule that the operands write; the counts of the slot's register stay. -/
def SpSlot.written (x : SpSlot) (sel trig ref format shift width : BitVec 8) (len : BitVec 16) (dest : Word) (tx : Dword)
    (mask val : Word) : SpSlot :=
  if trig = 0xFF#8 then { chkFail := x.chkFail, overrun := x.overrun }
  else { en := true, pend := false, tickAt := x.tickAt, chkFail := x.chkFail, overrun := x.overrun, sel := sel.setWidth 2, trig := trig
         ref := Fin.ofNat 64 ref.toNat, angle := format = 1#8, shift := shift.toNat, width := width.toNat, len := len.toNat
         dest := dest, tx := tx, mask := mask, val := val }

def execSpSchedule (h : DescHdr) (port slot sel trig ref format shift width : BitVec 8) (len : BitVec 16)
    (dest : Word) (tx : Dword) (chkMask chkVal : Word) (s : State) : Host.Outcome State Fault Refusal :=
  .next (s.decodeNow h false (.spSchedule h port slot sel trig ref format shift width len dest tx chkMask chkVal) (fun s => s.schedCheck port slot sel trig ref format shift width len dest)
    (fun s => (s.modPort (Fin.ofNat 8 (port.toNat + 7)) fun x =>
      { x with slot := x.slot.set (Fin.ofNat 8 slot.toNat) (x.slot[(Fin.ofNat 8 slot.toNat : Fin 8)].written sel trig ref format shift width
                                     len dest tx chkMask chkVal)
               fifo := if x.job.isSome then x.fifo else [] }).done h .ok))

/-- A trigger of the slot is due: an event delivered to it, or a TICK, every 4,000 cp of CREF. -/
def State.schedDue (s : State) (y : SpSlot) : Bool :=
  if y.trig = 7#8 then s.cref % 4000 = 0 && y.tickAt ≠ some s.cref else decide (0 < y.due)

/-- SCHEDULE_TRIGGER: the slot's event after EVT_PRESC. -/
def State.schedTrigger (s : State) (p k : Fin 8) : State :=
  let x := s.ser.port[p]
  let y := x.slot[k]
  if !s.sysOn 74 || !x.en || !y.en || !s.schedDue y then s
  else s.modSpSlot p k fun y =>
    let y := if y.trig = 7#8 then { y with tickAt := some s.cref } else { y with due := y.due - 1 }
    if y.pend then { y with overrun := satInc y.overrun } else { y with pend := true }

def execScheduleTrigger (p : Fin 8) (k : Fin 8) (s : State) : Host.Outcome State Fault Refusal := .next (s.schedTrigger p k)

/-! Transfers (R380 to R382). -/

/-- The half period of a select in units of 5 ns. -/
def spHalf (cfg : Word) : Nat := Nat.max 1 (Nat.min 999 (bits cfg 25 16)) + 1
/-- The least timeout of a transfer in ns (15 R439). -/
def spLeast (cfg : Word) (len : Nat) : Nat := 4 * ((bits cfg 15 12 + 1) + (bits cfg 11 8 + 1) + 2 * len) * spHalf cfg * 5

/-- The checks of SP_TRANSFER. -/
def State.spCheck (s : State) (h : DescHdr) (port sel : BitVec 8) (len : BitVec 16) (rxAddr : Dword) : Check :=
  let x := s.ser.port[(Fin.ofNat 8 (port.toNat + 7) : Fin 8)]
  firstFail [
    failIf (port = 0#8 || decide (8 < port.toNat) || decide (4 ≤ sel.toNat)) .badArg,
    failIf (len = 0#16 || decide (4096 < len.toNat)) .badArg,
    dataCheck h 1 ((len.toNat + 7) / 8), spanCheck h.src rxAddr ((len.toNat + 7) / 8),
    failIf (decide (1000 * s.effTimeout h < spLeast x.sel[(Fin.ofNat 4 sel.toNat : Fin 4)] len.toNat)) .badArg,
    failIf (!s.sysOn 74 || !x.en) .conflict]

def execSpTransfer (h : DescHdr) (port sel : BitVec 8) (len : BitVec 16) (tx : List Byte) (rxAddr : Dword) (s : State) :
    Host.Outcome State Fault Refusal :=
  let p : Fin 8 := Fin.ofNat 8 (port.toNat + 7)
  .next (s.decodeNow h false (.spTransfer h port sel len tx rxAddr) (fun s => s.spCheck h port sel len rxAddr)
    (fun s => (s.modPort p fun x => { x with
      queue := x.queue ++ [{ src := h.src, tag := h.tag, sel := sel.setWidth 2, len := len.toNat
                             tx := fit ((len.toNat + 7) / 8) tx, rxAddr := rxAddr }] }).setAct h (.spTransfer p)))

/-- The bits of a byte string, bit 7 of byte 0 first. -/
def wireBits (bs : List Byte) : List Bool := bs.flatMap fun b => (List.range 8).map fun i => b.getLsbD (7 - i)
/-- Bits packed into bytes, the first in bit 7 of byte 0. -/
def packBits (l : List Bool) : List Byte :=
  (List.range ((l.length + 7) / 8)).map fun k => (List.range 8).foldl (fun b i => setBitW b (7 - i) (l.getD (8 * k + i) false)) 0#8

/-- The bits that a schedule sends: TX from bit 63, or bit 0 with LSB_FIRST, and zeros after it. -/
def SpSlot.txBits (x : SpSlot) (lsbFirst : Bool) : List Bool :=
  (List.range x.len).map fun i => if 64 ≤ i then false else x.tx.getLsbD (if lsbFirst then i else 63 - i)

/-- The cp from a select's fall to its rise: LEAD half periods to the first SCK edge, 2 × LEN − 1 to the last, then LAG
(R380). -/
def spLength (cfg : Word) (len : Nat) : Nat :=
  2 * ((bits cfg 15 12 + 1) + (2 * len - 1) + (bits cfg 11 8 + 1)) * spHalf cfg

/-- The settings of the select of a transfer. -/
def SpPort.cfgOf (x : SpPort) (sel : BitVec 2) : Word := x.sel[(Fin.ofNat 4 sel.toNat : Fin 4)]

/-- The port has left its selects high for IDLE × 5 ns of the select that comes (DEDUCED, log entry 144). -/
def SpPort.idled (x : SpPort) (sel : BitVec 2) (cref : Nat) : Bool :=
  match x.roseAt with
  | some t => decide (t + 2 * bits (x.cfgOf sel) 7 0 ≤ cref)
  | none => true

/-- The mode of a select's clock. -/
def spMode (cfg : Word) : BitVec 2 := BitVec.ofNat 2 (bits cfg 29 28)

/-- A transfer of these bits begins: its select falls. -/
def SpPort.begin (x : SpPort) (j : SpJob) (y : SpSlot) (out : List Bool) (cref : Nat) : SpPort :=
  { x with busy := true, len := BitVec.ofNat 13 y.len, job := some (j, y), endAt := cref + spLength (x.cfgOf y.sel) y.len
           fifo := out, clk := (spMode (x.cfgOf y.sel)).getLsbD 1 }

/-- The running transfer has ended: its select rises, the FIFO is zeroed, and the outputs stay as it leaves them. -/
def SpPort.finish (x : SpPort) (cref : Nat) : SpPort :=
  { x with busy := false, job := none, roseAt := some cref, sdo := x.fifo.getLastD x.sdo, fifo := [] }

/-- PORT_TRANSFER_START: the next request's select falls, schedules first and the lowest slot first. -/
def State.portStart (s : State) (p : Fin 8) : State :=
  let x := s.ser.port[p]
  if !s.sysOn 74 || !x.en || x.job.isSome then s
  else
    match (List.finRange 8).find? fun k => x.slot[k].pend with
    | some k =>
      let y := x.slot[k]
      let cfg := x.cfgOf y.sel
      if !x.idled y.sel s.cref then s
      else
        (s.emit (.spTx p y.sel (spMode cfg) (y.txBits (bit cfg 31)))).modPort p fun x =>
          { x.begin (.sched k) y (y.txBits (bit cfg 31)) s.cref with slot := x.slot.set k { x.slot[k] with pend := false } }
    | none =>
      match x.queue with
      | [] => s
      | q :: rest =>
        if !x.idled q.sel s.cref then s
        else
          (s.emit (.spTx p q.sel (spMode (x.cfgOf q.sel)) ((wireBits q.tx).take q.len))).modPort p fun x =>
            { x.begin (.desc q.src q.tag q.rxAddr false) { sel := q.sel, len := q.len } ((wireBits q.tx).take q.len) s.cref with queue := rest }

def execPortTransferStart (p : Fin 8) (s : State) : Host.Outcome State Fault Refusal := .next (s.portStart p)

/-- The number that received bits spell: the last received is bit 0 (R385), and with LSB_FIRST the first, since the bits then
come least significant first (R380; DEDUCED, log entry 167). -/
def rxValue (lsbFirst : Bool) (rx : List Bool) : Nat :=
  (if lsbFirst then rx.reverse else rx).foldl (fun v b => 2 * v + (if b then 1 else 0)) 0

/-- The received bits of a schedule are checked and deposited. -/
def State.schedEnd (s : State) (p k : Fin 8) (x : SpSlot) (v : Nat) : State :=
  if (BitVec.ofNat 32 v &&& x.mask) ≠ x.val then s.modSpSlot p k fun y => { y with chkFail := satInc y.chkFail }
  else if x.angle then
    s.deposit x.dest.toNat [BitVec.ofNat 32 (v / 2 ^ x.shift % 2 ^ x.width * 2 ^ (32 - x.width))]
  else s.deposit x.dest.toNat ((List.range x.words).map fun i => BitVec.ofNat 32 (v / 2 ^ (32 * i)))

/-- PORT_TRANSFER_END: the select rises, once the transfer's clocks and LAG have run. -/
def State.portEnd (s : State) (p : Fin 8) (rx : List Bool) : State :=
  match s.ser.port[p].job with
  | none => s
  | some (j, x) =>
    if s.cref < s.ser.port[p].endAt then s
    else
    let lsb := bit (s.ser.port[p].cfgOf x.sel) 31
    let s := s.modPort p fun y => y.finish s.cref
    let bits := rx.take x.len
    match j with
    | .sched k => s.schedEnd p k x (rxValue lsb bits)
    | .desc src tag addr late =>
      let s := if addr = 0#64 then s else s.writeOut src addr (packBits bits)
      s.completeIf (fun d => d.act = Act.spTransfer p) src tag (if late then .lateSent else .ok) 0#32

def execPortTransferEnd (p : Fin 8) (rx : List Bool) (s : State) : Host.Outcome State Fault Refusal :=
  .next (if s.sysOn 74 then s.portEnd p rx else s)

/-- A write of a master port's register at offset r (R392). -/
def State.portWrite (s : State) (p : Fin 8) (r : Nat) (v : Word) : State :=
  s.modPort p fun x =>
    if r = 0 then { x with en := bit v 0 }
    else if r = 4 then { x with wrReject := x.wrReject && !bit v 30 }
    else if 0x10 ≤ r && r < 0x20 then
      if x.en then { x with wrReject := true }
      else { x with sel := x.sel.set (Fin.ofNat 4 ((r - 0x10) / 4)) (v &&& 0xB3FFFFFF#32) }
    else x

/-! The slave port (R387 to R390). -/

/-- TX_N. -/
def spsTxN (buf : Word) : Nat := Nat.min 64 (bits buf 30 24)

/-- A write of SPS_CFG: taken only while EN is 0. -/
def State.spsEnable (s : State) (v : Word) : State :=
  if bit s.ser.spsCfg 31 then s.modSer fun r => { r with spsSticky := r.spsSticky ||| 0x10000000#32 }
  else
    let b := s.ser.spsBuf
    let (n, j) := spsEng v
    let ok := (bits v 28 27 ≠ 1 || (s.hasAxis n && s.isOpen n j)) && decide (bits b 9 0 ≤ 959) &&
      decide (bits b 19 10 + spsTxN b ≤ 1024)
    let f := v &&& 0x7BFF0000#32
    s.modSer fun r =>
      if !bit v 31 then { r with spsCfg := f }
      else if ok then { r with spsCfg := f ||| 0x80000000#32 }
      else { r with spsCfg := f, spsSticky := r.spsSticky ||| 0x20000000#32 }

def execSpsEnable (cfg : Word) (s : State) : Host.Outcome State Fault Refusal :=
  .next (if s.sysOn 74 then s.spsEnable cfg else s)

/-- The words that the owner offers; the supervisor's are its firmware's, and free. -/
def State.spsWords (s : State) : List Word :=
  let b := s.ser.spsBuf
  if !s.spsOwnerRuns then []
  else if bits s.ser.spsCfg 28 27 = 1 then
    let (n, j) := spsEng s.ser.spsCfg
    (List.range (spsTxN b)).map fun i => s.sigRead (sigAddr n j.val (bits b 19 10 + i))
  else (List.range (spsTxN b)).map fun i => Config.freeWord (s.freeCtr + i)

/-- The status byte. -/
def State.spsStatus (s : State) : Word :=
  bitAt 7 s.spsReady ||| s.ser.spsPrev.setWidth 32 ||| fieldAt 2 (s.ser.spsCnt.toNat % 4)

/-- SPS_SELECT_FALL. -/
def State.spsFall (s : State) : State :=
  let s := s.modSer fun r => { r with spsActive := true }
  if !bit s.ser.spsCfg 31 then s
  else
    let ws := s.spsWords
    ((s.emit (.spsTx (s.spsStatus :: ws))).bumpBy 64).modSer fun r => { r with spsTx := ws }

def execSpsSelectFall (s : State) : Host.Outcome State Fault Refusal := .next (if s.sysOn 74 then s.spsFall else s)

/-- SPS_SELECT_RISE: `words` are the full words received, `shortBits` bits of one more in `short`, and `clocked` the
words clocked out. The deposit of an engine that is stopped is refused. -/
def State.spsRise (s : State) (words : List Word) (shortBits : Nat) (short : Word) (clocked : Nat) : State :=
  let was := s.ser.spsActive
  let s := s.modSer fun r => { r with spsActive := false }
  if !was || !bit s.ser.spsCfg 31 then s
  else
    let part := shortBits ≠ 0
    let all := words ++ (if part then [BitVec.ofNat 32 (short.toNat % 2 ^ shortBits)] else [])
    let owner := bits s.ser.spsCfg 28 27
    let refused := owner = 1 && !s.spsOwnerRuns
    let ovf := decide (64 < all.length)
    let unf := decide (spsTxN s.ser.spsBuf < clocked)
    let err := part || refused
    let cnt := s.ser.spsCnt + 1#16
    let rec_ := fieldAt 16 (Nat.min 64 words.length) ||| bitAt 15 part ||| fieldAt 8 (cnt.toNat % 4) ||| fieldAt 0 (shortBits % 64)
    let s := s.modSer fun r => { r with
      spsCnt := cnt, spsPrev := BitVec.ofNat 8 (recBit 6 ovf + recBit 5 unf + recBit 4 err)
      spsSticky := r.spsSticky ||| bitAt 27 ovf ||| bitAt 26 unf ||| bitAt 25 err ||| bitAt 24 part }
    if owner = 1 && !refused then
      let (n, j) := spsEng s.ser.spsCfg
      s.deposit (sigAddr n j.val (bits s.ser.spsBuf 9 0)) (rec_ :: all.take 64)
    else s

def execSpsSelectRise (words : List Word) (shortBits : Nat) (short : Word) (clocked : Nat) (s : State) :
    Host.Outcome State Fault Refusal := .next (if s.sysOn 74 then s.spsRise words shortBits short clocked else s)

/-- A write of an SPS register (R393). -/
def State.spsWrite (s : State) (r : Nat) (v : Word) : State :=
  if r = 0 then s.spsEnable v
  else if r = 4 then s.modSer fun x =>
    if bit x.spsCfg 31 then { x with spsSticky := x.spsSticky ||| 0x10000000#32 } else { x with spsBuf := v &&& 0x7F0FFFFF#32 }
  else s.modSer fun x => { x with spsSticky := x.spsSticky &&& ~~~ (v &&& 0x3F000000#32) }

/-! The general-purpose ports (R394, R395). -/

/-- GP_INPUT_CHANGE: a ball has stood at a new level for FILT cp, which accepts it. -/
def State.gpInput (s : State) (i : Fin 32) (p : Pin) : State :=
  if !s.sysOn 74 || bit s.ser.gpLevel i.val = p.level || p.held < bits s.ser.gpCfg[i] 23 16 then s
  else s.modSer fun r => { r with gpLevel := setBitW r.gpLevel i.val p.level, gpEdge := setBitW r.gpEdge i.val true }

def execGpInputChange (i : Fin 32) (p : Pin) (s : State) : Host.Outcome State Fault Refusal := .next (s.gpInput i p)

/-- GP_PULSE_END, WIDTH cp after the latest event. -/
def execGpPulseEnd (i : Fin 32) (s : State) : Host.Outcome State Fault Refusal :=
  .next (if s.sysOn 74 && (s.ser.gpEnd[i].any fun t => decide (t ≤ s.cref)) then
    s.modSer fun r => { r with gpOut := setBitW r.gpOut i.val false, gpEnd := r.gpEnd.set i none } else s)

/-- The ports whose state the host sets: owned by HOST, and not made by events. -/
def State.gpHost (s : State) : Word :=
  (List.finRange 32).foldl (fun w i => w ||| bitAt i.val (!s.gpEngine s.ser.gpCfg[i] && gpFunc s.ser.gpCfg[i] ≠ 3)) 0#32

/-- GP_OUT takes a value on the host's ports. -/
def State.gpPut (s : State) (v : Word) : State :=
  if s.sysOn 74 then let m := s.gpHost; s.modSer fun r => { r with gpOut := maskWrite r.gpOut v m } else s

def execGpOutWrite (value : Word) (s : State) : Host.Outcome State Fault Refusal := .next (s.gpPut value)
def execGpSet (value : Word) (s : State) : Host.Outcome State Fault Refusal := .next (s.gpPut (s.ser.gpOut ||| value))
def execGpClr (value : Word) (s : State) : Host.Outcome State Fault Refusal := .next (s.gpPut (s.ser.gpOut &&& ~~~ value))

/-- A write of GP_CFG(i). A port that changes into or out of EVENT_PULSE has no pulse. -/
def State.gpConfig (s : State) (i : Fin 32) (v : Word) : State :=
  let v := v &&& 0x3FFF071F#32
  s.modSer fun r =>
    let moved := (gpFunc v = 3) != (gpFunc r.gpCfg[i] = 3)
    { r with gpCfg := r.gpCfg.set i v, gpEnd := if moved then r.gpEnd.set i none else r.gpEnd
             gpOut := if moved then setBitW r.gpOut i.val false else r.gpOut }

/-- A write of the register at offset r of the GP block. -/
def State.gpWrite (s : State) (r : Nat) (v : Word) : State :=
  match r with
  | 0x80 => s.gpPut v
  | 0x84 => s.gpPut (s.ser.gpOut ||| v)
  | 0x88 => s.gpPut (s.ser.gpOut &&& ~~~ v)
  | 0x90 => s.modSer fun x => { x with gpEdge := x.gpEdge &&& ~~~ v }
  | 0x94 => s.modSer fun x => { x with gpPulse := v &&& 0xFF#32 }
  | _ => if r < 0x80 then s.gpConfig (Fin.ofNat 32 (r / 4)) v else s

/-! What the terminals show (R373, R394). -/

/-- How an output terminal is driven. -/
inductive Drive where
  | low | high | released
  deriving DecidableEq, Repr

/-- Driven to a level. -/
def Drive.of (level : Bool) : Drive := if level then .high else .low

/-- Select k of port p, active low. -/
def State.spSelect (s : State) (p : Fin 8) (k : Fin 4) : Drive :=
  if !s.sysOn 74 then .released
  else match s.ser.port[p].job with
    | some (_, y) => .of (y.sel.toNat ≠ k.val)
    | none => .high

/-- SCK and SDO of port p between transfers: as the last one left them. -/
def State.spIdle (s : State) (p : Fin 8) : Drive × Drive :=
  if !s.sysOn 74 then (.released, .released) else (.of s.ser.port[p].clk, .of s.ser.port[p].sdo)

/-- SSDO is driven while SSEL_N is low, and of high impedance while it is high. -/
def State.ssdoDriven (s : State) : Bool := s.sysOn 74 && s.ser.spsActive

/-- The ball of GP port i: a released ball has its pull-down. -/
def State.gpBall (s : State) (i : Fin 32) : Drive :=
  let w := s.ser.gpCfg[i]
  let level := bit s.ser.gpOut i.val != bit w 3
  if !s.sysOn 74 then .released
  else match gpFunc w with
    | 1 | 3 => .of level
    | 2 => if level then .released else .low
    | _ => .released

end Sys2Proof.Machine
end

