-- ==== Sys2Proof/Machine/Restart.lean ====
section
/-! DEFINITION. What the resets of the module keep and lose (14 R397, R403, R409; 15 R430; 21 R538), and
the reset of the supervisor alone (15 R430). -/

namespace Sys2Proof.Machine

/-- What of an axis a reset of the module leaves: the latches of its driver and the CLU_STATUS fields that only
power-on resets. -/
def Axis.afterReset (a : Axis) : Axis :=
  { gdr := { latches := a.gdr.latches }
    clu := { recoverCnt := a.clu.recoverCnt, lastEngine := a.clu.lastEngine, lastCause := a.clu.lastCause } }

/-- What of a bank a reset leaves: the inputs that Thimble filters, their discrepancy, CLEAR_CNT and the
level at TRIPb. -/
def Bank.afterReset (k : Bank) : Bank :=
  { en := k.enPin, enPin := k.enPin, stoA := k.stoA, stoB := k.stoB, discRun := k.discRun, discAt := k.discAt, bothLow := k.bothLow
    clearCnt := k.clearCnt, trip := k.trip }

/-- What of a bank of images a reset leaves: the flash. A bank whose session was open has no record. -/
def ImgBank.afterReset (b : ImgBank) : ImgBank :=
  if b.st = .writing then {} else { st := b.st, booted := b.booted, encrypted := b.encrypted, hdr := b.hdr, blocks := b.blocks }

/-- What of the images and settings a reset leaves: the flash, what of it is preserved, and
IMG_REVERT. -/
def Img.afterReset (i : Img) : Img :=
  { bank := i.bank.map ImgBank.afterReset, copy := i.copy, store := i.store
    revertCnt := i.revertCnt, revertCause := i.revertCause, preserved := i.preserved }

/-- What of the security unit a reset leaves: the OTP, the sealed key and the certificate in flash, what the
TAP holds, and SCRAP. -/
def Sec.afterReset (c : Sec) : Sec :=
  { otp := c.otp, scrapped := c.scrapped, sealed := c.sealed, pub := c.pub, cert := c.cert
    extest := c.extest, tapErr := c.tapErr, tapData := c.tapData }

/-- What of the supply a reset leaves: what the power die, Thimble and the always-on domain hold. -/
def Power.afterReset (p : Power) : Power :=
  { mode := .start, uv := p.uv, ovWarn := p.ovWarn, rails := p.rails, vcoreLow := p.vcoreLow, rbOn := p.rbOn
    vinsLevel := p.vinsLevel, buckOn := p.buckOn, wakeCfg := p.wakeCfg, wakeTimer := p.wakeTimer
    wakeCause := p.wakeCause, wakeDrive := p.wakeDrive, wakeAt := p.wakeAt }

/-- A reset that reruns the boot ROM with the clocks running: RESET_N, a restart of the images, and a reset
of the core. CREF and the Almanac's time count on, since they start at 0 only after power-on and SLEEP (04
R95, 12 R360; DEDUCED, log entry 17). The module then waits for RAILS_GOOD. -/
def State.resetModule (s : State) : State :=
  { variant := s.variant, rst := s.rst, out := s.out, freeCtr := s.freeCtr, pending := s.pending
    cref := s.cref
    clk := { s.clk with dll := false, ckl := 0#8 }
    pwr := s.pwr.afterReset
    flt := { grave := s.flt.grave, thimble := s.flt.thimble, clockCut := s.flt.clockCut }
    hst := { perstLow := s.hst.perstLow }
    alm := { time := s.alm.time, frac := s.alm.frac }
    ser := { gpLevel := s.ser.gpLevel, bootDue := s.ser.bootDue, info := 7#32 ||| (s.ser.info &&& 0x300#32) }
    sec := s.sec.afterReset
    img := s.img.afterReset
    tly := { closes := s.tly.closes, checks := s.tly.checks, wasSet := s.tly.wasSet }
    bank := s.bank.map Bank.afterReset
    ax := s.ax.map Axis.afterReset }

/-- Every domain loses its power but the always-on one: CREF and the Almanac's time are lost, and no clock
runs (14 R397, R409). -/
def State.powerDown (s : State) (m : PwrMode) : State :=
  let s := s.resetModule
  { s with
    cref := 0, clk := {}, alm := {}, ser := { gpLevel := s.ser.gpLevel }, tly := { s.tly with wasSet := false }
    flt := { s.flt with clockCut := false }
    bank := s.bank.map fun k => { k with discAt := 0 }
    pwr := { s.pwr with mode := m, buckOn := false, rails := 0#5, wakeAt := 0 } }

/-- A restart of the module through the boot ROM, noted at a bit of RST_CAUSE (21 R537). -/
def State.restart (s : State) (cause : Nat) : State :=
  { s.resetModule with rst := setBitW s.rst cause true }

/-! The supervisor alone (15 R430). -/

/-- SERVICE mode is left: ENb counts again, at the level that its terminal has. Its edges in SERVICE were ignored, so
that none of them clears a latch (02 R49, R59; DEDUCED, log entry 153). -/
def State.serviceEnd (s : State) : State :=
  if s.sup ≠ .service then s
  else (s.forBanks allBanks fun b s => s.modBank b fun k => { k with en := k.enPin })

/-- Thimble holds the supervisor in reset: nothing is decoded and READY is 0. The debugger's hold on its cores
is gone. -/
def State.holdSup (s : State) : State :=
  if s.pwr.mode = .off || s.pwr.mode = .start || s.pwr.mode = .sleep then s
  else
    let service := s.sup = .service
    let s := { s.serviceEnd with sup := SupMode.held, flt := { s.flt with supHeldAt := s.cref } }
    let s := (s.modHst fun h => { h with ready := false }).modSec fun c => { c with supHalted := false }
    if service then s.evalGates else s

/-- The sources whose reaction includes the reset of the supervisor. -/
def State.supFault (s : State) (src : Nat) : State := (s.raiseCond src true).holdSup

/-- The supervisor's cores run. -/
def State.supRuns (s : State) : Bool := s.sup ≠ SupMode.held && (s.pwr.mode.live || s.pwr.mode = .enteringSleep)

/-- The supervisor's cores disagree: a second time within 10 s raises LOCKSTEP_REPEAT instead (15 R430). -/
def State.mismatch (s : State) : State :=
  let again := match s.flt.lockstepAt with | some t => decide (s.cref < t + 10 * ms 1000) | none => false
  let s := s.modFlt fun f => { f with lockstepAt := some s.cref }
  s.supFault (if again then 1101 else 1100)

/-- An injection armed for the supervisor's SRAM, its comparator or the enclave's SRAM is met at the next access, which
these make at once while they run. An inverted single bit is corrected (15 R434; DESIGN CHOICE, log entry 161). -/
def State.injSup (s : State) : State :=
  let single := bit s.flt.inj 30
  if s.injected 6 0 && s.sysOn 77 then
    let s := s.useInj
    if single then s else s.raise 1112
  else if !s.supRuns || s.sec.supHalted then s
  else if s.injected 4 0 then (let s := s.useInj; if single then s else s.supFault 1105)
  else if s.injected 5 0 then s.useInj.mismatch
  else s

/-- The supervisor restarts from the boot ROM after its 10 µs in reset, timed by Thimble. Every descriptor in flight completes
RESET, the Fittings that it ran end, and what its SRAM and the enclave held for it is lost. Every other domain
goes on (15 R430; 16 R449, R459). RAILS_GOOD then gives what the boot ROM finds. -/
def State.restartSup (s : State) : State :=
  if s.sup ≠ .held || !s.ckt (s.flt.supHeldAt + us 10) || s.pwr.mode = .off || s.pwr.mode = .start || s.pwr.mode = .sleep then s
  else
    let s := allAxes.foldl (fun s n => s.endFittings n .reset 0#8) s
    let s := { s with fits := s.fits.map fun (f : Fit) => if f.ending.isNone then { f with ending := some (.reset, 0#8) } else f }
    let s := (s.completeAll (fun _ => true) .reset).settleFits
    let s := s.modSec fun c => { c with
      tokenOpen := false, scope := 0#2, nonce := none, jtagActive := false, otpLock := 0#7, ready := false
      identity := false, certOk := false, lcPending := false, otpOk := false }
    let s := s.modImg Img.afterReset
    { s with sup := SupMode.boot, rst := setBitW s.rst 2 true }

end Sys2Proof.Machine
end

