-- ==== Sys2Proof/Machine/Faults.lean ====
section
/-! DEFINITION. The fault collector (15 R424 to R427, R432, R433, R436), the self-tests (15 R428), injection
(15 R434) and the locks (02 R63, 03 R85, 15 R441, 18 R501). -/

namespace Sys2Proof.Machine

/-! Classes and scopes (15 R421, R425). -/

/-- How a class acts for a source: codes 5 to 7 as GRAVE, START_FAIL of a FAN axis as NOTE, a bank source
set to AXIS as BANK, a device source set to AXIS or BANK as DEVICE, except TACH_LOSS. -/
def State.actClass (s : State) (k : Nat) (c : BitVec 3) : Nat :=
  let c := Nat.min 4 c.toNat
  match srcScope k with
  | .axis n => if k < 1024 && k % 16 = 9 && (s.axis n).ch.mode = AxMode.fan then 0 else c
  | .bank _ => if c = 1 then 2 else c
  | .device => if c = 1 || c = 2 then 3 else c

/-- The scope on which a source acts with a class. -/
def actScope (k c : Nat) : Scope :=
  if 3 ≤ c then .device
  else match srcScope k with
    | .axis n => if c = 2 then .bank n.bank else .axis n
    | sc => sc

/-- The wider of two scopes of which one lies within the other, none where they are disjoint (15 R433). -/
def Scope.join (a b : Scope) : Option Scope :=
  match a, b with
  | .device, _ => some .device
  | _, .device => some .device
  | .bank x, .bank y => if x = y then some a else none
  | .bank x, .axis n => if n.bank = x then some a else none
  | .axis n, .bank y => if n.bank = y then some b else none
  | .axis m, .axis n => if m = n then some a else none

/-- The axes and the banks of a scope that are fitted. -/
def State.scopeAxes (s : State) : Scope → List AxisId
  | .axis n => if s.hasAxis n then [n] else []
  | .bank b => (bankAxes b).filter s.hasAxis
  | .device => s.present
def State.scopeBanks (s : State) : Scope → List BankId
  | .axis _ => []
  | .bank b => if s.hasBank b then [b] else []
  | .device => s.presentBanks

/-- The unit of a source is fitted (00 R2). -/
def State.srcFitted (s : State) (k : Nat) : Bool :=
  match srcScope k with
  | .axis n => s.hasAxis n
  | .bank b => s.hasBank b
  | .device => true

/-! Escalation (15 R432). -/

/-- The length of an escalation window in cp. -/
def escLen (e : BitVec 24) : Nat :=
  let t := Nat.max 1 (e.toNat % 4096)
  if e.getLsbD 12 then ms (100 * Nat.min 600 t) else ms t

/-- The raises counted in the open window of a source. -/
def State.escCount (s : State) (k : Nat) : Nat :=
  match s.escWinOf k with
  | some w => if s.cref < w.opened + escLen (s.fltEsc k) then w.count.toNat else 0
  | none => 0

/-- N of a source. -/
def State.escN (s : State) (k : Nat) : Nat := (s.fltEsc k).toNat / 2 ^ 16 % 256

/-- The class of a raise that is not merged: the source's own, or the higher of it and ESC_CLASS on the raise
that brings COUNT to N. -/
def State.raisedClass (s : State) (k : Nat) : BitVec 3 :=
  let own := s.fltClass k
  let esc := BitVec.ofNat 3 ((s.fltEsc k).toNat / 2 ^ 13)
  if s.escN k ≠ 0 && decide (s.escN k ≤ s.escCount k + 1) && decide (own < esc) then esc else own

/-- A raise counts: it opens a window, adds to COUNT, or closes the window with the Nth. -/
def State.escNote (s : State) (k : Nat) : State :=
  if s.escN k = 0 then s
  else
    let c := s.escCount k
    let others := s.flt.escWin.filter fun w => w.src ≠ k
    let opened := match s.escWinOf k with | some w => if c = 0 then s.cref else w.opened | none => s.cref
    if s.escN k ≤ c + 1 then s.modFlt fun f => { f with escWin := others }
    else s.modFlt fun f => { f with escWin := others ++ [{ src := k, count := BitVec.ofNat 8 (c + 1), opened := opened }] }

/-! Reactions (15 R425, R426). -/

/-- A source has reacted on a scope with a class above NOTE: the reaction stays outstanding there. -/
def State.noteOut (s : State) (sc : Scope) (c : Nat) (k : Nat) : State :=
  if c = 0 then s
  else s.modFlt fun f =>
    let old := match f.outCls.find? fun (e : Scope × BitVec 3) => e.1 = sc with | some e => e.2.toNat | none => 0
    let f := { f with
      reacted := if f.reacted.contains (sc, k) then f.reacted else f.reacted ++ [(sc, k)]
      outCls := (f.outCls.filter fun (e : Scope × BitVec 3) => e.1 ≠ sc) ++ [(sc, BitVec.ofNat 3 (Nat.max old c))] }
    match sc with
    | .axis n => { f with axisOut := f.axisOut ||| axisMask n }
    | .bank b => { f with bankOut := setBitW f.bankOut b.val true }
    | .device => { f with deviceOut := true }

/-- A reaction of a class acts on a scope: axes to their safe state with STATE SAFE, at BANK the banks' permission
withdrawn, at GRAVE the latch set. -/
def State.react (s : State) (sc : Scope) (c : Nat) : State :=
  if c = 0 then s
  else
    let s := s.forAxes (s.scopeAxes sc) fun n s => s.sendSafe n .safe
    let s := if c = 2 then s.forBanks (s.scopeBanks sc) fun b s => (s.modBank b fun k => { k with allow := false }).evalGate b
      else s
    if c = 4 then (s.modFlt fun f => { f with grave := true }).evalGates else s

/-- FAULTS of the Tally: reactions of class AXIS or above by an axis' own sources (18 R488). -/
def State.countFault (s : State) (k c : Nat) : State :=
  if k < 1024 && decide (1 ≤ c) then s.accrue (Fin.ofNat 64 (k / 16)) fun a => { a with faults := satAdd (2 ^ 32 - 1) a.faults 1 }
  else s

/-- A merge window is open. -/
def State.mergeOpen (s : State) (w : MergeWin) : Bool := decide (s.cref < w.start + us 10)

/-- A raise that falls into an open merge window of a reaction whose scope meets its own: it counts in MERGE_CNT,
and what it adds to class and scope acts at once (15 R433). -/
def State.mergeInto (s : State) (w : MergeWin) (k : Nat) : State :=
  let c := s.actClass k (s.fltClass k)
  let sc := ((w.scope).join (actScope k c)).getD w.scope
  let cls := Nat.max w.cls.toNat c
  let s := s.modFlt fun f => { f with
    mergeCnt := satInc f.mergeCnt
    merge := modFirst (fun x => x = w) (fun x => { x with scope := sc, cls := BitVec.ofNat 3 cls }) f.merge }
  let s := if w.cls.toNat < cls || sc ≠ w.scope then s.react sc cls else s
  s.noteOut sc cls k

/-- The collector acts on a raised source (15 R424, R425, R432, R433). -/
def State.collect (s : State) (k : Nat) : State :=
  if !srcListed k || !s.srcFitted k then s
  else
    let s := s.modFlt fun f => { f with sticky := setBitW f.sticky k true }
    let c := s.actClass k (s.fltClass k)
    let hit := s.flt.merge.find? fun w => s.mergeOpen w && (w.scope.join (actScope k c)).isSome
    match hit with
    | some w => s.mergeInto w k
    | none =>
      let c := s.actClass k (s.raisedClass k)
      let sc := actScope k c
      let s := (s.escNote k).devVector
      let s := s.modFlt fun f => { f with
        merge := (f.merge.filter s.mergeOpen) ++ [{ scope := sc, cls := BitVec.ofNat 3 c, start := s.cref }] }
      ((s.countFault k c).react sc c).noteOut sc c k

/-- FAULT_REACTION: the oldest raised source reaches the collector. -/
def State.faultReaction (s : State) : State :=
  match s.flt.raised with
  | [] => s
  | k :: l => (s.modFlt fun f => { f with raised := l }).collect k

def execFaultReaction (s : State) : Host.Outcome State Fault Refusal := .next s.faultReaction

/-- MERGE_WINDOW_CLOSE: the oldest merge window ends, 10 µs from its start. -/
def execMergeWindowClose (s : State) : Host.Outcome State Fault Refusal :=
  .next (if s.flt.merge.head?.any s.mergeOpen then s else s.modFlt fun f => { f with merge := f.merge.drop 1 })

/-- ESC_WINDOW_CLOSE: T after the window opened, COUNT of the source returns to 0. -/
def execEscWindowClose (src : Fin 1536) (s : State) : Host.Outcome State Fault Refusal :=
  .next (if (s.escWinOf src.val).any fun w => decide (s.cref < w.opened + escLen (s.fltEsc src.val)) then s
    else s.modFlt fun f => { f with escWin := f.escWin.filter fun w => w.src ≠ src.val })

/-! Clearing (15 R421 to R423, R427). -/

/-- The latch bits of an axis source (02 R56). -/
def latchMask (k : Nat) : BitVec 16 :=
  match k with
  | 0 => 0x0007#16
  | 1 => 0x0038#16
  | 2 => 0x0FC0#16
  | 3 => 0x7000#16
  | 5 => 0x8000#16
  | _ => 0#16

/-- The cause of an axis source stands. -/
def State.axisCause (s : State) (n : AxisId) (k : Nat) : Bool :=
  match k with
  | 0 | 1 | 2 | 3 | 5 => (s.axis n).gdr.latches &&& latchMask k ≠ 0#16
  | 7 => s.flt.cause.getLsbD (axisSrc n 7)
  | 14 => s.axOn n && !F32.lt (s.e n 12 3) (s.param n 12 66)
  | _ => false

/-- Frames from every powered axis of the bank have arrived without error for 1 ms. -/
def State.linkGood (s : State) (b : BankId) : Bool :=
  s.linkLive b && decide ((s.bnk b).linkAt + ms 1 ≤ s.cref)

/-- The cause of a bank source stands. -/
def State.bankCause (s : State) (b : BankId) (j : Nat) : Bool :=
  match j with
  | 0 | 2 | 3 | 7 => s.flt.cause.getLsbD (bankSrc b j)
  | 4 => !s.vdrvCond b
  | 5 => !s.clk.ckl.getLsbD b.val
  | 6 => !s.linkGood b
  | _ => false

/-- A bank's HOLD-only tests are 24 h old. -/
def State.selftestOld (s : State) : Bool := s.presentBanks.any fun b => decide (1440 ≤ s.selftestAge b)

/-- The cause of a device source stands. -/
def State.deviceCause (s : State) (k : Nat) : Bool :=
  if 1090 ≤ k && k ≤ 1094 then !s.pwr.rails.getLsbD (k - 1090)
  else
    match k with
    | 1088 => s.pwr.uv
    | 1089 => s.pwr.ovWarn
    | 1095 => !s.clk.xtal
    | 1096 => !s.clk.plle
    | 1097 => !s.clk.pllp
    | 1098 => !s.clk.plln
    | 1099 => !s.clk.dll
    | 1100 | 1104 | 1105 => s.sup ≠ SupMode.ready
    | 1101 | 1102 | 1103 => true
    | 1107 | 1108 => s.flt.cause.getLsbD k
    | 1109 => s.pwr.fanFail
    | 1110 => s.selftestOld
    | _ => (1120 ≤ k && k ≤ 1135 || 1152 ≤ k && k ≤ 1215) && s.flt.cause.getLsbD k

/-- The cause of a source stands; an event has none. -/
def State.causeStands (s : State) (k : Nat) : Bool :=
  if k < 1024 then s.axisCause (Fin.ofNat 64 (k / 16)) (k % 16)
  else if k < 1088 then s.bankCause (Fin.ofNat 8 ((k - 1024) / 8)) (k % 8)
  else s.deviceCause k

/-- The sources whose causes keep a scope's reaction. -/
def State.remaining (s : State) (sc : Scope) : List Nat :=
  (s.flt.reacted.filter fun e => e.1 = sc && s.causeStands e.2).map (·.2)

/-- A reaction is outstanding on a scope. -/
def State.isOut (s : State) : Scope → Bool
  | .axis n => s.flt.axisOut.getLsbD n.val
  | .bank b => s.flt.bankOut.getLsbD b.val
  | .device => s.flt.deviceOut

/-- The reaction on a scope is cleared. -/
def State.clearScope (s : State) (sc : Scope) : State :=
  s.modFlt fun f =>
    let f := { f with reacted := f.reacted.filter fun e => e.1 ≠ sc, outCls := f.outCls.filter fun (e : Scope × BitVec 3) => e.1 ≠ sc }
    match sc with
    | .axis n => { f with axisOut := f.axisOut &&& ~~~ axisMask n }
    | .bank b => { f with bankOut := setBitW f.bankOut b.val false }
    | .device => { f with deviceOut := false }

/-- With reactions cleared, the lines of banks that are no longer overhot follow their conditions again (14 R414). -/
def State.coolBanks (s : State) : State :=
  s.forBanks allBanks fun b s =>
    if (s.bnk b).hot && decide (hottest (s.bnk b).tempsIn.toList < 1840) && !s.hotHeld b
    then (s.modBank b fun k => { k with hot := false }).evalGate b else s

/-- The scopes that FAULT_CLEAR names. -/
def namedScopes (axes : Dword) (banks scopeFlags : BitVec 8) : List Scope :=
  ((axesOf axes).map Scope.axis) ++ ((allBanks.filter fun b => banks.getLsbD b.val).map Scope.bank) ++
  (if scopeFlags.getLsbD 0 then [.device] else [])

/-- FAULT_CLEAR acts on the named scopes. -/
def State.clearFaults (s : State) (h : DescHdr) (l : List Scope) : State :=
  let left := l.flatMap s.remaining
  let gone := l.filter fun sc => s.isOut sc && (s.remaining sc).isEmpty
  let s := (gone.foldl State.clearScope s).coolBanks
  match left with
  | [] => s.done h .ok
  | k :: ks => s.done h .faulted (fieldAt 0 (ks.foldl Nat.min k) ||| bitAt 31 (!gone.isEmpty))

def execFaultClear (h : DescHdr) (axes : Dword) (banks scopeFlags : BitVec 8) (s : State) :
    Host.Outcome State Fault Refusal :=
  .next (s.decodeNow h false (.faultClear h axes banks scopeFlags)
    (fun s => firstFail [
      failIf ((axes = 0#64 && banks = 0#8 && scopeFlags = 0#8) || scopeFlags &&& 0xFE#8 ≠ 0#8) .badArg,
      failIf (s.absentMask axes || (allBanks.any fun b => banks.getLsbD b.val && !s.hasBank b)) .absent,
      failIf (s.offMask axes) .conflict, failIf s.flt.grave .denied])
    (fun s => s.clearFaults h (namedScopes axes banks scopeFlags)))

/-! Self-tests (15 R428). -/

/-- The module runs: it is neither off nor asleep. -/
def State.awake (s : State) : Bool := s.pwr.mode ≠ PwrMode.off && s.pwr.mode ≠ PwrMode.sleep

/-- A test that runs every 100 ms is due, 100 ms after the latest. -/
def State.testDue (s : State) (last : Option Nat) : Bool :=
  match last with | none => true | some t => s.ckt (t + ms 100)

/-- ONLINE_SELFTEST, every 100 ms: failures raise THIMBLE_SELFTEST, SUP_ECC and ENGINE_ECC of each axis. -/
def State.onlineTest (s : State) (thimbleOk supEccOk : Bool) (axesBad : Dword) : State :=
  if !s.awake || !s.testDue s.flt.onlineAt then s
  else
    let s := s.modFlt fun f => { f with onlineAt := some s.cref }
    let s := if thimbleOk then s else s.raise 1102
    let s := if supEccOk then s else s.supFault 1105
    s.forAxes ((axesOf axesBad).filter s.axOn) fun n s => s.raise (axisSrc n 12)

def execOnlineSelftest (thimbleOk supEccOk : Bool) (axesBad : Dword) (s : State) : Host.Outcome State Fault Refusal :=
  .next (s.onlineTest thimbleOk supEccOk axesBad)

/-- HOLD_SELFTEST, every 100 ms on a bank whose axes are all in HOLD or SAFE. The comparators are tested with each axis OPEN, so
that every test has passed only then. -/
def State.holdTest (s : State) (b : BankId) (pass : Bool) : State :=
  if !s.awake || !s.bankOn b || !((bankAxes b).all s.atRest) || !s.testDue s.flt.holdTestAt[b] then s
  else
    let s := s.modFlt fun f => { f with holdTestAt := f.holdTestAt.set b (some s.cref) }
    if !pass then s.raiseCond (bankSrc b 7) true
    else
    let s := s.raiseCond (bankSrc b 7) false
    let all := (bankAxes b).all fun n => s.forced n = Forced.open
    let s := if all then s.modFlt fun f => { f with stAt := f.stAt.set b (some s.cref) } else s
    if s.selftestOld then s else s.raiseCond 1110 false

def execHoldSelftest (b : BankId) (pass : Bool) (s : State) : Host.Outcome State Fault Refusal :=
  .next (s.holdTest b pass)

/-- SELFTEST_DUE: a bank's HOLD-only tests have not all passed for 24 h. -/
def execSelftestDue (s : State) : Host.Outcome State Fault Refusal :=
  .next (if s.awake && s.selftestOld then s.raiseCond 1110 true else s)

/-! Injection (15 R434). -/

/-- INDEX names a unit that KIND has. -/
def State.injUnit (s : State) (kind idx : Nat) : Bool :=
  match kind with
  | 0 | 1 => s.hasAxis (Fin.ofNat 64 (idx / 16))
  | 2 | 3 => decide (idx < 64) && s.hasAxis (Fin.ofNat 64 idx)
  | 4 | 5 | 6 => idx = 0
  | _ => false

/-- A write of FLT_INJ. An ARM write with a reserved KIND or an absent INDEX is ignored whole. The supervisor and the
enclave access what KIND 4 to 6 name at once while they run (DESIGN CHOICE, log entry 161). -/
def State.injWrite (s : State) (v : Word) : State :=
  if bit v 31 && !s.injUnit (bits v 27 24) (bits v 9 0) then s
  else (s.modFlt fun f => { f with inj := (v &&& 0xCF0003FF#32) ||| (f.inj &&& 0x80000000#32) }).injSup

/-- FAULT_INJECT: an ARM write. -/
def execFaultInject (value : Word) (s : State) : Host.Outcome State Fault Refusal :=
  .next (s.injWrite (value ||| 0x80000000#32))

/-- ENCLAVE_FAULT (15 R423): an event. -/
def execEnclaveFault (s : State) : Host.Outcome State Fault Refusal := .next (s.raise 1112)

/-! Locks. -/

/-- GDR_LOCK set (02 R63). -/
def State.gdrLock (s : State) (b : BankId) : State :=
  if s.bankOn b then s.modBank b fun k => { k with lock := true } else s

def execGdrLockSet (b : BankId) (s : State) : Host.Outcome State Fault Refusal := .next (s.gdrLock b)

/-- CMP_LOCK set (03 R85). -/
def State.cmpLock (s : State) (n : AxisId) : State :=
  if s.axOn n then s.modSns n fun q => { q with lock := true } else s

def execCmpLockSet (n : AxisId) (s : State) : Host.Outcome State Fault Refusal := .next (s.cmpLock n)

/-- FLT_LOCK set (15 R441). -/
def State.fltLock (s : State) : State := s.modFlt fun f => { f with lock := true }

def execFltLockSet (s : State) : Host.Outcome State Fault Refusal := .next s.fltLock

def execTlyLockSet (s : State) : Host.Outcome State Fault Refusal := .next s.tlyLock

end Sys2Proof.Machine
end

