-- ==== Sys2Proof/Machine/Security.lean ====
section
/-! DEFINITION. The OTP and its rules, the life-cycle, attestation and debug tokens (16 R442 to R459), and
the checks of signatures and key operations that images ask of the OTP (17 R469, R481). -/

namespace Sys2Proof.Machine

/-! Regions (16 R442, R448, R449). -/

/-- The regions of the OTP that OTP_LOCK numbers; `none` is what no rule opens. -/
inductive OtpRegion where
  | trim | identity | vkey | okey | mingen | patch | oem | none
  deriving DecidableEq, Repr

/-- The region of a word. -/
def otpRegion (w : Nat) : OtpRegion :=
  if w < 0x100 then .trim
  else if w < 0x110 then .none
  else if w < 0x120 then .identity
  else if w < 0x160 then .vkey
  else if w < 0x1A0 then .okey
  else if w = 0x1C0 || w = 0x1C1 then .mingen
  else if w < 0x200 then .none
  else if w < 0x300 then .patch
  else .oem

/-- The bit of a region in OTP_LOCK. -/
def OtpRegion.bit : OtpRegion → Nat
  | .trim => 0 | .identity => 1 | .vkey => 2 | .okey => 3 | .mingen => 4 | .patch => 5 | .oem => 6 | .none => 7

/-- The key slot of a word of VKEY or OKEY. -/
def otpSlot (w : Nat) : Nat := (w - 0x120) / 16
/-- The word is a GEN or REVOKE word of its slot. -/
def otpGenRev (w : Nat) : Bool := (w - 0x120) % 16 = 12 || (w - 0x120) % 16 = 13

/-- OTP_PROGRAM may burn a word in the life-cycle state: 0 BLANK to 5 SCRAP. -/
def State.otpOpen (s : State) (w : Nat) : Bool :=
  let lc := s.sec.lc.toNat
  match otpRegion w with
  | .trim => lc = 0
  | .identity | .none => false
  | .vkey => lc = 0 || lc = 1 || (otpGenRev w && (lc = 2 || lc = 3))
  | .okey => (lc = 2 && !s.slotPresent (otpSlot w)) || (otpGenRev w && decide (lc ≤ 3))
  | .mingen => lc = 1 || lc = 2 || lc = 3
  | .patch => lc = 0 || lc = 1 || lc = 4
  | .oem => lc = 2 || lc = 3

/-- The lock bits that the boot ROM sets: those of the regions that no row of R448 opens in the state. -/
def lockAtBoot (lc : Nat) : BitVec 7 :=
  match lc with
  | 0 => 0b1010010#7
  | 1 => 0b1000001#7
  | 2 | 3 => 0b0100011#7
  | 4 => 0b1011111#7
  | _ => 0x7F#7

/-- A slot of a class is present and unrevoked: vendor slots 0 to 3, OEM slots 4 to 7. -/
def State.classAlive (s : State) (oem : Bool) : Bool :=
  (List.range 4).any fun i => let k := if oem then i + 4 else i; s.slotPresent k && !s.slotRevoked k

/-! Burning (16 R447). -/

/-- Burns a word, within 100 µs: bits only ever become 1 (16 R447). -/
def State.burn (s : State) (w : Nat) (v : Word) : State :=
  (s.otpAccess (us 100)).modSec fun c => { c with otp := c.otp.wr w (c.otp.rd w ||| v), burnCnt := if v = 0#32 then c.burnCnt else satInc c.burnCnt }

/-- Burns words in order until one fails, if one does: of that word any of the bits asked for may be burnt. -/
def State.burnAll (s : State) : List (Nat × Word) → Option Nat → State
  | [], _ => s
  | (w, v) :: l, fails =>
    if fails = some w then (s.burn w (v &&& Config.freeWord s.freeCtr)).bump else (s.burn w v).burnAll l fails

/-- Consecutive words with their values. -/
def otpWords (w : Nat) (vs : List Word) : List (Nat × Word) := vs.zipIdx.map fun e => (w + e.2, e.1)

/-- The first word of a burn that leaves its class, which had a slot present and unrevoked, without one. -/
def State.lastSlot (s : State) (l : List (Nat × Word)) : Option Nat :=
  let t := s.burnAll l none
  let lost (oem : Bool) : Bool := s.classAlive oem && !t.classAlive oem
  (l.find? fun e => (otpRegion e.1 = .vkey && lost false) || (otpRegion e.1 = .okey && lost true)).map (·.1)

/-- The first word that R448 or OTP_LOCK keeps from being burnt. -/
def State.otpRefused (s : State) (l : List (Nat × Word)) : Option Nat :=
  match l.find? fun e => !s.otpOpen e.1 || s.sec.otpLock.getLsbD (otpRegion e.1).bit with
  | some e => some e.1
  | none => s.lastSlot l

def execOtpRead (h : DescHdr) (word count : BitVec 16) (dest : Dword) (s : State) : Host.Outcome State Fault Refusal :=
  .next (s.decodeNow h true (.otpRead h word count dest)
    (fun _ => firstFail [
      failIf (count = 0#16 || decide (256 < count.toNat) || decide (2048 < word.toNat + count.toNat)) .badArg,
      spanCheck h.src dest (4 * count.toNat)])
    (fun s =>
      let bs := (List.range count.toNat).flatMap fun i => wordBytes (s.otpWord (word.toNat + i))
      ((s.otpAccess (us (2 * count.toNat))).writeOut h.src dest bs).done h .ok))

/-- OTP_PROGRAM: every word is checked before any bit is burnt. -/
def State.otpProgram (s : State) (h : DescHdr) (l : List (Nat × Word)) (fails : Option Nat) : State :=
  match s.otpRefused l with
  | some w => s.done h .denied (fieldAt 0 w)
  | none =>
    let s' := s.burnAll l fails
    match l.find? fun e => fails = some e.1 with
    | some e => s'.done h .faulted (fieldAt 0 e.1)
    | none => s'.done h .ok

def execOtpProgram (h : DescHdr) (word count : BitVec 16) (crc : Word) (src : List Word) (burnFails : Option Nat) (s : State) :
    Host.Outcome State Fault Refusal :=
  .next (
    let vs := (src ++ List.replicate count.toNat 0#32).take count.toNat
    s.decodeNow h false (.otpProgram h word count crc src burnFails)
      (fun _ => firstFail [
        failIf (count = 0#16 || decide (64 < count.toNat) || decide (2048 < word.toNat + count.toNat)) .badArg,
        dataCheck h 1 (4 * count.toNat),
        failIf (crc32c (vs.flatMap wordBytes) ≠ crc) .crc])
      (fun s => s.otpProgram h (otpWords word.toNat vs) burnFails))

/-- OTP_LOCK_WRITE (16 R449): bits are set and never cleared. -/
def State.otpLockSet (s : State) (v : Word) : State := s.modSec fun c => { c with otpLock := c.otpLock ||| v.setWidth 7 }

def execOtpLockWrite (value : Word) (s : State) : Host.Outcome State Fault Refusal :=
  .next (if s.bar0 then s.otpLockSet value else s)

/-! Debug tokens (16 R459). -/

/-- Words as one number, the first least significant. -/
def wordsNat : List Word → Nat
  | [] => 0
  | w :: l => w.toNat + 2 ^ 32 * wordsNat l

/-- SCOPE and SLOT of a token. -/
def tokenScope (t : List Byte) : BitVec 8 := byteAt t 6
def tokenSlot (t : List Byte) : Nat := (byteAt t 7).toNat

/-- MAGIC, FORMAT, the range of SLOT and the reserved bits and bytes of a token. -/
def tokenOk (t : List Byte) : Bool :=
  t.take 4 = [0x43#8, 0x59#8, 0x44#8, 0x54#8] && byteAt t 4 = 1#8 && byteAt t 5 = 0#8 &&
  (tokenScope t &&& 0x7C#8) = 0#8 && decide (tokenSlot t ≤ 7) && zeros t 185 7

/-- Checks 1 to 3 of a token. One that is used for RETURN names it in SCOPE (DEDUCED, log entry 145). -/
def State.tokenEarly (s : State) (forReturn : Bool) (t : List Byte) : Check :=
  firstFail [failIf (!forReturn && s.sec.lc ≠ 3#3) .denied,
    failIf (!tokenOk t || (forReturn && !(tokenScope t).getLsbD 7)) .badArg,
    failIf (natAt t 8 48 ≠ wordsNat ((List.range 12).map fun i => s.otpWord (0x110 + i))) .badArg]

/-- The SHA-384 of the signer's key, bytes 88 to 184, as the words of a slot's HASH spell it. -/
def tokenKey (t : List Byte) : Nat := natAt (sha384 ((t.drop 88).take 97)) 0 48

/-- Checks 4 to 6, with the verdict on the signature; the nonce is consumed by reaching them. -/
def State.tokenLate (s : State) (forReturn : Bool) (t : List Byte) (sigOk : Bool) : Check :=
  let k := tokenSlot t
  firstFail [failIf (s.sec.nonce ≠ some { val := BitVec.ofNat 256 (natAt t 56 32) }) .denied,
    failIf (!s.slotPresent k || s.slotRevoked k || tokenKey t ≠ wordsNat (s.slotHash k) || (forReturn && decide (4 ≤ k))) .sig,
    failIf (!sigOk) .sig]

/-- The nonce is consumed. -/
def State.dropNonce (s : State) : State := s.modSec fun c => { c with nonce := none }

/-- A token is judged in the order of its checks: what fails, and the state with the nonce as they leave it. -/
def State.judgeToken (s : State) (forReturn : Bool) (t : List Byte) (sigOk : Bool) : Check × State :=
  match s.tokenEarly forReturn t with
  | some e => (some e, s)
  | none => (s.tokenLate forReturn t sigOk, s.dropNonce)

/-- OPEN: the scopes of the token open beside those open already, which stay open until CLOSE or a boot. -/
def State.openToken (s : State) (h : DescHdr) (t : List Byte) (sigOk : Bool) : State :=
  match s.judgeToken false t sigOk with
  | (some (st, info), s) => s.done h st info
  | (none, s) => (s.modSec fun c => { c with tokenOpen := true, scope := c.scope ||| (tokenScope t).setWidth 2 }).done h .ok

def execDebugTokenOpen (h : DescHdr) (token : List Byte) (sigOk : Bool) (s : State) :
    Host.Outcome State Fault Refusal :=
  .next (s.decodeNow h false (.debugTokenOpen h token sigOk) (fun _ => dataCheck h 1 288) (fun s => s.openToken h token sigOk))

/-! Life-cycle (16 R444, R445, R452, R453). -/

/-- Bits set in a marker word. -/
def State.markOnes (s : State) (w : Nat) : Nat := ones (s.otpWord w)
/-- Marker pair k is burnt: either word has 5 or more bits set. -/
def State.pairBurnt (s : State) (k : Nat) : Bool :=
  decide (5 ≤ s.markOnes (0x100 + 2 * k)) || decide (5 ≤ s.markOnes (0x101 + 2 * k))
/-- The life-cycle state that the marker pairs give. -/
def State.lcOf (s : State) : Nat :=
  if s.pairBurnt 4 then 5 else if s.pairBurnt 3 then 4 else if s.pairBurnt 2 then 3 else if s.pairBurnt 1 then 2
  else if s.pairBurnt 0 then 1 else 0
/-- The trims match their CRC. -/
def State.trimCrcOk (s : State) : Bool :=
  crc32c ((List.range 0xFF).flatMap fun i => wordBytes (s.otpWord i)) = s.otpWord 0xFF
/-- IDENTITY as the 48 bytes of a hash. -/
def State.identityBytes (s : State) : List Byte := (List.range 12).flatMap fun i => wordBytes (s.otpWord (0x110 + i))
/-- IDENTITY is burnt. -/
def State.identityBurnt (s : State) : Bool := (List.range 12).any fun i => s.otpWord (0x110 + i) ≠ 0#32

/-- Whether a transition is one of the table, and the code of its condition that fails, its token apart. -/
def State.lcStep (s : State) (target : Nat) : Option (Option Nat) :=
  match s.sec.lc.toNat, target with
  | 0, 1 => some (if s.trimCrcOk then none else some 1)
  | 1, 2 => some (if !s.identityBurnt then some 2 else if !s.classAlive false then some 3 else none)
  | 2, 3 => some (if s.classAlive true then none else some 4)
  | 2, 4 | 3, 4 => some none
  | 5, _ => none
  | _, 5 => some none
  | _, _ => none

/-- An accepted LIFECYCLE: both words of the pair are burnt, and the state follows at the next boot; SCRAP blocks
every bank at once. -/
def State.lcBurn (s : State) (h : DescHdr) (target : Nat) : State :=
  let s := s.burnAll [(0x100 + 2 * (target - 1), 0xFFFFFFFF#32), (0x101 + 2 * (target - 1), 0xFFFFFFFF#32)] none
  let s := s.modSec fun c => { c with
    lcPending := true, lcNext := BitVec.ofNat 3 (Nat.max target c.lcNext.toNat), scrapped := c.scrapped || target = 5 }
  (if target = 5 then s.evalGates else s).done h .ok

/-- RETURN needs a token that verifies, signed with a vendor slot: code 5. -/
def State.lcReturn (s : State) (h : DescHdr) (token : List Byte) (sigOk : Bool) : State :=
  match s.judgeToken true token sigOk with
  | (some _, s) => s.done h .denied (fieldAt 0 5)
  | (none, s) => s.lcBurn h 4

def execLifecycle (h : DescHdr) (target confirm : BitVec 8) (token : List Byte) (sigOk : Bool) (s : State) :
    Host.Outcome State Fault Refusal :=
  .next (s.decodeNow h (target = 5#8) (.lifecycle h target confirm token sigOk)
    (fun s => firstFail [
      failIf (confirm ≠ ~~~ target) .badArg,
      if target = 4#8 then dataCheck h 1 288 else none,
      failIf (s.lcStep target.toNat).isNone .denied,
      failIf (target ≠ 5#8 && !s.allRest) .conflict,
      match s.lcStep target.toNat with
      | some (some code) => some (.denied, fieldAt 0 code)
      | _ => none])
    (fun s => if target = 4#8 then s.lcReturn h token sigOk else s.lcBurn h target.toNat))

/-! Attestation (16 R455 to R457). -/

/-- The image bank of kind k that runs. -/
def State.runIdx (s : State) (k : Fin 3) : Fin 6 := ⟨2 * k.val + (if s.img.runBank.getLsbD k.val then 1 else 0), by split <;> omega⟩
/-- The header of the running image of kind k. -/
def State.runHdr (s : State) (k : Fin 3) : Option ImgHeader := s.img.bank[s.runIdx k].hdr

/-- The version bytes of a running image in a report. -/
def verBytes : Option ImgHeader → List Byte
  | some h => [h.major, h.minor, h.patch, 0#8] ++ wordBytes h.build
  | none => List.replicate 8 0#8

/-- TALLY_HEAD: the hash of the latest journalled record, 0 without the ledger and before the first record. -/
def State.tallyHead (s : State) : List Byte :=
  match s.variant.tally, s.tly.closes with
  | true, r :: _ => fit 48 (sha384 r.bytes)
  | _, _ => List.replicate 48 0#8

/-- Bytes 0 to 127 of a report. -/
def State.reportBody (s : State) (nonce : BitVec 256) : List Byte :=
  [0x43#8, 0x59#8, 0x41#8, 0x54#8, 1#8, 0#8, s.sec.lc.setWidth 8,
   (if s.sec.tokenOpen then 1#8 else 0#8) ||| (if s.sec.jtagActive then 2#8 else 0#8)] ++
  wideBytes nonce ++ verBytes (s.runHdr 0) ++ verBytes (s.runHdr 1) ++ verBytes (s.runHdr 2) ++
  s.tallyHead ++ dwordBytes s.alm.time ++ List.replicate 8 0#8

def execReport (h : DescHdr) (addr : Dword) (nonce : BitVec 256) (s : State) : Host.Outcome State Fault Refusal :=
  .next (s.decodeNow h false (.report h addr nonce)
    (fun s => firstFail [spanCheck h.src addr 224, failIf (s.sec.lc ≠ 2#3 && s.sec.lc ≠ 3#3) .denied,
      failIf (!s.sec.certOk) .faulted])
    (fun s => ((s.writeOut h.src addr (s.reportBody nonce ++ openBytes s.freeCtr 96)).bumpBy 96).done h .ok))

/-- KEYGEN and CERT_INSTALL need VENDOR with IDENTITY not burnt. -/
def State.vendorCheck (s : State) : Check := failIf (s.sec.lc ≠ 1#3 || s.identityBurnt) .denied

def execKeygen (h : DescHdr) (addr : Dword) (s : State) : Host.Outcome State Fault Refusal :=
  .next (s.decodeNow h false (.keygen h addr) (fun s => firstFail [spanCheck h.src addr 97, s.vendorCheck])
    (fun s =>
      let key := 4#8 :: openBytes s.freeCtr 96
      let s := ((s.bumpBy 96).writeOut h.src addr key).modSec fun c => { c with sealed := true, pub := key, identity := true }
      s.done h .ok))

/-- CERT_INSTALL: the certificate, whose public key is `key`, is stored and its hash burnt into IDENTITY. -/
def execCertInstall (h : DescHdr) (len : BitVec 16) (cert : List Byte) (key : List Byte) (s : State) :
    Host.Outcome State Fault Refusal :=
  .next (s.decodeNow h false (.certInstall h len cert key)
    (fun s => firstFail [failIf (len = 0#16 || decide (4096 < len.toNat)) .badArg, dataCheck h 1 len.toNat, s.vendorCheck,
      failIf (key ≠ s.sec.pub || !s.sec.sealed) .badArg])
    (fun s =>
      let c := padTo len.toNat cert
      let d := sha384 c
      let s := (s.modSec fun t => { t with cert := c }).burnAll (otpWords 0x110 (wordsOf d)) none
      s.done h .ok))

def execCertRead (h : DescHdr) (addr : Dword) (s : State) : Host.Outcome State Fault Refusal :=
  .next (s.decodeNow h true (.certRead h addr)
    (fun s => firstFail [spanCheck h.src addr s.sec.cert.length, failIf (s.sec.lc = 0#3) .denied])
    (fun s => (s.writeOut h.src addr s.sec.cert).done h .ok (fieldAt 0 s.sec.cert.length)))

/-! The nonce of debug tokens (16 R459). -/

/-- CHALLENGE: a fresh nonce replaces any earlier one. -/
def execChallenge (h : DescHdr) (addr : Dword) (s : State) : Host.Outcome State Fault Refusal :=
  .next (s.decodeNow h false (.challenge h addr) (fun _ => spanCheck h.src addr 32)
    (fun s =>
      let n := Config.freeNonce s.freeCtr
      ((s.bump.writeOut h.src addr (wideBytes n)).modSec fun c => { c with nonce := some { val := n } }).done h .ok))

/-! What images ask of the OTP (17 R469, R481). -/

/-- A present signature entry: its class, slot, and the hash of its key. -/
abbrev SigEntry := Nat × Nat × BitVec 384

/-- The present entries of a header. -/
def sigEntries (h : ImgHeader) : List SigEntry :=
  (if h.sig0.1 = 0#8 then [] else [(h.sig0.1.toNat, h.sig0.2.toNat, h.keyHash0)]) ++
  (if h.sig1.1 = 0#8 then [] else [(h.sig1.1.toNat, h.sig1.2.toNat, h.keyHash1)])

/-- An entry is valid, its signature apart. -/
def State.entryOk (s : State) (e : SigEntry) : Bool :=
  let (cls, k, hash) := e
  let oem := cls = 2
  (if oem then decide (4 ≤ k) && decide (k ≤ 7) else decide (k ≤ 3)) && s.slotPresent k && !s.slotRevoked k &&
  decide (s.minGen oem ≤ s.slotGen k) && hash.toNat = wordsNat (s.slotHash k)

/-- The class that the life-cycle state requires: 0 none, 1 vendor, 2 OEM. -/
def State.needClass (s : State) : Nat :=
  match s.sec.lc.toNat with
  | 0 => 0
  | 2 => if (List.range 4).any fun i => s.slotPresent (i + 4) then 2 else 1
  | 3 => 2
  | _ => 1

/-- An image passes its signatures. -/
def State.sigPass (s : State) (h : ImgHeader) (sigOk : Bool) : Bool :=
  let l := sigEntries h
  (l.isEmpty || sigOk) && l.all s.entryOk && (s.needClass = 0 || l.any fun e => e.1 = s.needClass)

/-- The slots of the valid entries of an image. -/
def State.sigSlots (s : State) (h : ImgHeader) : BitVec 8 :=
  ((sigEntries h).filter s.entryOk).foldl (fun m e => setBitW m e.2.1 true) 0#8

/-- A thermometer code with at least n bits set. -/
def thermo (n : Nat) : Word := BitVec.ofNat 32 (2 ^ Nat.min 32 n - 1)

/-- The key operations of a header that are not yet in OTP: words and what to burn, in order (17 R481). -/
def State.keyOps (s : State) (h : ImgHeader) : List (Nat × Word) :=
  let gen := (List.range 8).filterMap fun k =>
    let g := (h.slotGen.toNat / 2 ^ (8 * k)) % 256
    if s.slotPresent k && decide (s.slotGen k < g) then some (slotBase k + 12, thermo g) else none
  let rev := (List.range 8).filterMap fun k =>
    if h.revoke.getLsbD k && ones (s.otpWord (slotBase k + 13)) < 16 then some (slotBase k + 13, 0xFFFFFFFF#32) else none
  let minGen := [(false, h.minGenV.toNat), (true, h.minGenO.toNat)].filterMap fun e =>
    if s.minGen e.1 < e.2 then some (if e.1 then 0x1C1 else 0x1C0, thermo e.2) else none
  gen ++ rev ++ minGen

/-- Key operations are burnt in order, each under the rules of OTP_PROGRAM, until one fails: its word is the answer
(16 R447, 17 R481). -/
def State.burnOps (s : State) : List (Nat × Word) → Option Nat → State × Option Nat
  | [], _ => (s, none)
  | e :: l, fails =>
    if (s.otpRefused [e]).isSome then (s, some e.1)
    else if fails = some e.1 then (s.burnAll [e] fails, some e.1)
    else (s.burn e.1 e.2).burnOps l fails

/-- The key operations of the images of a set, each formed after the ones before. -/
def State.setKeyOps (s : State) (l : List ImgHeader) : List (Nat × Word) :=
  (l.foldl (fun (r : State × List (Nat × Word)) h =>
    let ops := r.1.keyOps h
    (r.1.burnAll ops none, r.2 ++ ops)) (s, [])).2

end Sys2Proof.Machine
end

