-- ==== Sys2Proof/Machine/Image.lean ====
section
/-! DEFINITION. Firmware images, trial boot and settings (17): the image descriptors, the selection of a
set, the settings copies, and the failures of a trial. -/

namespace Sys2Proof.Machine

/-! Headers (17 R466, R467). -/

/-- The largest payload of a kind. -/
def imgLimit : Nat → Nat
  | 0 => 2015232 | 1 => 966656 | _ => 196608

/-- The number of blocks of a payload. -/
def ImgBlocks (h : ImgHeader) : Nat := (h.payloadLen.toNat + 4095) / 4096

/-- An epoch field of an image that has that interface, and of one that has not. -/
def epochOk (has : Bool) (e : BitVec 8) : Bool := if has then e ≠ 0#8 else e = 0#8

/-- Fields of a header are within R466 to R468, for an image of kind k. -/
def hdrOk (h : ImgHeader) (k : Nat) : Bool :=
  h.magicOk && h.hfmt = 1#16 && h.kind.toNat = k && decide (k ≤ 2) && h.reservedZero &&
  [h.offerE, h.accEMin, h.accEMax].all (epochOk (k ≠ 2)) && [h.offerN, h.accNMin, h.accNMax].all (epochOk (k ≠ 1)) &&
  (if k = 0 then h.setFmt ≠ 0#16 else h.setFmt = 0#16) &&
  decide (h.minGenV.toNat ≤ 32) && decide (h.minGenO.toNat ≤ 32) &&
  ((List.range 8).all fun i => decide ((h.slotGen.toNat / 2 ^ (8 * i)) % 256 ≤ 32)) &&
  decide (1 ≤ h.payloadLen.toNat) && decide (h.payloadLen.toNat ≤ imgLimit k) &&
  decide (h.blockCrcs.length = ImgBlocks h) && decide (h.sig0.1.toNat ≤ 2) && decide (h.sig1.1.toNat ≤ 2)

/-- A signature entry's reserved bytes, all of it where CLASS is 0 (R468). -/
def sigZero (b : List Byte) (i : Nat) : Bool :=
  if byteAt b i = 0#8 then zeros b i 200 else zeros b (i + 2) 2 && zeros b (i + 101) 3

/-- What R467 and R468 have read 0 in a header of N blocks. -/
def hdrZero (b : List Byte) (n : Nat) : Bool :=
  let transit := (byteAt b 512).getLsbD 0
  zeros b 11 1 && zeros b 26 2 && zeros b 31 1 && zeros b 44 20 && zeros b 513 7 && zeros b 625 15 &&
  (byteAt b 7 &&& 0xFE#8) = 0#8 && (byteAt b 512 &&& 0xFE#8) = 0#8 && sigZero b 112 && sigZero b 312 &&
  (transit || (zeros b 528 97 && (List.range n).all fun i => zeros b (644 + 20 * i) 16))

/-- The SHA-384 of the public key of a signature entry at offset i, as the words of a slot's HASH spell it. -/
def sigKey (b : List Byte) (i : Nat) : BitVec 384 := BitVec.ofNat 384 (natAt (sha384 ((b.drop (i + 4)).take 97)) 0 48)

/-- The header that bytes spell by R467 and R468, with the SHA-384 of the keys of its two signature entries. -/
def imgHeader (b : List Byte) : ImgHeader :=
  let len := wordAt b 40
  let n := Nat.min 492 ((len.toNat + 4095) / 4096)
  { magicOk := b.take 4 = [0x43#8, 0x59#8, 0x49#8, 0x4D#8], hfmt := BitVec.ofNat 16 (natAt b 4 2), kind := byteAt b 6
    atRest := (byteAt b 7).getLsbD 0, major := byteAt b 8, minor := byteAt b 9, patch := byteAt b 10, build := wordAt b 12
    hwMin := byteAt b 16, hwMax := byteAt b 17, offerE := byteAt b 18, accEMin := byteAt b 19, accEMax := byteAt b 20
    offerN := byteAt b 21, accNMin := byteAt b 22, accNMax := byteAt b 23, setFmt := BitVec.ofNat 16 (natAt b 24 2)
    minGenV := byteAt b 28, minGenO := byteAt b 29, revoke := byteAt b 30, slotGen := dwordAt b 32, payloadLen := len
    payloadHash := BitVec.ofNat 384 (natAt b 64 48), sig0 := (byteAt b 112, byteAt b 113), sig1 := (byteAt b 312, byteAt b 313)
    keyHash0 := sigKey b 112, keyHash1 := sigKey b 312, transit := (byteAt b 512).getLsbD 0, nonce := dwordAt b 520
    ephKey := if (byteAt b 512).getLsbD 0 then (b.drop 528).take 97 else [], reservedZero := hdrZero b n
    blockCrcs := (List.range n).map fun i => wordAt b (640 + 20 * i) }

/-- The die revision, 1, is one that the image accepts. -/
def hwOk (h : ImgHeader) : Bool := decide (h.hwMin.toNat ≤ 1) && decide (1 ≤ h.hwMax.toNat)

/-! Sets (17 R470 to R472). -/

/-- The place of a bank: kind k, B. -/
def bankIdx (k : Fin 3) (b : Bool) : Fin 6 := ⟨2 * k.val + (if b then 1 else 0), by split <;> omega⟩

/-- The version of an image as a number that orders like it. -/
def verKey : Option ImgHeader → Nat
  | some h => ((h.major.toNat * 256 + h.minor.toNat) * 256 + h.patch.toNat) * 2 ^ 32 + h.build.toNat
  | none => 0

/-- The payload of a bank, whose blocks the flash gives back in order. -/
def ImgBank.payload (b : ImgBank) : List Byte :=
  let n := match b.hdr with | some h => ImgBlocks h | none => 0
  (List.range n).flatMap fun i => match b.blocks.find? fun e => e.1 = i with | some e => e.2 | none => []

/-- The SHA-384 of the stored payload equals PAYLOAD_HASH. -/
def ImgBank.hashed (b : ImgBank) : Bool :=
  match b.hdr with
  | some h => h.payloadHash = BitVec.ofNat 384 (natAt (sha384 b.payload) 0 48)
  | none => false

/-- A bank passes rules 2, 5 and 6 of R470, given whether its signatures verify and whether the flash gives its payload back as written. -/
def State.bankPass (s : State) (i : Fin 6) (sigOk readOk : Bool) : Bool :=
  let b := s.img.bank[i]
  match b.hdr with
  | some h => (!b.encrypted || s.storageKey) && hdrOk h (i.val / 2) && hwOk h && s.sigPass h sigOk && readOk && b.hashed
  | none => false

/-- The header of a bank, a blank one where it has none. -/
def State.hdrOf (s : State) (i : Fin 6) : ImgHeader := (s.img.bank[i].hdr).getD { kind := 0xFF#8 }

/-- The epochs of a set of SVF, ECH and ENC accept one another: rules 3 and 4. -/
def epochsMeet (v c n : ImgHeader) : Bool :=
  let within (lo x hi : BitVec 8) : Bool := decide (lo ≤ x) && decide (x ≤ hi)
  within v.accEMin c.offerE v.accEMax && within c.accEMin v.offerE c.accEMax &&
  within v.accNMin n.offerN v.accNMax && within n.accNMin v.offerN n.accNMax

/-- A set: for each kind, whether its bank is B. -/
abbrev ImgSet := Bool × Bool × Bool

/-- The banks of a set in the order SVF, ECH, ENC. -/
def setBanks (t : ImgSet) : List (Fin 6) := [bankIdx 0 t.1, bankIdx 1 t.2.1, bankIdx 2 t.2.2]

/-- A set qualifies by rules 2 to 6. -/
def State.setPass (s : State) (ok : Fin 6 → Bool) (t : ImgSet) : Bool :=
  (setBanks t).all ok && epochsMeet (s.hdrOf (bankIdx 0 t.1)) (s.hdrOf (bankIdx 1 t.2.1)) (s.hdrOf (bankIdx 2 t.2.2))

/-- All sets, those with more banks from A first. -/
def allSets : List ImgSet :=
  [(false, false, false), (false, false, true), (false, true, false), (true, false, false),
   (false, true, true), (true, false, true), (true, true, false), (true, true, true)]

/-- Set t comes before set u by the versions of SVF, ECH and ENC. -/
def State.setBefore (s : State) (t u : ImgSet) : Bool :=
  let v (x : ImgSet) : List Nat := (setBanks x).map fun i => verKey s.img.bank[i].hdr
  match v t, v u with
  | [a, b, c], [d, e, f] => decide (d < a) || (a = d && (decide (e < b) || (b = e && decide (f < c))))
  | _, _ => false

/-- Inserts a set behind those that do not come after it. -/
def State.insertSet (s : State) (t : ImgSet) : List ImgSet → List ImgSet
  | [] => [t]
  | u :: l => if s.setBefore t u then t :: u :: l else u :: s.insertSet t l

/-- The sets of CONFIRMED banks in the order in which the boot ROM tries them. -/
def State.bootOrder (s : State) : List ImgSet :=
  (allSets.filter fun t => (setBanks t).all fun i => s.img.bank[i].st = BankSt.confirmed).foldl (fun l t => s.insertSet t l) []

/-- The newest CONFIRMED bank of a kind. -/
def State.newest (s : State) (k : Fin 3) : Option Bool :=
  let a := s.img.bank[bankIdx k false]
  let b := s.img.bank[bankIdx k true]
  if a.st = BankSt.confirmed && b.st = BankSt.confirmed then some (decide (verKey a.hdr < verKey b.hdr))
  else if a.st = BankSt.confirmed then some false
  else if b.st = BankSt.confirmed then some true
  else none

/-- A set of the banks of one state where there is one, and of the newest CONFIRMED banks of the other
kinds. -/
def State.setWith (s : State) (st : BankSt) (named : Fin 3 → Bool) : Option ImgSet :=
  let pick (k : Fin 3) : Option Bool :=
    if named k then
      if s.img.bank[bankIdx k false].st = st then some false
      else if s.img.bank[bankIdx k true].st = st then some true else none
    else s.newest k
  match pick 0, pick 1, pick 2 with
  | some a, some b, some c => some (a, b, c)
  | _, _, _ => none

/-- Changes a bank, whose record, header or payload is programmed or erased in the flash. -/
def State.modImgBank (s : State) (i : Fin 6) (f : ImgBank → ImgBank) : State :=
  s.flashWork.modImg fun m => { m with bank := m.bank.set i (f m.bank[i]) }

/-- Changes every bank in TRIAL. -/
def State.modTrial (s : State) (f : ImgBank → ImgBank) : State :=
  s.flashWork.modImg fun m => { m with bank := m.bank.map fun b => if b.st = .trial then f b else b }

/-- A trial fails: REJECTED is programmed in its banks, and the cause and the count show (17 R480). -/
def State.failTrial (s : State) (cause : BitVec 3) : State :=
  (s.modTrial fun b => { b with st := .rejected }).modImg fun m => { m with
    revertCause := cause, revertCnt := satInc m.revertCnt, awaitConfirm := false, trialTimer := none }

/-! Update (17 R476 to R479). -/

/-- KIND names one of the three. -/
def imgKind? (v : BitVec 8) : Option (Fin 3) := if h : v.toNat < 3 then some ⟨v.toNat, h⟩ else none

/-- The session of a kind. -/
def State.session (s : State) (k : Fin 3) : Option Session := s.img.session[k]
def State.setSession (s : State) (k : Fin 3) (x : Option Session) : State :=
  s.modImg fun m => { m with session := m.session.set k x }

/-- The bank that a session writes: outside the running set; in SERVICE mode neither the newest CONFIRMED nor,
failing that, bank A. -/
def State.targetBank (s : State) (k : Fin 3) : Bool :=
  if s.sup = SupMode.service then !((s.newest k).getD false) else !(s.img.runBank.getLsbD k.val)

/-- The checks of IMAGE_BEGIN, in their order. -/
def State.beginCheck (s : State) (h : DescHdr) (kind : BitVec 8) (hdrLen : Word) (crcOk : Bool) (hdr : ImgHeader) (sigOk : Bool) : Check :=
  let lc := s.sec.lc
  firstFail [
    failIf ((imgKind? kind).isNone || decide (16384 < hdrLen.toNat)) .badArg,
    dataCheck h 1 hdrLen.toNat,
    failIf (s.img.trial || match imgKind? kind with | some k => (s.session k).isSome | none => false) .conflict,
    failIf (!crcOk) .crc,
    failIf (!hdrOk hdr kind.toNat || hdrLen.toNat ≠ 640 + 20 * ImgBlocks hdr) .badArg,
    failIf (!hwOk hdr) .badArg,
    failIf ((lc = 3#3 && !hdr.transit) || ((lc = 4#3 || lc = 5#3) && hdr.transit) || (hdr.transit && !s.sec.identity)) .denied,
    failIf (!s.sigPass hdr sigOk) .sig]

/-- A session opens: the record of its bank is erased and the header written. -/
def State.openSession (s : State) (h : DescHdr) (k : Fin 3) (hdr : ImgHeader) : State :=
  let b := s.targetBank k
  let s := (s.setSession k (some { toB := b })).modImgBank (bankIdx k b) fun _ =>
    { st := .writing, encrypted := hdr.atRest && s.storageKey, hdr := some hdr, slots := s.sigSlots hdr }
  s.done h .ok (bitAt 0 b ||| fieldAt 16 (ImgBlocks hdr))

def execImageBegin (h : DescHdr) (kind : BitVec 8) (hdrLen hdrCrc : Word) (data : List Byte) (sigOk : Bool)
    (s : State) : Host.Outcome State Fault Refusal :=
  let b := padTo hdrLen.toNat data
  let hdr := imgHeader b
  .next (s.decodeNow h true (.imageBegin h kind hdrLen hdrCrc data sigOk) (fun s => s.beginCheck h kind hdrLen (crc32c b = hdrCrc) hdr sigOk)
    (fun s => match imgKind? kind with
      | some k => s.openSession h k hdr
      | none => s.done h .badArg))

/-- The header of an open session. -/
def State.sessionHdr (s : State) (k : Fin 3) (x : Session) : ImgHeader := s.hdrOf (bankIdx k x.toB)

/-- A session ends without a record: its bank is EMPTY. -/
def State.dropSession (s : State) (k : Fin 3) (x : Session) : State :=
  (s.setSession k none).modImgBank (bankIdx k x.toB) fun _ => {}

/-- The length that block i must have. -/
def blockLen (h : ImgHeader) (i : Nat) : Nat := Nat.min 4096 (h.payloadLen.toNat - 4096 * i)

/-- Blocks of a session not yet written, in order. -/
def missing (h : ImgHeader) (x : Session) : List Nat := (List.range (ImgBlocks h)).filter fun i => !x.written.contains i

/-- The plaintext of block i of an image as it travels: AES-256-GCM under the image's transit key, or as it is (17 R474). -/
def blockPlain (h : ImgHeader) (i : Nat) (data : List Byte) : List Byte :=
  if h.transit then fit data.length (Config.gcmOpen h.nonce h.ephKey i data) else data

/-- Block i of a bank is erased, and programmed where the read-back agrees. -/
def ImgBank.setBlock (b : ImgBank) (i : Nat) (data : Option (List Byte)) : ImgBank :=
  { b with blocks := (b.blocks.filter fun e => e.1 ≠ i) ++ (data.map fun d => (i, d)).toList }

/-- A block that passes its checks is stored. A block that failed its read-back may be sent again. -/
def State.storeBlock (s : State) (h : DescHdr) (k : Fin 3) (x : Session) (i : Nat) (data : List Byte) (gcmOk readBackOk : Bool) : State :=
  let hdr := s.sessionHdr k x
  if hdr.transit && !gcmOk then (s.dropSession k x).done h .sig
  else
    let rest := x.written.filter fun j => j ≠ i
    let s := s.modImgBank (bankIdx k x.toB) fun b => b.setBlock i (if readBackOk then some (blockPlain hdr i data) else none)
    if !readBackOk then (s.setSession k (some { x with written := rest })).done h .faulted
    else
      let x := { x with written := rest ++ [i] }
      (s.setSession k (some x)).done h .ok (fieldAt 0 (missing hdr x).length)

def execImageBlock (h : DescHdr) (kind : BitVec 8) (index : BitVec 16) (len : Word) (data : List Byte) (gcmOk readBackOk : Bool)
    (s : State) : Host.Outcome State Fault Refusal :=
  .next (s.decodeNow h true (.imageBlock h kind index len data gcmOk readBackOk) (fun _ => failIf (imgKind? kind).isNone .badArg)
    (fun s =>
      match imgKind? kind with
      | none => s
      | some k => match s.session k with
        | none => s.done h .conflict
        | some x =>
          let hdr := s.sessionHdr k x
          let i := index.toNat
          if ImgBlocks hdr ≤ i || len.toNat ≠ blockLen hdr i then s.done h .badArg
          else if (dataCheck h 1 len.toNat).isSome then s.done h .badArg
          else if crc32c (padTo len.toNat data) ≠ hdr.blockCrcs.getD i 0#32 then s.done h .crc
          else s.storeBlock h k x i (padTo len.toNat data) gcmOk readBackOk))

/-- IMAGE_END: with every block written, the flash giving the payload back as written and the hash right, the bank's record is written. -/
def State.endSession (s : State) (h : DescHdr) (k : Fin 3) (x : Session) (readOk : Bool) : State :=
  match missing (s.sessionHdr k x) x with
  | i :: _ => s.done h .badArg (fieldAt 0 i)
  | [] =>
    if !readOk || !s.img.bank[bankIdx k x.toB].hashed then (s.dropSession k x).done h .sig
    else ((s.setSession k none).modImgBank (bankIdx k x.toB) fun b => { b with st := .written, booted := false }).done h .ok

/-- The descriptor acts on the open session of its kind. -/
def State.withSession (s : State) (h : DescHdr) (kind : BitVec 8) (f : Fin 3 → Session → State → State) : State :=
  match imgKind? kind with
  | none => s.done h .badArg
  | some k => match s.session k with
    | none => s.done h .conflict
    | some x => f k x s

def execImageEnd (h : DescHdr) (kind : BitVec 8) (readOk : Bool) (s : State) : Host.Outcome State Fault Refusal :=
  .next (s.decodeNow h true (.imageEnd h kind readOk) (fun _ => none) (fun s => s.withSession h kind fun k x s => s.endSession h k x readOk))

/-- IMAGE_END with ABANDON. -/
def execImageAbandon (h : DescHdr) (kind : BitVec 8) (s : State) : Host.Outcome State Fault Refusal :=
  .next (s.decodeNow h true (.imageAbandon h kind) (fun _ => none) (fun s => s.withSession h kind fun k x s => (s.dropSession k x).done h .ok))

/-- KINDS names kind k. -/
def namedKind (kinds : BitVec 8) (k : Fin 3) : Bool := kinds.getLsbD k.val

/-- A kind has a WRITTEN bank. -/
def State.hasWritten (s : State) (k : Fin 3) : Bool :=
  s.img.bank[bankIdx k false].st = BankSt.written || s.img.bank[bankIdx k true].st = BankSt.written

/-- The headers of a set. -/
def State.setHdrs (s : State) (t : ImgSet) : List ImgHeader := (setBanks t).map s.hdrOf

/-- The key operations of a set are each allowed by R448, and after them the set still passes R469. -/
def State.keyOpsOk (s : State) (t : ImgSet) (sigOk : Bool) : Bool :=
  let hs := s.setHdrs t
  let ops := s.setKeyOps hs
  let u := s.burnAll ops none
  ops.all (fun e => s.otpOpen e.1) && (s.lastSlot ops).isNone && hs.all fun h => u.sigPass h sigOk

/-- The checks of IMAGE_ACTIVATE, in their order. -/
def State.activateCheck (s : State) (kinds : BitVec 8) (sigOk readOk : Bool) : Check :=
  let ks := (List.finRange 3).filter (namedKind kinds)
  let t := s.setWith .written (namedKind kinds)
  firstFail [
    failIf (kinds = 0#8 || decide (7 < kinds.toNat) || !ks.all s.hasWritten) .badArg,
    failIf ((List.finRange 3).any (fun k => (s.session k).isSome) || s.img.trial) .conflict,
    failIf (!s.allRest || !s.fits.isEmpty || s.seam.slot.any fun x => x.st = SeamSt.armed || x.st = SeamSt.staged) .conflict,
    match t with
    | some t => failIf (!s.setPass (fun i => s.bankPass i sigOk readOk) t) .badArg
    | none => some (.badArg, 0#32),
    match t with
    | some t => failIf (!s.keyOpsOk t sigOk) .denied
    | none => none]

/-- The bank of kind k in a set. -/
def setBank (t : ImgSet) (k : Fin 3) : Fin 6 := bankIdx k (if k = 0 then t.1 else if k = 1 then t.2.1 else t.2.2)

/-- TRIAL is programmed in each named bank, and the activation waits for its restart. -/
def State.activateSet (s : State) (h : DescHdr) (kinds : BitVec 8) (t : ImgSet) : State :=
  let s := ((List.finRange 3).filter (namedKind kinds)).foldl
    (fun s k => s.modImgBank (setBank t k) fun x => { x with st := .trial, booted := false }) s
  s.modImg fun m => { m with activated := true, actBy := some (h.src, h.tag), actAt := s.cref }

def execImageActivate (h : DescHdr) (kinds : BitVec 8) (sigOk readOk : Bool) (s : State) : Host.Outcome State Fault Refusal :=
  .next (s.decodeNow h true (.imageActivate h kinds sigOk readOk) (fun s => s.activateCheck kinds sigOk readOk)
    (fun s => match s.setWith .written (namedKind kinds) with
      | some t => (s.activateSet h kinds t).done h .ok
      | none => s.done h .badArg))

/-! Restarts and the failures of a trial (17 R479, R480). -/

/-- The completion of the activation has been written or sent, or is gone with its ring. -/
def State.activateSent (s : State) : Bool :=
  match s.img.actBy with
  | none => true
  | some (src, tag) => !(s.hst.cplWait.any fun e => e.src = src && e.tag = tag) &&
    !((List.finRange 4).any fun c => s.can[c].ownFrames.any fun b => b.owner = TxOwner.cpl src tag)

/-- ACTIVATE_RESTART: 10 ms after its completion the activation restarts the module (21 R537). -/
def execActivateRestart (s : State) : Host.Outcome State Fault Refusal :=
  .next (if s.img.activated && s.activateSent && decide (s.img.actAt + ms 10 ≤ s.cref) then s.restart 3 else s)

/-- A trial timer has run out: it runs in CKW, which may be 1 % fast. -/
def State.trialOut (s : State) : Bool :=
  match s.img.trialTimer with
  | some (t, at_) => s.ckt (at_ + ms (990 * t))
  | none => false

/-- TRIAL_READY_TIMEOUT: the supervisor has not declared ready. -/
def execTrialReadyTimeout (s : State) : Host.Outcome State Fault Refusal :=
  .next (if s.img.trial && !s.img.awaitConfirm && s.trialOut then (s.failTrial 1#3).restart 4 else s)

/-- TRIAL_CONFIRM_TIMEOUT: the trial has failed, and every axis in RUN stops before the restart. -/
def execTrialConfirmTimeout (s : State) : Host.Outcome State Fault Refusal :=
  .next (if s.img.trial && s.img.awaitConfirm && s.trialOut then
      let s := (s.failTrial 2#3).modImg fun m => { m with revertWait := true, revertAt := s.cref }
      s.forAxes (s.present.filter fun n => (s.axis n).ch.st = .run) fun n s => s.beginStop n
    else s)

/-- TRIAL_REVERT_RESTART: every axis is at rest, or 2 s have passed. -/
def execTrialRevertRestart (s : State) : Host.Outcome State Fault Refusal :=
  .next (if s.img.revertWait && (s.allRest || s.ckt (s.img.revertAt + ms 2000)) then s.restart 4 else s)

/-- A copy of the settings is changed. -/
def State.modCopy (s : State) (i : Fin 2) (f : SetCopy → SetCopy) : State :=
  s.flashWork.modImg fun m => { m with copy := m.copy.set i (f m.copy[i]) }

/-- The running set has been confirmed: its banks, and the TRIAL words of the settings copies (17 R481). -/
def State.confirmSet (s : State) : State :=
  (s.modTrial fun b => { b with st := .confirmed }).modImg fun m => { m with
    trial := false, awaitConfirm := false, trialTimer := none
    copy := m.copy.map fun (c : SetCopy) => { c with block := c.block.map fun (x : SettingsBlock) => { x with trial := 0#32 } } }

/-- The running set. -/
def State.runSet (s : State) : ImgSet := (s.img.runBank.getLsbD 0, s.img.runBank.getLsbD 1, s.img.runBank.getLsbD 2)

/-- The key operations of the running set are burnt in order; KEYOPS_PENDING shows while one remains. -/
def State.applyKeyOps (s : State) (fails : Option Nat) : State × Option Nat :=
  let r := s.burnOps (s.setKeyOps (s.setHdrs s.runSet)) fails
  (r.1.modImg fun m => { m with keyops := r.2.isSome }, r.2)

def execImageConfirm (h : DescHdr) (burnFails : Option (BitVec 11)) (s : State) : Host.Outcome State Fault Refusal :=
  .next (s.decodeNow h true (.imageConfirm h burnFails) (fun s => failIf (!s.img.trial || !s.img.awaitConfirm) .conflict)
    (fun s =>
      let r := s.confirmSet.applyKeyOps (burnFails.map (·.toNat))
      match r.2 with
      | some w => r.1.done h .faulted (fieldAt 0 w)
      | none => r.1.done h .ok))

/-! Settings (17 R482 to R486). -/

/-- A block takes the bytes that a settings write sends: its header and its payload. -/
def blockBytes (b : SettingsBlock) : List Byte :=
  let head := [0x43#8, 0x59#8, 0x53#8, 0x54#8] ++ (wordBytes (b.format.setWidth 32)).take 2 ++ (wordBytes (b.sliceFmt.setWidth 32)).take 2 ++
    wordBytes b.seq ++ wordBytes (BitVec.ofNat 32 b.payload.length) ++ wordBytes b.sliceLen
  let rest := List.replicate 36 0#8
  head ++ wordBytes b.trial ++ rest ++ wordBytes (crc32c (head ++ rest ++ b.payload)) ++ b.payload

/-- The block of a settings copy as it can be read: an encrypted copy only with the storage key, a plain one only while there is none, since
the region over it is decrypted as soon as there is one (17 R472, R475). -/
def State.copyBlock (s : State) (i : Fin 2) : Option SettingsBlock :=
  if s.img.copy[i].plain = s.storageKey then none else s.img.copy[i].block

/-- A copy is valid: its MAGIC and CRC are good, and a trial copy counts only while the trial set runs (17 R483). -/
def State.copyOk (s : State) (i : Fin 2) : Bool :=
  match s.copyBlock i with
  | some b => b.magicCyst && b.crcOk && (b.trial = 0#32 || s.img.trial)
  | none => false

/-- Sequence number a is newer than b. -/
def seqNewer (a b : Word) : Bool := decide (0 < (a - b).toNat) && decide ((a - b).toNat < 2 ^ 31)

/-- The sequence number of a copy. -/
def State.copySeq (s : State) (i : Fin 2) : Word := match s.copyBlock i with | some b => b.seq | none => 0#32

/-- The newest valid copy. -/
def State.newestCopy (s : State) : Option (Fin 2) :=
  if s.copyOk 0 && s.copyOk 1 then some (if seqNewer (s.copySeq 1) (s.copySeq 0) then 1 else 0)
  else if s.copyOk 0 then some 0 else if s.copyOk 1 then some 1 else none

/-- The copy beside one. -/
def otherCopy (i : Fin 2) : Fin 2 := if i = 0 then 1 else 0

/-- The copy that a settings write takes: not the preserved one, else not the newest. -/
def State.copyDest (s : State) : Fin 2 :=
  match s.img.preserved with
  | some i => otherCopy i
  | none => match s.newestCopy with
    | some i => otherCopy i
    | none => 0

/-- SEQ one above the newest copy; the first block's SEQ is open. -/
def State.copyNext (s : State) : Word :=
  match s.newestCopy with
  | some i => s.copySeq i + 1#32
  | none => Config.freeWord s.freeCtr

/-- A block is written to a copy with its SEQ and TRIAL word (17 R482, R486). -/
def State.writeCopy (s : State) (i : Fin 2) (b : SettingsBlock) (seq : Word) : State :=
  s.modCopy i fun _ => { plain := !s.storageKey, block := some { b with
    magicCyst := true, magicCy08 := false, crcOk := true, seq := seq, trial := if s.img.trial then 0xFFFFFFFF#32 else 0#32 } }

/-- The block that bytes spell by R482. -/
def settingsOf (b : List Byte) : SettingsBlock :=
  { magicCyst := b.take 4 = [0x43#8, 0x59#8, 0x53#8, 0x54#8], magicCy08 := b.take 4 = [0x43#8, 0x59#8, 0x30#8, 0x38#8]
    crcOk := crc32c (b.take 20 ++ (b.drop 24).take 36 ++ b.drop 64) = wordAt b 60
    format := BitVec.ofNat 16 (natAt b 4 2), sliceFmt := BitVec.ofNat 16 (natAt b 6 2), seq := wordAt b 8
    trial := wordAt b 20, sliceLen := wordAt b 16, payload := b.drop 64 }

/-- SETTINGS_WRITE WRITE. A block whose own LEN is not that of the bytes sent, or above 262,080, fails as a block
(DEDUCED, log entry 146). -/
def execSettingsWrite (h : DescHdr) (len : Word) (data : List Byte) (s : State) : Host.Outcome State Fault Refusal :=
  let b := padTo len.toNat data
  let blk := settingsOf b
  .next (s.decodeNow h false (.settingsWrite h len data)
    (fun s => firstFail [
      failIf (decide (262144 < len.toNat)) .badArg, dataCheck h 1 len.toNat,
      failIf ((wordAt b 12).toNat + 64 ≠ len.toNat || blk.format ≠ s.img.fmtFirmware || !blk.magicCyst) .badArg,
      failIf (!blk.crcOk) .crc])
    (fun s =>
      let seq := s.copyNext
      (s.bump.writeCopy s.copyDest blk seq).done h .ok seq))

/-- RELEASE: preservation ends. -/
def State.endPreserve (s : State) : State :=
  s.modImg fun m => { m with preserved := none, setFlags := m.setFlags &&& 0xBF#8 }

def execSettingsRelease (h : DescHdr) (s : State) : Host.Outcome State Fault Refusal :=
  .next (s.decodeNow h false (.settingsRelease h) (fun s => failIf s.img.preserved.isNone .conflict) (fun s => s.endPreserve.done h .ok))

/-- The block that SETTINGS_READ gives. -/
def State.settingsBlock (s : State) (which : BitVec 8) : Option (List Byte) :=
  if which = 0#8 then some s.img.inUse
  else match s.img.preserved with
    | some i => (s.copyBlock i).map blockBytes
    | none => none

def execSettingsRead (h : DescHdr) (which : BitVec 8) (addr : Dword) (maxLen : Word) (s : State) : Host.Outcome State Fault Refusal :=
  .next (s.decodeNow h false (.settingsRead h which addr maxLen)
    (fun s => firstFail [
      failIf (decide (1 < which.toNat)) .badArg,
      match s.settingsBlock which with
      | none => some (.conflict, 0#32)
      | some b => firstFail [failIf (decide (maxLen.toNat < b.length)) .badArg (fieldAt 0 b.length), spanCheck h.src addr b.length]])
    (fun s => match s.settingsBlock which with
      | some b => (s.writeOut h.src addr b).done h .ok (fieldAt 0 b.length)
      | none => s.done h .conflict))

end Sys2Proof.Machine
end

