-- ==== Sys2Proof/Machine/Domains.lean ====
section
/-! DEFINITION. The switched domains and their power-up (14 R406, R411, R412), requests for a power state and
what defers them (14 R405, R408; 16 R460), and the module fan (14 R416 to R418). -/

namespace Sys2Proof.Machine

/-! The fan check (14 R417, R418). -/

/-- RPM for a tach period of `cp` cycles: 60 s over twice the period. -/
def fanSpeed (cp : Nat) : BitVec 16 := BitVec.ofNat 16 (Nat.min 0xFFFF (if cp = 0 then 0xFFFF else 12000000000 / cp))

/-- FAN_TACH_EDGE: an edge ends the check and marks the fan running. A gap of more than 2 s starts the count to
the end of FAN_FAIL afresh. -/
def execFanTachEdge (s : State) : Host.Outcome State Fault Refusal :=
  .next (if s.pwr.fanStopped || !s.sysOn 79 then s
    else
      let gap := match s.pwr.fanEdge with | some t => s.cref - t | none => 2 * ms 1000 + 1
      let rpm := match s.pwr.fanEdge with | some t => fanSpeed (s.cref - t) | none => s.pwr.fanRpm
      let runs := decide (30 ≤ s.fanDuty)
      s.modPwr fun p => { p with
        fanEdge := some s.cref, fanRpm := rpm, fanSeq := .idle, fanKicks := 0#2, fanRunning := runs
        fanGoodSince := if decide (2 * ms 1000 < gap) then s.cref else p.fanGoodSince })

/-- FAN_FAIL is raised and stands; the 10 s to its end run from here at the earliest. -/
def State.fanFails (s : State) : State :=
  (s.modPwr fun p => { p with fanFail := true, fanSeq := .idle, fanRunning := false, fanGoodSince := s.cref }).raiseCond 1109 true

/-- FAN_WINDOW_EXPIRY: a window closes after 2 s without an edge; after the third kick it raises FAN_FAIL. -/
def execFanWindowExpiry (s : State) : Host.Outcome State Fault Refusal :=
  .next (if s.pwr.fanSeq ≠ FanSeq.window || decide (s.cref < s.pwr.fanSeqAt + 2 * ms 1000) then s
    else if s.pwr.fanKicks = 3#2 then s.fanFails
    else s.modPwr fun p => { p with fanSeq := .kick, fanSeqAt := s.cref, fanKicks := p.fanKicks + 1#2 })

/-- FAN_KICK_END: after 1 s a new window opens at the commanded drive. -/
def execFanKickEnd (s : State) : Host.Outcome State Fault Refusal :=
  .next (if s.pwr.fanSeq = FanSeq.kick && decide (s.pwr.fanSeqAt + ms 1000 ≤ s.cref)
    then s.modPwr fun p => { p with fanSeq := .window, fanSeqAt := s.cref } else s)

/-- FAN_TACH_TIMEOUT: a running fan has given no edge for 2 s. -/
def execFanTachTimeout (s : State) : Host.Outcome State Fault Refusal :=
  .next (if s.pwr.fanRunning && s.pwr.fanEdge.any (fun t => decide (t + 2 * ms 1000 ≤ s.cref)) then s.fanFails else s)

/-- FAN_FAIL_CLEAR: 10 s with no gap longer than 2 s. The drive returns to FAN_MODE. -/
def execFanFailClear (s : State) : Host.Outcome State Fault Refusal :=
  .next (if s.pwr.fanFail && decide (s.pwr.fanGoodSince + 10 * ms 1000 ≤ s.cref) && s.pwr.fanEdge.any (fun t => decide (s.cref ≤ t + 2 * ms 1000))
    then ((s.modPwr fun p => { p with fanFail := false }).raiseCond 1109 false).fanEval else s)

/-- TEMP_SAMPLE (03 R77, 14 R414), after which the curve of the fan follows. -/
def execTempSample (d : Die) (t0 t1 t2 t3 : BitVec 16) (s : State) : Host.Outcome State Fault Refusal :=
  .next (s.tempSample d t0 t1 t2 t3).fanEval

/-! Domains (14 R411, R412). -/

/-- A domain is marked on or off, and no longer on its way. -/
def State.setPd (s : State) (k : Nat) (on : Bool) : State :=
  s.modPwr fun p => { p with
    pdOn := setBitW p.pdOn k on, pdRamp := setBitW p.pdRamp k false, pdWait := setBitW p.pdWait k false
    pdFrom := p.pdFrom.filter fun e => e.1 ≠ k }

/-- What of an axis does not belong to its domain: the driver die, whose domain is the bank's, and the fields that only
power-on resets. -/
def Axis.unpowered (a : Axis) : Axis :=
  { gdr := { latches := a.gdr.latches, gates := a.gdr.gates, bstOk := a.gdr.bstOk, bstEw := a.gdr.bstEw,
             softRun := a.gdr.softRun, softCode := a.gdr.softCode, softAt := a.gdr.softAt }
    sns := { ofsIn := a.sns.ofsIn, ofsBadIn := a.sns.ofsBadIn }
    ch := { calDone := a.ch.calDone }
    clu := { recoverCnt := a.clu.recoverCnt, lastEngine := a.clu.lastEngine, lastCause := a.clu.lastCause } }

/-- The sources of an axis whose condition lasts lose it. -/
def State.axisCondsOff (s : State) (n : AxisId) : State :=
  ((s.raiseCond (axisSrc n 7) false).raiseCond (axisSrc n 14) false).raiseCond (1152 + n.val) false

/-- An axis domain goes off: its gates are held off, its counter stops, and all that it holds is lost. -/
def State.axisDown (s : State) (n : AxisId) : State :=
  if !s.axOn n then s.setPd n.val false
  else
    let s := s.counterStop n
    let s := (s.setPd n.val false).forceGates n
    let s := (s.modAx n Axis.unpowered).clearCluster n
    (({ s with posts := s.posts.filter fun p => p.to_ ≠ n }).axisCondsOff n).settleLens n

/-- An axis domain comes on, zeroed: the vendor chain is loaded, and the axis is in HOLD, or in SAFE while a
reaction that holds it is outstanding (14 R407, 15 R426). The delay lines lock as the first axis comes on. -/
def State.axisUp (s : State) (n : AxisId) : State :=
  if s.axOn n || !s.hasAxis n then s.setPd n.val (s.hasAxis n)
  else
    let first := !s.present.any s.axOn
    let s := s.setPd n.val true
    let s := { s with clk := { s.clk with dll := s.clk.dll || (first && s.clk.pllp) } }
    let s := if s.clk.dll then s.raiseCond 1099 false else s
    let safe := s.outstanding n
    let s := s.modCh n fun c => { c with st := if safe then .safe else .hold, holdAt := some s.cref }
    let s := s.modSns n fun q => { q with frameAt := s.cref }
    s.loadVendor n

/-- The registers of a bank domain that was off: what Thimble holds, the lock and CLEAR_CNT stay. -/
def Bank.unpowered (k : Bank) : Bank := { k.afterReset with lock := k.lock }

/-- The driver die of an axis loses its calibration, its conversions and its frames with the bank's power. -/
def Axis.driverOff (a : Axis) : Axis :=
  { a with gdr := { a.gdr with bstOk := 0#3, bstEw := 0#3, softRun := false, gates := a.gdr.gates.map fun g => { g with soft := false } }
           sns := { a.sns with
             ofsIn := {}, ofsBadIn := 0#3, ofs := {}, ofsBad := 0#3, calRun := false, calShow := false, calReq := false
             conv := none, holdAt := none, laneS := [], laneI := [], statusWait := none, statusSent := none, statusAt := none
             drops := a.sns.dropsSeen, cmpActive := 0#3, vsOvf := false }
           ch := { a.ch with calDone := false } }

/-- The driver die of an axis takes the registers that the control die holds for it (log entry 19). -/
def Axis.driverOn (a : Axis) : Axis :=
  { a with gdr := { a.gdr with ctrlIn := a.gdr.ctrl, vdsIn := a.gdr.vdsCfg, softIn := a.gdr.softCfg }
           sns := { a.sns with cfgIn := a.sns.cfg, cmpIn := a.sns.cmp } }

/-- The lock bit of a bank's PLL. -/
def State.setCkl (s : State) (b : BankId) (on : Bool) : State :=
  { s with clk := { s.clk with ckl := setBitW s.clk.ckl b.val on } }

/-- A bank domain goes off: its gate enable is withdrawn and its driver die loses what it holds. -/
def State.bankDown (s : State) (b : BankId) : State :=
  if !s.bankOn b then s.setPd (64 + b.val) false
  else
    let s := ((s.setPd (64 + b.val) false).setCkl b false).evalGate b
    let s := (s.modBank b Bank.unpowered).forAxes (bankAxes b) fun n s => s.modAx n Axis.driverOff
    ([2, 3, 4, 5, 6].foldl (fun s j => s.raiseCond (bankSrc b j) false) s).fanEval

/-- A bank domain comes on: VDRV is up while its buck runs, CKL is locked, and the trims are written. -/
def State.bankUp (s : State) (b : BankId) : State :=
  if s.bankOn b || !s.hasBank b then s.setPd (64 + b.val) (s.hasBank b)
  else
    let s := (s.setPd (64 + b.val) true).setCkl b true
    let v := s.pwr.buckOn
    let s := (s.modBank b fun k => { k.unpowered with
      trimOk := true, vdrvOk := v, linkAt := s.cref })
    let s := s.forAxes (bankAxes b) fun n s => (s.modAx n Axis.driverOn).modSns n fun q => { q with frameAt := s.cref }
    s.evalGate b

/-- CAN goes off: its controllers are as after reset, their transceivers in standby, and the CAN_SEND that
waited end. -/
def State.canDown (s : State) : State :=
  if !s.sysOn 73 then s
  else
    let s := s.completeAll (fun d => match d.act with | .canSend _ _ _ => true | _ => false) .aborted
    let s := (s.setPd 73 false).modPwr fun p => { p with canStb := 0xF#4 }
    { s with can := Vector.replicate 4 {} }

/-- Telemetry goes off; no stream is open. -/
def State.telDown (s : State) : State :=
  (s.setPd 76 false).modHst fun h => { h with tel := Vector.replicate 32 {}, rpBad := 0#32 }

/-- A domain goes off. -/
def State.domainDown (s : State) (k : Nat) : State :=
  if k < 64 then s.axisDown (Fin.ofNat 64 k)
  else if k < 72 then s.bankDown (Fin.ofNat 8 (k - 64))
  else if k = 73 then s.canDown
  else if k = 76 then s.telDown
  else s.setPd k false

/-- A domain has powered up. -/
def State.domainUp (s : State) (k : Nat) : State :=
  if k < 64 then s.axisUp (Fin.ofNat 64 k)
  else if k < 72 then s.bankUp (Fin.ofNat 8 (k - 64))
  else s.setPd k true

/-- Axis domains that power up at present. -/
def State.ramping (s : State) : Nat := ((List.range 64).filter fun k => s.pwr.pdRamp.getLsbD k).length

/-- A domain begins to power up. Of the axis domains at most eight do so at once; the others wait. -/
def State.domainStart (s : State) (k : Nat) : State :=
  if s.pwr.pdOn.getLsbD k || s.pwr.pdRamp.getLsbD k then s
  else if k < 64 && decide (8 ≤ s.ramping) then s.modPwr fun p => { p with pdWait := setBitW p.pdWait k true }
  else s.modPwr fun p => { p with
    pdRamp := setBitW p.pdRamp k true, pdWait := setBitW p.pdWait k false, pdFrom := p.pdFrom ++ [(k, s.cref)] }

/-- The power-up time of a domain that PWR_PD_REQ switches, in cp (14 R411). -/
def pdTime (k : Nat) : Nat :=
  if 64 ≤ k && k < 72 || k = 77 then ms 1 else if k = 73 || k = 74 then us 50 else us 20

/-- The domain has been powering up for its time. -/
def State.pdReady (s : State) (k : Nat) : Bool :=
  s.pwr.pdRamp.getLsbD k && s.pwr.pdFrom.any fun e => e.1 = k && decide (e.2 + pdTime k ≤ s.cref)

/-- The lowest axis domain that waits takes the free place. -/
def State.nextDomain (s : State) : State :=
  match (List.range 64).find? fun k => s.pwr.pdWait.getLsbD k with
  | some k => if 8 ≤ s.ramping then s else s.domainStart k
  | none => s

/-- Every place that is free is taken, in ascending domain order (14 R412). -/
def State.fillPlaces (s : State) : State := (List.range 8).foldl (fun s _ => s.nextDomain) s

/-- DOMAIN_POWER_UP_COMPLETE. -/
def execDomainPowerUpComplete (d : Fin 80) (s : State) : Host.Outcome State Fault Refusal :=
  .next (if s.pdReady d.val then (s.domainUp d.val).fillPlaces else s)

/-! Domains that DOZE gates (14 R406). -/

/-- DOZE keeps an axis domain: PWR_DOZE_KEEP or a keep-alive. -/
def State.dozeKept (s : State) (k : Nat) : Bool := s.pwr.dozeKeep.getLsbD k || s.sec.keep.getLsbD k

/-- A domain is on, or on its way. -/
def State.pdAlive (s : State) (k : Nat) : Bool :=
  s.pwr.pdOn.getLsbD k || s.pwr.pdRamp.getLsbD k || s.pwr.pdWait.getLsbD k

/-- Axis domains that DOZE gates, those among them that are on their way. -/
def State.dozeAxes (s : State) : List AxisId := s.present.filter fun n => s.pdAlive n.val && !s.dozeKept n.val

/-- The banks, on or on their way, whose eight axis domains are off. -/
def State.dozeBanks (s : State) : List BankId :=
  s.presentBanks.filter fun b => s.pdAlive (64 + b.val) && (bankAxes b).all fun n => !s.pdAlive n.val

/-- A domain is gated until DOZE is left. -/
def State.gate (s : State) (k : Nat) : State := s.modPwr fun p => { p with dozeGated := setBitW p.dozeGated k true }

/-- In DOZE a bank domain goes off with the last of its axis domains. -/
def State.dozeSettle (s : State) : State :=
  if s.pwr.mode ≠ .doze then s
  else s.forBanks s.dozeBanks fun b s => (s.bankDown b).gate (64 + b.val)

/-- A domain that is asked for powers up; in DOZE an axis domain that is not kept waits until DOZE is left, and its bank
with it. -/
def State.domainAsk (s : State) (k : Nat) : State :=
  if s.pwr.mode ≠ .doze then s.domainStart k
  else if k < 64 && !s.dozeKept k then s.gate k
  else if 64 ≤ k && k < 72 && (bankAxes (Fin.ofNat 8 (k - 64))).all (fun n => !s.pdAlive n.val) then s.gate k
  else s.domainStart k

/-! PWR_PD_REQ (14 R411, R412; 16 R460). -/

/-- The bits of a PWR_PD_REQ register that the table of R411 gives to it, as domains. -/
def State.pdWritable (s : State) (k : Nat) : Bool :=
  if k < 64 then decide (k < s.variant.axes) else if k < 72 then decide (k - 64 < s.variant.banks)
  else k = 73 || (k = 76 && (List.finRange 32).all fun i => !s.hst.tel[i].isOpen)

/-- The domain of bit i of a register. -/
def pdBase (which : Fin 3) : Nat := 32 * which.val

/-- The width of a register in bits. -/
def pdBits (which : Fin 3) : Nat := if which = 2 then 16 else 32

/-- The domains whose request a write changes. -/
def State.pdChanges (s : State) (which : Fin 3) (v : Word) : List Nat :=
  ((List.range (pdBits which)).map fun i => pdBase which + i).filter fun k =>
    s.pdWritable k && (bit v (k - pdBase which) != s.pwr.pdReq.getLsbD k)

/-- Clearing the request of a domain is refused (14 R412). -/
def State.pdRefused (s : State) (k : Nat) : Bool :=
  if k < 64 then
    let n : AxisId := Fin.ofNat 64 k
    !s.atRest n || (s.axis n).clu.role || s.inAnyFit n ||
    (List.finRange 64).any fun j => s.seam.slot[j].st ≠ SeamSt.free && (s.seam.slot[j].members).getLsbD k
  else if k < 72 then !(bankAxes (Fin.ofNat 8 (k - 64))).all s.atRest
  else false

/-- REQ_REJECT is set. -/
def State.rejectReq (s : State) : State := s.modPwr fun p => { p with reqReject := true }

/-- A write of PWR_PD_REQ acts, or is refused whole (log entry 20). The places that it frees go to the domains that wait
first. -/
def State.pdApply (s : State) (which : Fin 3) (v : Word) : State :=
  let ch := s.pdChanges which v
  let off := ch.filter fun k => s.pwr.pdReq.getLsbD k
  if off.any s.pdRefused then s.rejectReq
  else
    let s := s.modPwr fun p => { p with pdReq := ch.foldl (fun m k => setBitW m k (!m.getLsbD k)) p.pdReq }
    let s := (off.foldl (fun s k => s.domainDown k) s).fillPlaces
    ((ch.filter fun k => s.pwr.pdReq.getLsbD k).foldl (fun s k => s.domainAsk k) s).dozeSettle

/-- A write of PWR_PD_REQ. One that clears a bit waits while the debugger holds something halted. -/
def State.pdWrite (s : State) (which : Fin 3) (v : Word) : State :=
  if !s.pwr.mode.live || !s.sysOn 79 then s
  else if s.dbgHalts && (s.pdChanges which v).any fun k => s.pwr.pdReq.getLsbD k then
    s.modSec fun c => { c with deferred := true, pdDeferred := c.pdDeferred ++ [(which, v)] }
  else s.pdApply which v

def execPdReqWrite (which : Fin 3) (value : Word) (s : State) : Host.Outcome State Fault Refusal :=
  .next (if s.bar0 then s.pdWrite which value else s)

/-! Requests for a power state (14 R405, R407, R408). -/

/-- The conditions of R405. No flash program or erase runs beyond the command that causes it. -/
def State.restOk (s : State) (sleep : Bool) : Bool :=
  s.allRest && s.fits.isEmpty && (!s.seam.slot.any fun x => x.st = SeamSt.armed || x.st = SeamSt.staged) && s.seam.snaps.isEmpty &&
  !s.ser.flashBusy && (!sleep || (List.finRange 32).all fun i => !s.hst.tel[i].isOpen)

/-- DOZE is left: the domains that it gated power up again. -/
def State.leaveDoze (s : State) : State :=
  let s := s.modPwr fun p => { p with mode := .waking }
  ((List.range 72).filter fun k => s.pwr.dozeGated.getLsbD k && s.pwr.pdReq.getLsbD k).foldl (fun s k => s.domainStart k) s

/-- A request acts by the table of R408: 1 RUN, 2 DOZE, 3 SLEEP. -/
def State.judge (s : State) (req : Nat) : State :=
  match s.pwr.mode, req with
  | .doze, 1 => s.leaveDoze
  | .enteringDoze, 1 => s.modPwr fun p => { p with runHeld := true }
  | .enteringSleep, 1 => s.rejectReq
  | .active, 2 => if s.restOk false then s.modPwr fun p => { p with mode := .enteringDoze, runHeld := false } else s.rejectReq
  | .enteringSleep, 2 | .waking, 2 => s.rejectReq
  | .active, 3 | .doze, 3 =>
    if s.restOk true then (s.modPwr fun p => { p with mode := .enteringSleep, wakeHeld := 0#7 }).evalGates else s.rejectReq
  | .enteringDoze, 3 | .waking, 3 => s.rejectReq
  | _, _ => s

/-- A write of PWR_STATE.REQ, which the supervisor serves; one made under a debug halt is deferred. -/
def State.pwrReq (s : State) (req : Nat) : State :=
  if req = 0 || !s.supUp then s
  else if s.dbgHalts then (s.modPwr fun p => { p with reqDeferred := p.reqDeferred ++ [BitVec.ofNat 2 req] }).modSec fun c => { c with deferred := true }
  else s.judge req

def execReqRun (s : State) : Host.Outcome State Fault Refusal := .next (if s.bar0 then s.pwrReq 1 else s)
def execReqDoze (s : State) : Host.Outcome State Fault Refusal := .next (if s.bar0 then s.pwrReq 2 else s)
def execReqSleep (s : State) : Host.Outcome State Fault Refusal := .next (if s.bar0 then s.pwrReq 3 else s)

/-- The last halt has been released: what was deferred is checked now, and acts or is refused (16 R460). -/
def State.judgeDeferred (s : State) : State :=
  if s.dbgHalts || !s.sec.deferred then s
  else
    let l := s.sec.pdDeferred
    let reqs := s.pwr.reqDeferred
    let s := (s.modSec fun c => { c with deferred := false, pdDeferred := [] }).modPwr fun p => { p with reqDeferred := [] }
    let s := l.foldl (fun s e => s.pdApply e.1 e.2) s
    reqs.foldl (fun s r => s.judge r.toNat) s

/-- DEBUG_RESUME of a cluster (04 R119); with the last halt gone, what was deferred is judged. -/
def execDebugResume (n : AxisId) (s : State) : Host.Outcome State Fault Refusal := .next (s.debugResume n).judgeDeferred

/-! Entry into DOZE and SLEEP, and waking (14 R406 to R410). -/

/-- DOZE is entered: the gates of every axis are off, and the domains not kept go off. -/
def State.enterDoze (s : State) : State :=
  let ax := s.dozeAxes
  let s := s.modPwr fun p => { p with mode := .doze, dozeGated := 0#80 }
  let s := s.forAxes s.present fun n s => s.forceGates n
  let s := (s.forAxes ax fun n s => (s.axisDown n).gate n.val).fillPlaces.dozeSettle
  if s.pwr.runHeld then (s.modPwr fun p => { p with runHeld := false }).leaveDoze else s

/-- A wake from SLEEP: the module starts from the rails-good step, with every source seen recorded, and drives
WAKE_N (14 R410). -/
def State.wake (s : State) (src : BitVec 7) : State :=
  let s := { s with rst := setBitW s.rst 5 true }
  s.modPwr fun p => { p with mode := .start, wakeCause := p.wakeCause ||| src, wakeHeld := 0#7, wakeDrive := true, wakeAt := s.cref }

/-- As PD74 goes off, its descriptors complete ABORTED, and what can be written leaves while PD72 still runs (13 R386, 14 R409:
the domains go off from PD79 down). -/
def State.spAbort (s : State) : State :=
  let s := s.completeAll (fun d => (List.finRange 8).any fun p => d.act = Act.spTransfer p) .aborted
  s.hst.cplWait.foldl (fun s _ => s.cplWrite) s

/-- SLEEP is entered: every domain but the always-on one goes off. A source seen on the way wakes the module. -/
def State.enterSleep (s : State) : State :=
  let held := s.pwr.wakeHeld
  let s := ({ s.spAbort.powerDown .sleep with sup := SupMode.held }).evalGates
  let s := s.modPwr fun p => { p with canStb := 0xF#4, fanStopped := true }
  if held = 0#7 then s else s.wake held

/-- POWER_STATE_ENTRY_COMPLETE. -/
def execPowerStateEntryComplete (s : State) : Host.Outcome State Fault Refusal :=
  .next (match s.pwr.mode with
    | .enteringDoze => s.enterDoze
    | .enteringSleep => s.enterSleep
    | _ => s)

/-- WAKE_COMPLETE: once the gated domains are up and reloaded, with every axis in HOLD (14 R407). -/
def execWakeComplete (s : State) : Host.Outcome State Fault Refusal :=
  .next (if s.pwr.mode ≠ PwrMode.waking ||
      (List.range 72).any (fun k => s.pwr.dozeGated.getLsbD k && s.pwr.pdReq.getLsbD k && !s.pwr.pdOn.getLsbD k) then s
    else
      let s := s.modPwr fun p => { p with mode := .active, dozeGated := 0#80 }
      s.forAxes s.present fun n s => s.forceGates n)

/-- An enabled wake source: it wakes the module from SLEEP, and is held while entry runs. -/
def State.wakeSrc (s : State) (k : Nat) (enabled : Bool) : State :=
  if !enabled then s
  else match s.pwr.mode with
    | .sleep => s.wake (setBitW 0#7 k true)
    | .enteringSleep => s.modPwr fun p => { p with wakeHeld := setBitW p.wakeHeld k true }
    | _ => s

/-- WAKE_N low: ignored while the module drives it. -/
def execWakeN (s : State) : Host.Outcome State Fault Refusal :=
  .next (s.wakeSrc 0 (bit s.pwr.wakeCfg 4 && !s.pwr.wakeDrive))
def execCanWake (c : CanId) (s : State) : Host.Outcome State Fault Refusal :=
  .next (s.wakeSrc (1 + c.val) (s.hasCan c && bit s.pwr.wakeCfg c.val))
/-- WAKE_TIMER: the cycles run from the end of entry, so the timer cannot come while entry runs. -/
def execWakeTimer (s : State) : Host.Outcome State Fault Refusal :=
  .next (s.wakeSrc 5 (s.pwr.wakeTimer ≠ 0#32 && s.pwr.mode = PwrMode.sleep))

/-- WAKE_N_DRIVE_END: the link has trained or 100 ms have passed. -/
def execWakeNDriveEnd (s : State) : Host.Outcome State Fault Refusal :=
  .next (if s.linked || s.ckt (s.pwr.wakeAt + ms 100) then s.modPwr fun p => { p with wakeDrive := false } else s)

end Sys2Proof.Machine
end

