-- ==== Sys2Proof/Machine/Power.lean ====
section
/-! DEFINITION. Supply, rails, clocks and the checks of the supervisor (14 R396 to R403; 15 R426, R429, R430),
up to the point at which the boot ROM runs. -/

namespace Sys2Proof.Machine

/-! The supply (14 R396 to R399). -/

/-- VINS_LEVEL is measured; the spec gives a command no value for it. -/
def State.newVins (s : State) : State :=
  (s.modPwr fun p => { p with vinsLevel := (Config.freeWord s.freeCtr).setWidth 12 }).bump

/-- What only power-on resets: the driver latches, the CLU_STATUS fields, CLEAR_CNT, IMG_REVERT, and the
registers of the always-on domain (02 R46, R56, R59; 09 R275; 14 R419; 17 R487; 21 R537). -/
def State.powerOnResets (s : State) : State :=
  { s with
    rst := 1#6
    ax := s.ax.map fun a => { a with gdr := { a.gdr with latches := 0#16 }, clu := {} }
    bank := s.bank.map fun k => { k with clearCnt := 0#8 }
    img := { s.img with revertCnt := 0#8, revertCause := 0#3 }
    pwr := { s.pwr with wakeCfg := 0x00000010#32, wakeTimer := 0#32, wakeCause := 0x40#7, wakeHeld := 0#7, wakeDrive := false } }

/-- POWER_ON: VINS rises through 19.5 V on a powered-off module. Thimble starts and tests itself; a failed
self-test is GRAVE (14 R402, 15 R428). -/
def State.powerOn (s : State) (selfTestOk : Bool) : State :=
  if s.pwr.mode ≠ PwrMode.off then s
  else
    let s := s.powerOnResets
    let s := (s.modPwr fun p => { p with mode := .start, uv := false, ovWarn := false }).newVins
    let s := s.modFlt fun f => { f with thimble := true }
    if selfTestOk then s else (s.modFlt fun f => { f with grave := true }).raiseCond 1102 true

def execPowerOn (selfTestOk : Bool) (s : State) : Host.Outcome State Fault Refusal := .next (s.powerOn selfTestOk)

/-- RESET_N: the module restarts at the rails-good step, and BOOT1 and BOOT0 are sampled again (14 R403). -/
def execResetN (s : State) : Host.Outcome State Fault Refusal :=
  .next (if s.pwr.mode = PwrMode.off then s
    else (s.restart 1).modSer fun r => { r with bootDue := true })

/-- Thimble watches the supply: always, but in OFF. -/
def State.watched (s : State) : Bool := s.pwr.mode ≠ PwrMode.off

/-- VIN_UV: VINS falls through 18 V (14 R397). -/
def State.undervolt (s : State) : State :=
  if !s.watched then s
  else
    let s := (s.modPwr fun p => { p with uv := true, ovWarn := false, buckOn := false }).newVins
    let s := ((s.raiseCond 1089 false).raiseCond 1088 true).evalGates
    let s := s.modTly fun t => { t with checkUv := true }
    s.forAxes s.present fun n s => s.dropToHold n

def execVinUv (s : State) : Host.Outcome State Fault Refusal := .next s.undervolt

/-- VIN_UV_RECOVER: VINS rises through 19.5 V while the rails hold. The axes stay in HOLD. -/
def execVinUvRecover (s : State) : Host.Outcome State Fault Refusal :=
  .next (if !s.watched || !s.pwr.uv then s
    else
      let s := (s.modPwr fun p => { p with uv := false, buckOn := p.mode.live }).newVins
      (s.raiseCond 1088 false).evalGates)

/-- The module stops: PGOOD goes low. -/
def State.stopModule (s : State) : State :=
  let s := s.powerDown .off
  let s := { s with sup := SupMode.held }
  (s.modPwr fun p => { p with uv := true, ovWarn := false, rbOn := false }).modFlt fun f => { f with thimble := false }

/-- POWER_LOSS: VINS falls below 12 V. -/
def execPowerLoss (s : State) : Host.Outcome State Fault Refusal := .next (if s.watched then s.stopModule else s)

/-- GRAVE_CLEAR: VIN has been below 10 V for 100 ms. The always-on rail drops, and with it the GRAVE latch and
what Thimble filtered (15 R426). -/
def execGraveClear (s : State) : Host.Outcome State Fault Refusal :=
  .next (
    let s := if s.watched then s.stopModule else s
    { s with flt := {}, bank := s.bank.map fun k => { k with en := false, stoA := false, stoB := false, discRun := false, bothLow := false } })

/-- VIN_OV_WARN: VINS rises through 82 V, an onset of the source, which moves no gate; or it falls through 81.0 V, where
the warning and its cause end (14 R396, 15 R423; log entry 98). -/
def execVinOvWarn (above : Bool) (s : State) : Host.Outcome State Fault Refusal :=
  .next (if !s.watched then s
    else (s.modPwr fun p => { p with ovWarn := above }).newVins.raiseCond 1089 above)

/-- RB_REVERSE: the switch goes off and the turn-off counts. -/
def execRbReverse (s : State) : Host.Outcome State Fault Refusal :=
  .next (if s.pwr.rbOn then s.modPwr fun p => { p with rbOn := false, rbRevCnt := satInc p.rbRevCnt } else s)

/-- RB_SWITCH_ON. -/
def execRbSwitchOn (s : State) : Host.Outcome State Fault Refusal :=
  .next (if s.watched then s.modPwr fun p => { p with rbOn := true } else s)

/-! Rails (14 R401). -/

/-- The number of a rail: its bit, and its source from FS1090. -/
def railIdx : Rail → Nat
  | .r12v => 0 | .r5v => 1 | .r3v3 => 2 | .r1v8 => 3 | .core => 4

/-- The rails are up, or held by a reset of the core. -/
def State.railed (s : State) : Bool := s.pwr.mode.live || s.pwr.mode = .enteringSleep || s.pwr.vcoreLow

def execRailFault (r : Rail) (s : State) : Host.Outcome State Fault Refusal :=
  .next (if s.railed then
      (s.modPwr fun p => { p with rails := setBitW p.rails (railIdx r) false }).raiseCond (1090 + railIdx r) true
    else s)

/-- RAIL_RECOVER: VCORE back in its window lets the control die out of reset. -/
def execRailRecover (r : Rail) (s : State) : Host.Outcome State Fault Refusal :=
  .next (if s.railed then
      (s.modPwr fun p => { p with
        rails := setBitW p.rails (railIdx r) true, vcoreLow := p.vcoreLow && railIdx r ≠ 4 }).raiseCond (1090 + railIdx r) false
    else s)

/-- VCORE_LOW_RESET: VCORE below 0.68 V holds the control die in reset. -/
def execVcoreLowReset (s : State) : Host.Outcome State Fault Refusal :=
  .next (if s.pwr.mode = PwrMode.off || s.pwr.mode = PwrMode.sleep then s
    else
      let rails := s.pwr.rails
      let buck := s.pwr.buckOn
      let s := { s.powerDown .start with sup := SupMode.held }
      (s.modPwr fun p => { p with vcoreLow := true, rails := setBitW rails 4 false, buckOn := buck }).evalGates)

/-! Clocks (15 R429). -/

/-- The source of a lost clock; CKH has none. -/
def clockSrc : ClockSrc → Nat
  | .xtal => 1095 | .plle => 1096 | .pllp => 1097 | .plln => 1098 | .dll => 1099 | .ckl b => bankSrc b 5 | .ckh => 1099

/-- REFCLK is lost or comes back: without it PD72 stays off (01 R13). Its registers are then as after a reset of the
domain (DEDUCED, log entry 141). -/
def State.refclk (s : State) (on : Bool) : State :=
  if s.clk.ckh = on then s
  else
    let s := (State.setPd { s with clk := { s.clk with ckh := on } } 72 on).dropLatches 0
    s.modHst fun h => { h.linkReset with linkUp := on && !h.perstLow, ready := on && s.supUp }

/-- The lock bit of a clock. -/
def State.setClock (s : State) (c : ClockSrc) (on : Bool) : State :=
  match c with
  | .xtal => { s with clk := { s.clk with xtal := on } }
  | .plle => { s with clk := { s.clk with plle := on } }
  | .pllp => { s with clk := { s.clk with pllp := on } }
  | .plln => { s with clk := { s.clk with plln := on } }
  | .dll => { s with clk := { s.clk with dll := on } }
  | .ckl b => s.setCkl b on
  | .ckh => s.refclk on

/-- The clock runs in the present state: a bank's CKL while its domain is on, the delay lines while some axis
is powered. -/
def State.clocked (s : State) (c : ClockSrc) : Bool :=
  (s.pwr.mode.live || s.pwr.mode = .enteringSleep) &&
  match c with | .ckl b => s.bankOn b | .dll => s.present.any s.axOn | _ => true

/-- CKE or CKP lost: Thimble withdraws every gate enable. -/
def State.cutClock (s : State) : State := s.modFlt fun f => { f with clockCut := !(s.clk.plle && s.clk.pllp) }

/-- CLOCK_LOSS. With the delay lines unlocked no counter runs (04 R94). Without CKH the host link is off, and nothing
else follows (01 R13). -/
def execClockLoss (c : ClockSrc) (s : State) : Host.Outcome State Fault Refusal :=
  .next (if !s.clocked c then s
    else if c = ClockSrc.ckh then s.setClock c false
    else
      let s := ((s.setClock c false).cutClock.raiseCond (clockSrc c) true).evalGates
      if c = ClockSrc.dll then s.forAxes s.present fun n s => s.counterStop n else s)

/-- CLOCK_RELOCK. -/
def execClockRelock (c : ClockSrc) (s : State) : Host.Outcome State Fault Refusal :=
  .next (if !s.clocked c then s
    else if c = ClockSrc.ckh then s.setClock c true
    else ((s.setClock c true).cutClock.raiseCond (clockSrc c) false).evalGates)

/-! The supervisor's checks (15 R423, R430). -/

/-- LOCKSTEP_MISMATCH. -/
def execLockstepMismatch (s : State) : Host.Outcome State Fault Refusal := .next (if s.supRuns then s.mismatch else s)

/-- SUP_WATCHDOG: the debugger's halt stops the watchdog (16 R458). -/
def execSupWatchdog (s : State) : Host.Outcome State Fault Refusal :=
  .next (if s.supRuns && !s.sec.supHalted then s.supFault 1104 else s)

/-- SUP_ECC. -/
def execSupEcc (s : State) : Host.Outcome State Fault Refusal :=
  .next (if s.supRuns then s.supFault 1105 else s)

/-- SUPERVISOR_RESTART. The requests that its debugger's halt deferred are judged, for the halt is gone. -/
def execSupervisorRestart (s : State) : Host.Outcome State Fault Refusal := .next s.restartSup.judgeDeferred

end Sys2Proof.Machine
end

