-- ==== Sys2Proof/Machine/Boot.lean ====
section
/-! DEFINITION. A run of the boot ROM and the readiness of the supervisor: SP0 (13 R374 to R377), the OTP (16
R444, R445, R449 to R451), the selection of an image set and its trial (17 R470 to R473, R480), and the settings
(17 R483 to R485). -/

namespace Sys2Proof.Machine

/-! SP0 (13 R374 to R377). -/

/-- The fastest read mode that the flash declares and BOOT allows: 0 1-1-1, 1 1-1-4, 2 1-4-4. -/
def flashMode (boot : Nat) (f : SfdpInfo) : Nat :=
  if boot = 0 && f.mode144 then 2 else if (boot = 0 || boot = 2) && f.mode114 then 1 else 0

/-- DIV for the SCK limit of BOOT. -/
def spDiv (boot : Nat) : Nat := if boot = 0 then 0 else if boot = 2 then 1 else 3

/-- The steps of R374 at the flash: reset, the SFDP read at 12.5 MHz, the quad-enable bit for a mode with four data lines, 4-byte
address mode where the flash is larger than 16 MiB and the table has no 4-byte read, and the final SCK. -/
def flashSteps (boot : Nat) (sfdp : Option SfdpInfo) : List FlashStep :=
  [.frstN false, .wait 10000, .frstN true, .wait 1000000, .send 0x66#8, .send 0x99#8, .sck 7, .send 0x5A#8] ++
  match sfdp with
  | none => []
  | some f =>
    (if flashMode boot f = 0 then [] else [.quadEnable]) ++
    (if decide (24 < f.sizeLog2) && !f.addr4 then [.send 0xB7#8] else []) ++ [.sck (spDiv boot)]

/-- BOOT1 and BOOT0 as the bring-up takes them: sampled when due, else as they were (13 R375). -/
def State.bootPins (s : State) (inp : BootIn) : Nat :=
  if s.ser.bootDue then (if inp.boot1 then 2 else 0) + (if inp.boot0 then 1 else 0) else bits s.ser.info 9 8

/-- SP0 is brought up. Without SFDP it stays at 1-1-1, 12.5 MHz and 3-byte addresses, so that 16 MiB are in reach. -/
def State.bringUpFlash (s : State) (inp : BootIn) : State :=
  let boot := s.bootPins inp
  let s := (flashSteps boot inp.sfdp).foldl (fun s x => s.emit (.flash x)) s
  s.modSer fun r =>
    let r := { r with bootDue := false, sfdpOk := inp.sfdp.isSome }
    match inp.sfdp with
    | none => { r with suspend := false, info := fieldAt 27 24 ||| fieldAt 8 boot ||| fieldAt 0 7 }
    | some f => { r with
      suspend := f.suspend
      info := fieldAt 27 (f.sizeLog2 % 32) ||| fieldAt 25 (flashMode boot f) ||| bitAt 24 (decide (24 < f.sizeLog2)) |||
        fieldAt 16 f.dummy.toNat ||| fieldAt 8 boot ||| fieldAt 0 (spDiv boot) }

/-- What the flash holds (17 R464). -/
inductive FlashArea where
  | reserved | certificate | bank (i : Fin 6) | settings (i : Fin 2) | patterns | journal | oem
  deriving DecidableEq, Repr

/-- The flash address of an area and its size; the OEM area reaches to the end of the flash, here of 2^n bytes (17 R464). -/
def flashArea (n : Nat) : FlashArea → Nat × Nat
  | .reserved => (0, 0x10000)
  | .certificate => (0x10000, 0x10000)
  | .bank i => if i.val < 2 then (0x20000 + 0x200000 * i.val, 0x200000)
    else if i.val < 4 then (0x420000 + 0x100000 * (i.val - 2), 0x100000) else (0x620000 + 0x80000 * (i.val - 4), 0x80000)
  | .settings i => (0x720000 + 0x40000 * i.val, 0x40000)
  | .patterns => (0x7A0000, 0x400000)
  | .journal => (0xBA0000, 0x200000)
  | .oem => (0xDA0000, 2 ^ n - 0xDA0000)

/-- The flash address of Pattern slot `slot` of kind k for axis n, 8 KiB (17 R465). -/
def patternAddr (n : AxisId) (k : Nat) (slot : Fin 2) : Nat := (flashArea 24 .patterns).1 + 0x10000 * n.val + 0x4000 * k + 0x2000 * slot.val

/-- The flash address of the header and of the payload of a bank, and of its record, in its last 64 KiB (17 R466). -/
def bankParts (i : Fin 6) : Nat × Nat × Nat :=
  let a := flashArea 24 (.bank i)
  (a.1, a.1 + 0x4000, a.1 + a.2 - 0x10000)

/-- The first and last 64 KiB unit of a span of whole units. -/
def units (at_ size : Nat) : Nat × Nat := (at_ / 65536, (at_ + size) / 65536 - 1)

/-- The units that the boot ROM's regions take: the banks without the last unit of each, and the settings copies (17 R472). -/
def xrUnits : List (Nat × Nat) :=
  ((List.finRange 6).map fun i => let p := bankParts i; units p.1 (p.2.2 - p.1)) ++
  (List.finRange 2).map fun i => let a := flashArea 24 (.settings i); units a.1 a.2

/-- The encrypted regions: over each encrypted bank and each settings copy, while a storage key exists (17 R472). -/
def State.defineRegions (s : State) : State :=
  let has (i : Nat) : Bool := if h : i < 6 then s.img.bank[i].encrypted else true
  let l := (xrUnits.zipIdx.filter fun e => s.storageKey && has e.2).map fun e =>
    bitAt 31 true ||| fieldAt 16 e.1.2 ||| fieldAt 0 e.1.1
  s.modSer fun r => { r with xr := Vector.ofFn fun i => l.getD i.val 0#32 }

/-- The bytes of the flash as an XIP read at an address gives them, where `raw` is what the flash holds: 0 beyond its size, and in an
encrypted region the 4 KiB data unit decrypted under the storage key, its tweak the number of the unit (13 R377). -/
def State.xipByte (s : State) (raw : Nat → Byte) (a : Nat) : Byte :=
  let unit := a / 4096
  let inXr := s.ser.xr.any fun x => bit x 31 && decide (bits x 11 0 ≤ a / 65536) && decide (a / 65536 ≤ bits x 27 16)
  if 2 ^ bits s.ser.info 31 27 ≤ a then 0#8
  else if inXr then (Config.xtsOpen unit ((List.range 4096).map fun i => raw (4096 * unit + i))).getD (a % 4096) 0#8
  else raw a

/-! The OTP (16 R444, R445, R449 to R451). -/

/-- A marker word of a burnt pair that is not burnt. -/
def State.markerBad (s : State) : Bool :=
  (List.range 5).any fun k => s.pairBurnt k && (decide (s.markOnes (0x100 + 2 * k) < 28) || decide (s.markOnes (0x101 + 2 * k) < 28))

/-- Every bit of both words of each burnt pair is burnt, where the burn succeeds. -/
def State.burnMarkers (s : State) (ok : Bool) : State :=
  if !ok then s
  else (((List.range 10).map fun i => 0x100 + i).filter fun w =>
    s.pairBurnt ((w - 0x100) / 2) && s.otpWord w ≠ 0xFFFFFFFF#32).foldl (fun s w => s.burn w 0xFFFFFFFF#32) s

/-- The outcome of patch entry i: 0 empty, 1 applied, 2 REVISION, 3 CHECK. -/
def State.patchOutcome (s : State) (i : Nat) : Nat :=
  let w (k : Nat) : Word := s.otpWord (0x200 + 4 * i + k)
  if (List.range 4).all fun k => w k = 0#32 then 0
  else if bits (w 0) 31 24 ≠ 0xA5 || crc32c (wordBytes (w 0) ++ wordBytes (w 1) ++ wordBytes (w 2)) ≠ w 3 then 3
  else if bits (w 0) 15 0 ≠ (if bit (w 0) 16 then bits s.sec.romRev 31 16 else bits s.sec.romRev 15 0) then 2
  else 1

/-- OTP_PATCH. -/
def State.patchOutcomes (s : State) : BitVec 128 :=
  BitVec.ofNat 128 ((List.range 64).foldl (fun v i => v + s.patchOutcome i * 4 ^ i) 0)

/-- The patch comparators as a boot loads them: whether the enclave's ROM is meant, ADDR and VALUE, in ascending order. -/
def State.romPatches (s : State) : List (Bool × Word × Word) :=
  ((List.range 64).filter fun i => s.patchOutcome i = 1).map fun i =>
    (bit (s.otpWord (0x200 + 4 * i)) 16, s.otpWord (0x201 + 4 * i), s.otpWord (0x202 + 4 * i))

/-- What the patch comparators give for a fetch or read of a word of a ROM, in place of what it holds: the highest entry that
names it wins (16 R451). -/
def State.romRead (s : State) (enclave : Bool) (addr : Word) (rom : Word) : Word :=
  match s.sec.romPatch.reverse.find? fun e => e.1 = enclave && e.2.1 = addr with
  | some e => e.2.2
  | none => rom

/-- The OTP at a boot: markers, life-cycle state, integrity, lock bits, patches, and what the enclave unseals. -/
def State.bootOtp (s : State) (inp : BootIn) : State :=
  let s := s.burnMarkers inp.markersBurn
  let lc := s.lcOf
  let bad := s.markerBad || (lc ≠ 0 && !s.trimCrcOk)
  let p := s.patchOutcomes
  let comps := s.romPatches
  let id := s.identityBytes
  let s := s.modSec fun c =>
    let alive := c.sealed && lc ≠ 4 && lc ≠ 5
    { c with lc := BitVec.ofNat 3 lc, lcPending := false, lcNext := 0#3, otpOk := !bad, otpBad := bad, otpLock := lockAtBoot lc, patch := p, romPatch := comps
             ready := true, identity := alive, certOk := alive && !c.cert.isEmpty && sha384 c.cert = id }
  if bad then s.raiseCond 1103 true else s

/-! The selection of a set (17 R470 to R472, R480). -/

/-- The cryptography's verdicts on bank i. -/
def BootInOk (l : List (Nat × Nat)) (i : Fin 6) : Bool := l.contains (i.val / 2, i.val % 2)

/-- Bank i passes rules 2, 5 and 6 of R470. -/
def State.bootPass (s : State) (inp : BootIn) (i : Fin 6) : Bool := s.bankPass i (BootInOk inp.sigOk i) (BootInOk inp.readOk i)

/-- The slots of the valid signatures of a checked bank. Where one signature of a header does not verify, which
of its slots show is open. -/
def State.bootSlots (s : State) (inp : BootIn) (i : Fin 6) : BitVec 8 :=
  let v := s.sigSlots (s.hdrOf i)
  if BootInOk inp.sigOk i then v else v &&& (Config.freeWord (s.freeCtr + i.val)).setWidth 8

/-- The sets up to the first that qualifies have been checked: QUALIFIED and SLOTS of their banks show the verdict,
and QUALIFIED of banks not reached shows whether their state lets them take part. -/
def State.showChecks (s : State) (inp : BootIn) (checked : List ImgSet) (trial : Bool) : State :=
  let reached : List (Fin 6) := checked.flatMap setBanks
  let show_ (i : Fin 6) : ImgBank :=
    let b := s.img.bank[i]
    if reached.contains i then { b with qualified := s.bootPass inp i, slots := s.bootSlots inp i }
    else { b with qualified := b.st = BankSt.confirmed || (trial && b.st = BankSt.trial), slots := 0#8 }
  let s := s.modImg fun m => { m with bank := Vector.ofFn show_ }
  s.bumpBy 6

/-- Sets from the front up to and with the first that passes. -/
def upTo (p : ImgSet → Bool) : List ImgSet → List ImgSet
  | [] => []
  | t :: l => if p t then [t] else t :: upTo p l

/-- The running set is chosen. -/
def State.runThe (s : State) (t : ImgSet) (trial : Bool) : State :=
  let rb : BitVec 3 := setBitW (setBitW (setBitW 0#3 0 t.1) 1 t.2.1) 2 t.2.2
  { s.modImg fun m => { m with runBank := rb, trial := trial, trialTimer := if trial then some (30, s.cref) else none } with sup := SupMode.boot }

/-- SERVICE mode: the host link and a CAN tunnel on CAN0 are served, and every bank is blocked (17 R473). -/
def State.service (s : State) : State :=
  let s := { s with sup := SupMode.service, can := s.can.set 0 {} }
  let s := (s.modImg fun m => { m with service := true }).modHst fun h => { h with ready := true, cfgRetry := false }
  let readable := (s.copyBlock 0).isSome || (s.copyBlock 1).isSome
  let s := if Config.settingsCan && readable then
      let w (k : Nat) : Word := Config.settingsWord (0x10000 + k)
      (s.modCan 0 fun k => { k with nbt := w 1, dbt := w 2, tdc := w 3, tun := w 4 }).canCtrl 0 (w 0)
    else s.canCtrl 0 0x13#32
  s.evalGates

/-- The boot ROM tries the sets of CONFIRMED banks in order, and enters SERVICE mode where none qualifies. -/
def State.selectConfirmed (s : State) (inp : BootIn) (before : List ImgSet) : State :=
  let l := upTo (s.setPass (s.bootPass inp)) s.bootOrder
  let s' := s.showChecks inp (before ++ l) false
  match l.getLast? with
  | some t => if s.setPass (s.bootPass inp) t then s'.runThe t false else s'.service
  | none => s'.service

/-- Some bank is TRIAL. -/
def State.hasTrial (s : State) : Bool := s.img.bank.any fun b => b.st = BankSt.trial

/-- The selection of a set: a trial that has been booted before, or whose set does not qualify, has failed. -/
def State.selectSet (s : State) (inp : BootIn) : State :=
  if !s.hasTrial then s.selectConfirmed inp []
  else if s.img.bank.any (fun b => b.st = BankSt.trial && b.booted) then (s.failTrial 3#3).selectConfirmed inp []
  else
    let named (k : Fin 3) : Bool := s.img.bank[bankIdx k false].st = BankSt.trial || s.img.bank[bankIdx k true].st = BankSt.trial
    let s := s.modTrial fun b => { b with booted := true }
    match s.setWith .trial named with
    | some t =>
      if s.setPass (s.bootPass inp) t then (s.showChecks inp [t] true).runThe t true
      else (s.failTrial 4#3).selectConfirmed inp [t]
    | none => (s.failTrial 4#3).selectConfirmed inp []

/-! RAILS_GOOD (14 R402). -/

/-- The rails are in regulation, the PLLs locked and the system domains on: 73 to 77 and 79, and 72 with the
reference clock (01 R13). -/
def State.railsUp (s : State) (refclk : Bool) : State :=
  let s := { s with clk := { xtal := true, plle := true, pllp := true, plln := true, ckh := refclk } }
  let on : BitVec 80 := [73, 74, 75, 76, 77, 79].foldl (fun m k => setBitW m k true) (setBitW 0#80 72 refclk)
  let s := s.modPwr fun p => { p with
    mode := .active, rails := 0x1F#5, buckOn := !p.uv, pdOn := on, pdReq := 0#80, fanStopped := false }
  (s.modFlt fun f => { f with clockCut := false }).modHst fun h => { h with linkUp := !h.perstLow && refclk }

/-- One run of the boot ROM: OTP, regions and the set. -/
def State.bootRom (s : State) (inp : BootIn) : State := ((s.bootOtp inp).defineRegions).selectSet inp

/-- RAILS_GOOD: the boot ROM runs, after a start of the module or after a restart of the supervisor alone. -/
def execRailsGood (inp : BootIn) (s : State) : Host.Outcome State Fault Refusal :=
  .next (
    if s.pwr.mode = PwrMode.start && !s.pwr.vcoreLow then ((s.railsUp inp.refclk).bringUpFlash inp).bootRom inp
    else if s.sup = SupMode.boot && s.pwr.mode.live && !s.sec.ready then s.bootRom inp
    else s)

/-! SUPERVISOR_READY (11 R307, 14 R402, 17 R483 to R486). -/

/-- SET_FMT of the running SVF. -/
def State.setFmt (s : State) : BitVec 16 := match s.runHdr 0 with | some h => h.setFmt | none => 0#16

/-- IMG_STATUS shows how the settings were applied; copy 3 is none. -/
def State.settingsShow (s : State) (flags : BitVec 8) (copy : BitVec 2) (seq : Word) (inUse : List Byte) : State :=
  s.modImg fun m => { m with
    setFlags := flags ||| (if m.preserved.isSome then 0x40#8 else 0#8), setCopy := copy, setSeq := seq, inUse := inUse }

/-- Default settings, whose bytes the spec leaves open. -/
def State.defaults (s : State) (flags : BitVec 8) : State :=
  (s.settingsShow (flags ||| 0x10#8) 3#2 0#32 (Config.freeBytes s.freeCtr 0)).bump

/-- A migrated block: format, and a payload that the spec leaves open. -/
def State.migrated (s : State) (b : SettingsBlock) : SettingsBlock :=
  { b with format := s.setFmt, sliceFmt := 0#16, sliceLen := 0#32, seq := b.seq + 1#32
           payload := Config.freeBytes s.freeCtr b.payload.length }

/-- Copy i, the newest valid, is applied by its FORMAT. -/
def State.applyCopy (s : State) (i : Fin 2) (b : SettingsBlock) (inp : ReadyIn) : State :=
  let fmt := s.setFmt
  let s := s.modImg fun m => { m with fmtStored := b.format, preserved := if m.preserved = some i && b.format ≤ fmt then none else m.preserved }
  if b.format = fmt then s.settingsShow 0#8 (BitVec.ofNat 2 i.val) b.seq (blockBytes b)
  else if b.format < fmt then
    if !inp.migrateOk then s.defaults 0x80#8
    else
      let m := s.migrated b
      let dest := match s.img.preserved with | some k => otherCopy k | none => otherCopy i
      let s := s.bump.writeCopy dest m m.seq
      s.settingsShow 0x04#8 (BitVec.ofNat 2 dest.val) m.seq (blockBytes m)
  else
    let s := s.modImg fun m => { m with preserved := some i }
    let usable := b.sliceFmt ≠ 0#16 && decide (b.sliceFmt ≤ fmt) && (b.sliceFmt = fmt || inp.migrateOk)
    if usable then
      let slice := b.payload.take b.sliceLen.toNat
      let m : SettingsBlock := if b.sliceFmt = fmt then { b with format := fmt, sliceFmt := 0#16, sliceLen := 0#32, payload := slice }
        else s.migrated { b with payload := slice, seq := b.seq - 1#32 }
      s.bump.settingsShow 0x20#8 (BitVec.ofNat 2 i.val) b.seq (blockBytes m)
    else s.defaults (if b.sliceFmt ≠ 0#16 && decide (b.sliceFmt ≤ fmt) then 0x80#8 else 0#8)

/-- The settings are read and applied. Over a CYA0804 block the defaults are written. -/
def State.applySettings (s : State) (inp : ReadyIn) : State :=
  let s := s.modImg fun m => { m with fmtFirmware := s.setFmt }
  match s.newestCopy with
  | some i => match s.copyBlock i with
    | some b => s.applyCopy i b inp
    | none => s.defaults 0#8
  | none =>
    let old (i : Fin 2) : Bool := match s.copyBlock i with | some b => b.magicCy08 && !b.magicCyst | none => false
    let foreign := (if old 0 then [0] else []) ++ if old 1 then [1] else []
    if foreign.isEmpty then s.defaults 0#8
    else
      let blk : SettingsBlock := { format := s.setFmt, payload := Config.freeBytes (s.freeCtr + 1) 0 }
      let s := foreign.foldl (fun s i => s.writeCopy i blk (Config.freeWord s.freeCtr)) s
      (s.bumpBy 2).defaults 0x08#8

/-- FLT_CLASS and FLT_ESC are as the settings have them, where a block is applied; their places in it are open. -/
def State.applyClasses (s : State) : State :=
  if s.img.setCopy = 3#2 || s.flt.lock then s
  else (((List.range 1216).filter srcListed).foldl (fun s k =>
    (s.setClass k ((Config.settingsWord (0x20000 + k)).setWidth 3)).setEsc k ((Config.settingsWord (0x30000 + k)).setWidth 24))) s

/-- The present banks and axes, CAN and telemetry come on. -/
def State.domainsOn (s : State) : State :=
  if s.pwr.pdReq ≠ 0#80 then s
  else
    let l := (s.presentBanks.map fun (b : BankId) => 64 + b.val) ++ s.present.map fun (n : AxisId) => n.val
    let s := s.modPwr fun p => { p with pdReq := (l ++ [73, 76]).foldl (fun m k => setBitW m k true) 0#80 }
    l.foldl (fun s k => s.domainUp k) s

/-- The locks that the settings ask for are set after all else is applied (02 R63, 15 R441, 16 R449, 18 R501). -/
def State.applyLocks (s : State) (inp : ReadyIn) : State :=
  let s := s.forBanks (s.presentBanks.filter fun b => inp.lockBanks.getLsbD b.val) fun b s => s.gdrLock b
  let s := if inp.lockFlt then s.fltLock else s
  let s := if inp.lockTly then s.tlyLock else s
  s.otpLockSet (inp.lockOtp.setWidth 32)

/-- What a confirmed set still asks of the OTP is burnt before the locks (17 R481). -/
def State.bootKeyOps (s : State) : State := if s.img.trial then s else (s.applyKeyOps none).1

/-- SUPERVISOR_READY. -/
def State.supReady (s : State) (inp : ReadyIn) : State :=
  let s := { s with sup := SupMode.ready }
  let s := s.modHst fun h => { h with ready := true, cfgRetry := false }
  let s := s.applySettings inp
  let s := s.applyClasses.bootKeyOps.tlyBoot
  let s := (s.domainsOn).applyLocks inp
  let s := ((s.raiseCond 1100 false).raiseCond 1104 false).raiseCond 1105 false
  let s := s.forAxes s.present fun n s => s.noteTorque n
  let s := if s.img.trial then s.modImg fun m => { m with awaitConfirm := true, trialTimer := some (600, s.cref) } else s
  s.evalGates.fanEval.injSup

def execSupervisorReady (inp : ReadyIn) (s : State) : Host.Outcome State Fault Refusal :=
  .next (if s.sup = SupMode.boot && s.pwr.mode.live && s.sec.ready then s.supReady inp else s)

end Sys2Proof.Machine
end

