-- ==== Sys2Proof/Machine/Debug.lean ====
section
/-! DEFINITION. Debug through the TAP and by token (16 R458 to R460). -/

namespace Sys2Proof.Machine

/-- A debug target that R458 opens or closes. -/
inductive DbgKind where
  | supervisor | engine | enclave | scan | keep
  deriving DecidableEq, Repr

/-- R458's table: the target is open in the life-cycle state, with the scopes of a token in FIELD. Beyond IDCODE
nothing answers in SLEEP. -/
def State.dbgOpen (s : State) (k : DbgKind) : Bool :=
  s.pwr.mode.live &&
  match s.sec.lc.toNat, k with
  | 0, .keep | 1, .keep => false
  | 0, _ | 1, _ => true
  | 2, .supervisor | 2, .engine | 2, .keep => true
  | 3, .supervisor => s.sec.tokenOpen && s.sec.scope.getLsbD 0
  | 3, .engine => s.sec.tokenOpen && s.sec.scope.getLsbD 1
  | 4, _ => true
  | _, _ => false

/-- IDCODE of the variant. -/
def State.idcode (s : State) : Word := fieldAt 28 1 ||| fieldAt 12 (bits s.variant.devId 31 16) ||| fieldAt 1 0x3A5 ||| 1#32

/-- A TAP access ends with ERR and returns 0. -/
def State.tapFail (s : State) : State := s.modSec fun c => { c with tapErr := true, tapData := 0#32 }

/-- A TAP access is served and returns a value. It counts as an access beyond IDCODE. -/
def State.tapServe (s : State) (v : Word) : State :=
  s.modSec fun c => { c with tapErr := false, tapData := v, jtagActive := true }

/-- The domain of the target of an access. -/
def State.tapOn (s : State) : DbgTarget → Bool
  | .idcode => true
  | .supervisor _ => s.sysOn 79
  | .engine n _ => s.axOn n
  | .enclave => s.sysOn 77
  | .register o => s.unitPresent (regAt o).1 && s.unitOn (regAt o).1

/-- What R458 asks for a target. -/
def tapKind : DbgTarget → DbgKind
  | .engine _ _ => .engine
  | .enclave => .enclave
  | .idcode | .supervisor _ | .register _ => .supervisor

/-- EXTEST_SELECT: while it is selected every gate enable is withdrawn. -/
def execExtestSelect (on : Bool) (s : State) : Host.Outcome State Fault Refusal :=
  .next (if on && !s.dbgOpen .scan then (if s.pwr.mode = PwrMode.off then s else s.tapFail)
    else ((s.modSec fun c => { c with extest := on, tapErr := false, jtagActive := c.jtagActive || on })).evalGates)

/-- KEEP_ALIVE: the named axis domains are held on through DOZE. -/
def execKeepAlive (axes : Dword) (s : State) : Host.Outcome State Fault Refusal :=
  .next (if s.pwr.mode = PwrMode.off then s
    else if !s.dbgOpen .keep || (axesOf axes).any (fun n => !s.axOn n) then s.tapFail
    else s.modSec fun c => { c with keep := axes, tapErr := false, jtagActive := true })

/-- DEBUG_TOKEN CLOSE: token debug ends, and every halt with it; what was deferred is judged (16 R459). -/
def execDebugTokenClose (h : DescHdr) (s : State) : Host.Outcome State Fault Refusal :=
  .next (s.decodeNow h false (.debugTokenClose h) (fun _ => none)
    (fun s =>
      let s := s.modSec fun c => { c with tokenOpen := false, scope := 0#2, supHalted := false }
      let s := s.forAxes s.present fun n s => s.debugResume n
      s.judgeDeferred.done h .ok))

end Sys2Proof.Machine
end

