-- ==== Sys2Proof/Machine/Access.lean ====
section
/-! DEFINITION. Reads and writes of BAR0 registers (10 R299, R300; 21 R531): what a read returns and clears, and
which bits of each register a host write changes, with the flags that a refused write sets. -/

namespace Sys2Proof.Machine

/-! Reads. -/

/-- The LO registers of the pairs that R300 governs, which are all read-only. -/
def isPairLo (o : Nat) : Bool :=
  [0x1010, 0x28010, 0x28044, 0x2804C, 0x50010, 0x50018].contains o ||
  (decide (0x80000 ≤ o) && decide (o < 0x100000) && [0xC28, 0xC30, 0xC38].contains ((o - 0x80000) % 0x2000))

/-- The HI register of such a pair. -/
def isPairHi (o : Nat) : Bool := decide (4 ≤ o) && isPairLo (o - 4)

/-- The number of a requester. -/
def reqIdx : Requester → Fin 3
  | .host => 0 | .supervisor => 1 | .jtag => 2

/-- The HI word that a requester has latched; 0 where it has read no LO. -/
def State.latched (s : State) (r : Fin 3) (lo : Nat) : Word :=
  match s.hiLatch.find? fun e => e.1 = r && e.2.1 = lo with
  | some e => e.2.2
  | none => 0#32

/-- The value that a read returns to a requester. A unit that is absent or off reads 0 (00 R3, 14 R411). -/
def State.readValue (s : State) (r : Fin 3) (o : Nat) : Word :=
  if isPairHi o && s.unitOn (regAt o).1 then s.latched r (o - 4) else s.regRead o

/-- A read of LO latches HI for its requester. -/
def State.latchHi (s : State) (r : Fin 3) (o : Nat) : State :=
  if isPairLo o then
    { s with hiLatch := (r, o, s.regRead (o + 4)) :: s.hiLatch.filter fun (e : Fin 3 × Nat × Word) => !(e.1 = r && e.2.1 = o) }
  else s

/-- A read of the register at an offset. One that is not aligned returns 0 and has no side effect. -/
def State.readReg (s : State) (r : Requester) (o : Nat) : State :=
  if o % 4 ≠ 0 then { s with readData := 0#32 }
  else ({ s with readData := s.readValue (reqIdx r) o }.latchHi (reqIdx r) o).clearRc o

/-- A requester can read: the host while its link is up, the supervisor while it runs, the TAP while R458 opens the
supervisor's side of the module to it. -/
def State.canRead (s : State) : Requester → Bool
  | .host => s.bar0
  | .supervisor => s.supRuns
  | .jtag => s.dbgOpen .supervisor

/-- Byte enables that leave no gap and are not all clear. -/
def enOk (en : BitVec 4) : Bool := [1#4, 2#4, 4#4, 8#4, 3#4, 6#4, 12#4, 7#4, 14#4, 15#4].contains en

/-- The bytes that byte enables name. -/
def enMask (en : BitVec 4) : Word :=
  (List.range 4).foldl (fun m i => if en.getLsbD i then m ||| (0xFF#32 <<< (8 * i)) else m) 0#32

/-- READ_CLEAR: a read by the host. One of fewer bytes returns those and has every side effect; one whose byte enables
are clear or leave a gap returns 0 and has none (21 R531). -/
def execReadClear (offset : Nat) (byteEn : BitVec 4) (s : State) : Host.Outcome State Fault Refusal :=
  .next (if !s.canRead .host then s
    else if !enOk byteEn then { s with readData := 0#32 }
    else
      let t := s.readReg .host offset
      { t with readData := t.readData &&& enMask byteEn })

/-- PAIR_LO_READ: a read by any requester. -/
def execPairLoRead (who : Requester) (offset : Nat) (s : State) : Host.Outcome State Fault Refusal :=
  .next (if s.canRead who then s.readReg who offset else s)

/-- JTAG_ACCESS (16 R458, R460). What a core, an engine or the enclave returns is open. A register is read as any
requester reads it, and reached through the supervisor (DEDUCED, log entry 21). -/
def State.jtag (s : State) (t : DbgTarget) : State :=
  if s.pwr.mode = PwrMode.off then s
  else match t with
  | .idcode => s.modSec fun c => { c with tapErr := false, tapData := s.idcode }
  | .register o =>
    if !s.dbgOpen .supervisor || !s.tapOn t then s.tapFail
    else
      let v := if o % 4 = 0 then s.readValue 2 o else 0#32
      (s.tapServe v).readReg .jtag o
  | _ =>
    if !s.dbgOpen (tapKind t) || !s.tapOn t then s.tapFail
    else
      let s := (s.tapServe (Config.freeWord s.freeCtr)).bump
      match t with
      | .supervisor halt => (s.modSec fun c => { c with supHalted := halt }).judgeDeferred.injSup
      | _ => s

def execJtagAccess (t : DbgTarget) (s : State) : Host.Outcome State Fault Refusal := .next (s.jtag t)

/-! Writes of the PWM registers (04 R103, R120 to R131). -/

/-- The shadow group with a register written. -/
def PwmGroup.put (g : PwmGroup) (r : Nat) (v : Word) : PwmGroup :=
  match r with
  | 0x004 => { g with per := v.setWidth 16 }
  | 0x008 => { g with cmpA := v &&& 0xC01FFFFF#32 }
  | 0x00C => { g with cmpB := v &&& 0xC01FFFFF#32 }
  | 0x010 => { g with cmpC := v &&& 0xC01FFFFF#32 }
  | 0x014 => { g with dtA := v &&& 0x7FFF7FFF#32 }
  | 0x018 => { g with dtB := v &&& 0x7FFF7FFF#32 }
  | 0x01C => { g with dtC := v &&& 0x7FFF7FFF#32 }
  | 0x020 => { g with phase := v.setWidth 17 }
  | 0x024 => { g with trg := v }
  | _ => g

/-- The set-up registers with a register written. -/
def PwmSetup.put (p : PwmSetup) (r : Nat) (v : Word) : PwmSetup :=
  match r with
  | 0x000 => { p with ctrl := v &&& 0x000001F3#32 }
  | 0x028 => { p with trgCfg := v &&& 0x0000000F#32 }
  | 0x02C => { p with win := v &&& 0x0000FFFF#32 }
  | 0x030 => { p with bst := v &&& 0x003FFFFF#32 }
  | 0x034 => { p with hem := v &&& 0x0000FFFF#32 }
  | 0x038 => { p with evt := v &&& 0x00007FFF#32 }
  | 0x03C => { p with dbg := v &&& 0x000001FF#32 }
  | _ => p

/-- WR_REJECT of PWM_STATUS. -/
def Pwm.reject (w : Pwm) : Pwm := { w with sticky := w.sticky ||| 0x10000000#32 }

/-- A host write of a PWM register: PWM_STATUS at any time, every other only in HOLD. -/
def State.pwmWrite (s : State) (n : AxisId) (r : Nat) (v : Word) : State :=
  if r = 0x040 then s.modPwm n fun w => { w with sticky := w.sticky &&& ~~~ (v &&& 0x3FF80000#32) }
  else if !s.inHold n || (r = 0x004 && decide (bits v 15 0 < 500)) then s.modPwm n Pwm.reject
  else s.modPwm n fun w =>
    let w := w.capture s.cref
    { w with shadow := w.shadow.put r v, setup := w.setup.put r v }

/-! Writes that cross to the driver die (02 R52 to R63, 03 R83 to R90, 07 R217). -/

/-- A write joins the queue of its bank's downward lanes. A bank that is off takes it with its power-up. -/
def State.sendDown (s : State) (b : BankId) (t off : Nat) (v : Word) : State :=
  if s.bankOn b then s.modBank b fun k => { k with down := k.down ++ [(t, off, v)] } else s

/-- GDR registers, read-only under GDR_LOCK. -/
def State.gdrWrite (s : State) (n : AxisId) (r : Nat) (v : Word) : State :=
  if (s.bnk n.bank).lock then s
  else
    let go (m : Word) (f : Gdr → Word → Gdr) : State := (s.modGdr n fun d => f d (v &&& m)).sendDown n.bank (n.val % 8) r (v &&& m)
    match r with
    | 0x400 => go 0x00000003#32 fun d w => { d with ctrl := w }
    | 0x404 => go 0x3F3F3F3F#32 fun d w => { d with vdsCfg := w }
    | 0x408 => go 0x0000000F#32 fun d w => { d with softCfg := w }
    | _ => s

/-- SNS registers. Outside HOLD a write of SNS_CFG changes CAL_AUTO alone and is flagged. -/
def State.snsWrite (s : State) (n : AxisId) (r : Nat) (v : Word) : State :=
  match r with
  | 0x800 =>
    let hold := s.inHold n
    let m : Word := if hold then 0x00003FFB#32 else 0x00000008#32
    let w := maskWrite (s.axis n).sns.cfg v m
    (s.modSns n fun q => { q with cfg := w, sticky := if hold then q.sticky else q.sticky ||| 0x01000000#32 }).sendDown n.bank (n.val % 8) r w
  | 0x804 =>
    if (s.axis n).sns.lock then s
    else
      let w := v &&& 0x0002FFFF#32
      (s.modSns n fun q => { q with cmp := w, lock := bit v 31 }).sendDown n.bank (n.val % 8) r w
  | 0x80C => s.modSns n fun q => { q with sticky := q.sticky &&& ~~~ (v &&& 0x01E00000#32) }
  | 0x824 => if bit v 0 then s.calRequest n else s
  | _ => s

/-- BNK registers. TEST_PULSE outside HOLD leaves BRK_MODE as it was (02 R51). A write of 1 to GATE_ALLOW is ignored while a BANK reaction is outstanding (15 R426). -/
def State.bankWrite (s : State) (b : BankId) (r : Nat) (v : Word) : State :=
  match r with
  | 0x000 =>
    if bit v 0 && s.flt.bankOut.getLsbD b.val then s
    else (s.modBank b fun k => { k with allow := bit v 0 }).evalGate b
  | 0x00C =>
    if (s.bnk b).lock then s
    else
      let m : Word := if v.setWidth 2 = 2#2 && !(bankAxes b).all s.inHold then 0xFFFFFF00#32 else 0xFFFFFF03#32
      let w := maskWrite ((s.bnk b).brkCfg &&& 3#32) v m
      (s.modBank b fun k => { k with brkCfg := w }).sendDown b 8 r w
  | 0x014 => if bit v 0 then s.gdrLock b else s
  | 0x024 => (s.modBank b fun k => { k with brkLvl := v &&& 0x0FFF0FFF#32 }).sendDown b 8 r (v &&& 0x0FFF0FFF#32)
  | _ => s

/-! Writes of the FBK registers (05 R153 to R159). -/

/-- The set-up registers with a register written. -/
def Fbk.put (f : Fbk) (r : Nat) (v : Word) : Fbk :=
  match r with
  | 0xC00 => { f with ctrl := v &&& 0x0000FF6F#32 }
  | 0xC04 => { f with filt := v }
  | 0xC08 => { f with cpr := v &&& 0x00FFFFFF#32 }
  | 0xC0C => { f with idxCfg := v }
  | 0xC10 => { f with ssiCfg := v &&& 0xFF3F07FF#32 }
  | 0xC14 => { f with ssiFmt := v &&& 0xFF3F3FBF#32 }
  | 0xC18 => { f with lossCfg := v &&& 0x0000FFFF#32 }
  | _ => f

/-- A set-up register is written; a base change restarts the interface. -/
def Fbk.setUp (f : Fbk) (r : Nat) (v : Word) (t : Nat) : Fbk :=
  let g := f.put r v
  if f.changesBase g.ctrl g.cpr then g.baseChange f.mode t else g

/-- FBK registers. The supervisor carries a write of FBK_CPR into E4.73 (06 R178). -/
def State.fbkWrite (s : State) (n : AxisId) (r : Nat) (v : Word) : State :=
  if r ≤ 0xC18 then
    if !s.inHold n || (r = 0xC14 && decide (ssiLen v < ssiShift v + ssiWidth v)) then
      s.modFbk n Fbk.reject
    else
      let s := s.fbkBase n fun f => f.setUp r v s.cref
      if r = 0xC08 && !(s.axis n).clu.role then s.setE n 4 73 (fieldAt 0 (s.axis n).fbk.cprVal) else s.indexCheck n
  else match r with
  | 0xC1C =>
    let s := if bit v 1 then s.modFbk n Fbk.arm else s
    if bit v 0 then s.presetPos n true else s
  | 0xC20 => s.modFbk n fun f => { f with presetLo := v &&& 0x00FFFFFF#32 }
  | 0xC24 => s.modFbk n fun f => { f with presetHi := v }
  | 0xC58 => s.modFbk n fun f => f.clearSticky (v.setWidth 8)
  | _ => s

/-! Writes of the CLU registers (09 R274 to R278). -/

def State.cluWrite (s : State) (n : AxisId) (r : Nat) (v : Word) : State :=
  match r with
  | 0x1000 => s.modClu n fun c => { c with ctrl := v &&& 0x0000000B#32 }
  | 0x100C => s.modClu n fun c => { c with miss := c.miss &&& ~~~ v }
  | _ =>
    if 0x1040 ≤ r && r < 0x1080 then
      s.modEng n (Fin.ofNat 16 (r % 0x40 / 4)) fun x => { x with sticky := x.sticky &&& ~~~ (v &&& 0x7E#32).setWidth 7 }
    else s

/-- The registers of an axis. -/
def State.axisWrite (s : State) (n : AxisId) (r : Nat) (v : Word) : State :=
  if r < 0x400 then s.pwmWrite n r v
  else if r < 0x800 then s.gdrWrite n r v
  else if r < 0xC00 then s.snsWrite n r v
  else if r < 0x1000 then s.fbkWrite n r v
  else s.cluWrite n r v

/-! Writes of the PWR, RST and FLT registers (07 R218; 14 R419; 15 R441; 21 R537). -/

/-- PWR_STATE: REQ_REJECT is cleared by a 1, and REQ acts. -/
def State.stateWrite (s : State) (v : Word) : State :=
  let s := if bit v 31 then s.modPwr fun p => { p with reqReject := false } else s
  s.pwrReq (bits v 1 0)

/-- PWR_GOV_LVL: VIN_SOFT must lie below VIN_HARD. -/
def State.govLvlWrite (s : State) (v : Word) : State :=
  if bits v 27 16 ≤ bits v 11 0 then s.modGov fun g => { g with wrReject := true }
  else s.modGov fun g => { g with lvl := v &&& 0x0FFF0FFF#32 }

def State.pwrWrite (s : State) (o : Nat) (v : Word) : State :=
  match o with
  | 0x2000 => s.stateWrite v
  | 0x2010 => s.pdWrite 0 v
  | 0x2014 => s.pdWrite 1 v
  | 0x2018 => s.pdWrite 2 v
  | 0x2030 => s.modPwr fun p => { p with dozeKeep := join64 (hi32 p.dozeKeep) v }
  | 0x2034 => s.modPwr fun p => { p with dozeKeep := join64 v (lo32 p.dozeKeep) }
  | 0x2040 => s.modPwr fun p => { p with wakeCfg := v &&& 0x0000001F#32 }
  | 0x2044 => s.modPwr fun p => { p with wakeTimer := v }
  | 0x2048 => s.modPwr fun p => { p with wakeCause := p.wakeCause &&& ~~~ v.setWidth 7 }
  | 0x2050 => (s.modPwr fun p => { p with fanCfg := v &&& 0xFFFFFF03#32 }).fanEval
  | 0x2054 => (s.modPwr fun p => { p with fanCurve := v &&& 0x0000FFFF#32 }).fanEval
  | 0x2800 => s.ntcEnable v
  | 0x2900 => s.modGov fun g => { g with ctrl := v &&& 0x000000FF#32 }
  | 0x2904 => s.govLvlWrite v
  | 0x2908 => s.modGov fun g => { g with cfg := v }
  | 0x2940 => if bit v 28 then s.modGov fun g => { g with wrReject := false } else s
  | 0x3000 => { s with rst := s.rst &&& ~~~ v.setWidth 6 }
  | _ =>
    if 0x2910 ≤ o && o < 0x2930 then
      s.modGov fun g => { g with brk := g.brk.set (Fin.ofNat 8 ((o - 0x2910) / 4)) (v &&& 0x0000FFFF#32) }
    else s

/-- FLT registers. FLT_CLASS and FLT_ESC are read-only under FLT_LOCK. -/
def State.fltWrite (s : State) (o : Nat) (v : Word) : State :=
  match o with
  | 0x4000 => s.modFlt fun f => { f with ctrl := v &&& 0x00000007#32 }
  | 0x4014 => if bit v 0 then s.fltLock else s
  | 0x4020 => s.injWrite v
  | _ =>
    if 0x4100 ≤ o && o < 0x41C0 then
      let m : BitVec 1536 := (v.setWidth 1536) <<< (32 * ((o - 0x4100) / 4))
      s.modFlt fun f => { f with sticky := f.sticky &&& ~~~ m }
    else if s.flt.lock then s
    else if 0x4400 ≤ o && o < 0x4700 then
      let i := 8 * ((o - 0x4400) / 4)
      (List.range 8).foldl (fun s k => s.setClass (i + k) (BitVec.ofNat 3 (bits v (4 * k + 2) (4 * k)))) s
    else if 0x5000 ≤ o && o < 0x6800 then s.setEsc ((o - 0x5000) / 4) (v.setWidth 24)
    else s

/-! Writes of the HST, DBL and TEL registers (11 R310 to R314, R330 to R343). -/

/-- A dword of the MSI-X table: bits 1:0 of an address and bits 31:1 of a vector control read 0. -/
def State.msixWrite (s : State) (k : Nat) (v : Word) : State :=
  let m : Word := if k % 4 = 0 then 0xFFFFFFFC#32 else if k % 4 = 3 then 1#32 else 0xFFFFFFFF#32
  (s.modHst fun h => { h with msix := Mem.set msixDflt h.msix k (v &&& m) }).msixUnmask (BitVec.ofNat 6 (k / 4))

/-- HST_SQ registers of ring q. Its base is not written while it is enabled (DEDUCED). -/
def State.sqWrite (s : State) (q : Fin 64) (r : Nat) (v : Word) : State :=
  let put (f : Sq → Sq) : State := s.modHst fun h => { h with sq := h.sq.set q (f h.sq[q]) }
  match r with
  | 0x00 => put fun x => if x.en then x else { x with baseLo := v }
  | 0x04 => put fun x => if x.en then x else { x with baseHi := v }
  | 0x08 => s.sqCfg q v
  | _ => s

/-- HST_CQ registers of ring c. -/
def State.cqWrite (s : State) (c : Fin 16) (r : Nat) (v : Word) : State :=
  let put (f : Cq → Cq) : State := s.modHst fun h => { h with cq := h.cq.set c (f h.cq[c]) }
  match r with
  | 0x00 => put fun x => if bit x.cfg 31 then x else { x with baseLo := v }
  | 0x04 => put fun x => if bit x.cfg 31 then x else { x with baseHi := v }
  | 0x08 => s.cqCfg c v
  | 0x0C => if bit v 31 then put fun x => { x with headBad := false } else s
  | _ => s

def State.hstWrite (s : State) (o : Nat) (v : Word) : State :=
  if o < 0x8800 then s.sqWrite (Fin.ofNat 64 ((o - 0x8000) / 0x20)) (o % 0x20) v
  else if o < 0x8A00 then s.cqWrite (Fin.ofNat 16 ((o - 0x8800) / 0x20)) (o % 0x20) v
  else if o = 0x8C04 then s.modHst fun h => { h with hbCfg := v &&& 0x0000FFFF#32 }
  else if 0xA000 ≤ o && o < 0xA400 then s.msixWrite ((o - 0xA000) / 4) v
  else if 0xC000 ≤ o && o < 0xC200 then s.sqDoorbell (Fin.ofNat 64 ((o - 0xC000) / 8)) v
  else if 0xC400 ≤ o && o < 0xC480 then s.cqDoorbell (Fin.ofNat 16 ((o - 0xC400) / 8)) v
  else if o = 0xC800 then s.urgent v
  else if o = 0xC808 then s.heartbeat
  else s

def State.telWrite (s : State) (o : Nat) (v : Word) : State :=
  if o = 0x18004 then s.modHst fun h => { h with rpBad := h.rpBad &&& ~~~ v }
  else if 0x18100 ≤ o && o < 0x18300 && o % 16 = 4 then s.telRp (Fin.ofNat 32 ((o - 0x18100) / 16)) v
  else s

/-- The registers of the Tally (18 R492, R501). -/
def State.ledgerWrite (s : State) (o : Nat) (v : Word) : State :=
  match o with
  | 0x50000 => s.tlyRule false v
  | 0x50004 => s.tlyRule true v
  | 0x50008 => if bit v 27 then s.modTly fun t => { t with journalErr := false } else s
  | 0x50020 => if bit v 0 then s.tlyLock else s
  | _ => s

/-! The whole of BAR0. -/

/-- Registers of the units outside CAN, BNK and AX. -/
def State.sysWrite (s : State) (o : Nat) (v : Word) : State :=
  if o < 0x4000 then s.pwrWrite o v
  else if o < 0x8000 then s.fltWrite o v
  else if o < 0x10000 then s.hstWrite o v
  else if 0x18000 ≤ o && o < 0x20000 then s.telWrite o v
  else if 0x28000 ≤ o && o < 0x30000 then (if s.almOn then s.almWrite (o - 0x28000) v else s)
  else if 0x31000 ≤ o && o < 0x39000 then s.portWrite (Fin.ofNat 8 ((o - 0x31000) / 0x1000)) (o % 0x1000) v
  else if 0x39000 ≤ o && o < 0x3A000 then s.spsWrite (o - 0x39000) v
  else if o = 0x44000 then s.otpLockSet v
  else if 0x58000 ≤ o && o < 0x60000 then s.gpWrite (o - 0x58000) v
  else s

/-- A host write of a whole word to an offset: nothing happens where no register is, where its unit is absent or off,
and where the register takes no host writes. -/
def State.regWrite (s : State) (o : Nat) (v : Word) : State :=
  let (u, k) := regAt o
  if k = .none || !s.unitOn u then s
  else
    match u with
    | .axis n => s.axisWrite n ((o - 0x80000) % 0x2000) v
    | .bank b => s.bankWrite b (o % 0x1000) v
    | .can c => s.canWrite c (o % 0x1000) v
    | .ledger => s.ledgerWrite o v
    | .sys _ => s.sysWrite o v

/-- REGISTER_WRITE: only a write of a whole aligned word acts (21 R531). -/
def execRegisterWrite (offset : Nat) (byteEn : BitVec 4) (value : Word) (s : State) : Host.Outcome State Fault Refusal :=
  .next (if s.bar0 && byteEn = 0xF#4 && offset % 4 = 0 then s.regWrite offset value else s)

end Sys2Proof.Machine
end

