-- ==== Sys2Proof/Machine/Dispatch.lean ====
section
/-! DEFINITION. The dispatcher: one arm for each command of the opcode table. -/

namespace Sys2Proof.Machine

def exec (i : Instr) (s : State) : Host.Outcome State Fault Refusal :=
  match i with
  | .motorId h op => Sys2Proof.Machine.execMotorId h op s
  | .inertia h op => Sys2Proof.Machine.execInertia h op s
  | .ripple h op => Sys2Proof.Machine.execRipple h op s
  | .resonance h op => Sys2Proof.Machine.execResonance h op s
  | .patternCommit h select axis kind setId bad => Sys2Proof.Machine.execPatternCommit h select axis kind setId bad s
  | .patternCommitCtm h axis kind bad => Sys2Proof.Machine.execPatternCommitCtm h axis kind bad s
  | .patternDiscard h select axis kind setId => Sys2Proof.Machine.execPatternDiscard h select axis kind setId s
  | .patternWrite h len data => Sys2Proof.Machine.execPatternWrite h len data s
  | .patternRead h axis kind which addr maxLen => Sys2Proof.Machine.execPatternRead h axis kind which addr maxLen s
  | .coordRoleSet h axis => Sys2Proof.Machine.execCoordRoleSet h axis s
  | .coordRoleClear h axis => Sys2Proof.Machine.execCoordRoleClear h axis s
  | .lensMap h axis len table => Sys2Proof.Machine.execLensMap h axis len table s
  | .engineLoad h axis engine budget imgLen imgCrc image => Sys2Proof.Machine.execEngineLoad h axis engine budget imgLen imgCrc image s
  | .engineStop h axis engine => Sys2Proof.Machine.execEngineStop h axis engine s
  | .seamOpen h axes flags => Sys2Proof.Machine.execSeamOpen h axes flags s
  | .seamAdd h handle nEntries entryCrc bytes => Sys2Proof.Machine.execSeamAdd h handle nEntries entryCrc bytes s
  | .seamArm h handle point armFlags refAxis at_ deferStep => Sys2Proof.Machine.execSeamArm h handle point armFlags refAxis at_ deferStep s
  | .seamCancel h handle => Sys2Proof.Machine.execSeamCancel h handle s
  | .snapshot h trigger event ref cnt handle at_ list dest => Sys2Proof.Machine.execSnapshot h trigger event ref cnt handle at_ list dest s
  | .badDescriptor h opcode => Sys2Proof.Machine.execBadDescriptor h opcode s
  | .nop h => Sys2Proof.Machine.execNop h s
  | .heartbeat h => Sys2Proof.Machine.execHeartbeat h s
  | .axisStateHold h axes => Sys2Proof.Machine.execAxisStateHold h axes s
  | .axisStateRun h axes => Sys2Proof.Machine.execAxisStateRun h axes s
  | .axisMode h axes mode reduced => Sys2Proof.Machine.execAxisMode h axes mode reduced s
  | .axisProfile h axis record crc bytes => Sys2Proof.Machine.execAxisProfile h axis record crc bytes s
  | .signalWrite h entries => Sys2Proof.Machine.execSignalWrite h entries s
  | .signalPulse h addr on off stop => Sys2Proof.Machine.execSignalPulse h addr on off stop s
  | .segmentPush h axis seg => Sys2Proof.Machine.execSegmentPush h axis seg s
  | .segmentFlush h axes => Sys2Proof.Machine.execSegmentFlush h axes s
  | .faultClear h axes banks scopeFlags => Sys2Proof.Machine.execFaultClear h axes banks scopeFlags s
  | .telOpen h stream cnt event ref decim vector list ringAddr ringSize listCrc watermark => Sys2Proof.Machine.execTelOpen h stream cnt event ref decim vector list ringAddr ringSize listCrc watermark s
  | .telClose h stream => Sys2Proof.Machine.execTelClose h stream s
  | .imageBegin h kind hdrLen hdrCrc data sigOk => Sys2Proof.Machine.execImageBegin h kind hdrLen hdrCrc data sigOk s
  | .imageBlock h kind index len data gcmOk readBackOk => Sys2Proof.Machine.execImageBlock h kind index len data gcmOk readBackOk s
  | .imageEnd h kind readOk => Sys2Proof.Machine.execImageEnd h kind readOk s
  | .imageAbandon h kind => Sys2Proof.Machine.execImageAbandon h kind s
  | .imageActivate h kinds sigOk readOk => Sys2Proof.Machine.execImageActivate h kinds sigOk readOk s
  | .imageConfirm h burnFails => Sys2Proof.Machine.execImageConfirm h burnFails s
  | .settingsWrite h len data => Sys2Proof.Machine.execSettingsWrite h len data s
  | .settingsRelease h => Sys2Proof.Machine.execSettingsRelease h s
  | .settingsRead h which addr maxLen => Sys2Proof.Machine.execSettingsRead h which addr maxLen s
  | .otpRead h word count dest => Sys2Proof.Machine.execOtpRead h word count dest s
  | .otpProgram h word count crc src burnFails => Sys2Proof.Machine.execOtpProgram h word count crc src burnFails s
  | .lifecycle h target confirm token sigOk => Sys2Proof.Machine.execLifecycle h target confirm token sigOk s
  | .report h addr nonce => Sys2Proof.Machine.execReport h addr nonce s
  | .keygen h addr => Sys2Proof.Machine.execKeygen h addr s
  | .certInstall h len cert key => Sys2Proof.Machine.execCertInstall h len cert key s
  | .certRead h addr => Sys2Proof.Machine.execCertRead h addr s
  | .challenge h addr => Sys2Proof.Machine.execChallenge h addr s
  | .debugTokenOpen h token sigOk => Sys2Proof.Machine.execDebugTokenOpen h token sigOk s
  | .debugTokenClose h => Sys2Proof.Machine.execDebugTokenClose h s
  | .tallyRead h kind count firstSeq addr => Sys2Proof.Machine.execTallyRead h kind count firstSeq addr s
  | .wallTimeSet h time => Sys2Proof.Machine.execWallTimeSet h time s
  | .canSend h chan frameFlags len id data => Sys2Proof.Machine.execCanSend h chan frameFlags len id data s
  | .spSchedule h port slot sel trig ref format shift width len dest tx chkMask chkVal => Sys2Proof.Machine.execSpSchedule h port slot sel trig ref format shift width len dest tx chkMask chkVal s
  | .spTransfer h port sel len tx rxAddr => Sys2Proof.Machine.execSpTransfer h port sel len tx rxAddr s
  | .powerOn selfTestOk => Sys2Proof.Machine.execPowerOn selfTestOk s
  | .railsGood inp => Sys2Proof.Machine.execRailsGood inp s
  | .supervisorReady inp => Sys2Proof.Machine.execSupervisorReady inp s
  | .resetN => Sys2Proof.Machine.execResetN s
  | .vinUv => Sys2Proof.Machine.execVinUv s
  | .vinUvRecover => Sys2Proof.Machine.execVinUvRecover s
  | .powerLoss => Sys2Proof.Machine.execPowerLoss s
  | .graveClear => Sys2Proof.Machine.execGraveClear s
  | .vinOvWarn above => Sys2Proof.Machine.execVinOvWarn above s
  | .rbReverse => Sys2Proof.Machine.execRbReverse s
  | .rbSwitchOn => Sys2Proof.Machine.execRbSwitchOn s
  | .railFault r => Sys2Proof.Machine.execRailFault r s
  | .vcoreLowReset => Sys2Proof.Machine.execVcoreLowReset s
  | .clockLoss c => Sys2Proof.Machine.execClockLoss c s
  | .lockstepMismatch => Sys2Proof.Machine.execLockstepMismatch s
  | .supWatchdog => Sys2Proof.Machine.execSupWatchdog s
  | .supEcc => Sys2Proof.Machine.execSupEcc s
  | .supervisorRestart => Sys2Proof.Machine.execSupervisorRestart s
  | .enbFall b => Sys2Proof.Machine.execEnbFall b s
  | .enbRise b lowNs => Sys2Proof.Machine.execEnbRise b lowNs s
  | .stoFall b ch => Sys2Proof.Machine.execStoFall b ch s
  | .stoRise b ch => Sys2Proof.Machine.execStoRise b ch s
  | .stoDiscrepancy b => Sys2Proof.Machine.execStoDiscrepancy b s
  | .tripHem n heldCp => Sys2Proof.Machine.execTripHem n heldCp s
  | .vdrvUv b above => Sys2Proof.Machine.execVdrvUv b above s
  | .gateCommandRise n g => Sys2Proof.Machine.execGateCommandRise n g s
  | .gateTurnOn n g => Sys2Proof.Machine.execGateTurnOn n g s
  | .gateCommandFall n g => Sys2Proof.Machine.execGateCommandFall n g s
  | .gateHandshake n g => Sys2Proof.Machine.execGateHandshake n g s
  | .blankingEnd n g => Sys2Proof.Machine.execBlankingEnd n g s
  | .vdsHigh n p => Sys2Proof.Machine.execVdsHigh n p s
  | .vdsLow n p => Sys2Proof.Machine.execVdsLow n p s
  | .softStepEnd n => Sys2Proof.Machine.execSoftStepEnd n s
  | .bstOkSet n p => Sys2Proof.Machine.execBstOkSet n p s
  | .bstOkClear n p => Sys2Proof.Machine.execBstOkClear n p s
  | .bootstrapEarlyWarning n p => Sys2Proof.Machine.execBootstrapEarlyWarning n p s
  | .cmpBlankEnd n p => Sys2Proof.Machine.execCmpBlankEnd n p s
  | .hemComparator n p => Sys2Proof.Machine.execHemComparator n p s
  | .overcurrentHard n p => Sys2Proof.Machine.execOvercurrentHard n p s
  | .downlinkWriteApplied b => Sys2Proof.Machine.execDownlinkWriteApplied b s
  | .sampleTriggerRise n k => Sys2Proof.Machine.execSampleTriggerRise n k s
  | .samplePulse n widthNs vs vph => Sys2Proof.Machine.execSamplePulse n widthNs vs vph s
  | .conversionComplete n codes => Sys2Proof.Machine.execConversionComplete n codes s
  | .statusFrameDue n m => Sys2Proof.Machine.execStatusFrameDue n m s
  | .sampleFrame n err => Sys2Proof.Machine.execSampleFrame n err s
  | .integralFrame n err => Sys2Proof.Machine.execIntegralFrame n err s
  | .statusFrame n crcOk => Sys2Proof.Machine.execStatusFrame n crcOk s
  | .boundaryMissing n => Sys2Proof.Machine.execBoundaryMissing n s
  | .bankLink b => Sys2Proof.Machine.execBankLink b s
  | .calibrationTick n => Sys2Proof.Machine.execCalibrationTick n s
  | .calReq n => Sys2Proof.Machine.execCalReq n s
  | .calibrationComplete n => Sys2Proof.Machine.execCalibrationComplete n s
  | .vinSample b code => Sys2Proof.Machine.execVinSample b code s
  | .maxonCutoff b => Sys2Proof.Machine.execMaxonCutoff b s
  | .minoffEnd b => Sys2Proof.Machine.execMinoffEnd b s
  | .brkTestPulse b => Sys2Proof.Machine.execBrkTestPulse b s
  | .testPulseEnd b => Sys2Proof.Machine.execTestPulseEnd b s
  | .tempSample d t0 t1 t2 t3 => Sys2Proof.Machine.execTempSample d t0 t1 t2 t3 s
  | .ntcConversion k code => Sys2Proof.Machine.execNtcConversion k code s
  | .counterStart n => Sys2Proof.Machine.execCounterStart n s
  | .zero n live => Sys2Proof.Machine.execZero n live s
  | .peak n => Sys2Proof.Machine.execPeak n s
  | .cmpEvent n p up => Sys2Proof.Machine.execCmpEvent n p up s
  | .trgEvent n k => Sys2Proof.Machine.execTrgEvent n k s
  | .slipEnd n => Sys2Proof.Machine.execSlipEnd n s
  | .refreshEnd n p => Sys2Proof.Machine.execRefreshEnd n p s
  | .chargeFail n => Sys2Proof.Machine.execChargeFail n s
  | .debugHalt n j => Sys2Proof.Machine.execDebugHalt n j s
  | .dbgHoldEnd n => Sys2Proof.Machine.execDbgHoldEnd n s
  | .debugResume n => Sys2Proof.Machine.execDebugResume n s
  | .countingEdge n a b => Sys2Proof.Machine.execCountingEdge n a b s
  | .hallCodeChange n u v w => Sys2Proof.Machine.execHallCodeChange n u v w s
  | .indexEvent n k => Sys2Proof.Machine.execIndexEvent n k s
  | .auxCapture n x => Sys2Proof.Machine.execAuxCapture n x s
  | .ssiFrameEnd n qb => Sys2Proof.Machine.execSsiFrameEnd n qb s
  | .leakTick n => Sys2Proof.Machine.execLeakTick n s
  | .hallInvalidTimeout n => Sys2Proof.Machine.execHallInvalidTimeout n s
  | .preset n => Sys2Proof.Machine.execPreset n s
  | .idxArm n => Sys2Proof.Machine.execIdxArm n s
  | .sampleConditioning n => Sys2Proof.Machine.execSampleConditioning n s
  | .currentStep n => Sys2Proof.Machine.execCurrentStep n s
  | .feedbackPlaus n => Sys2Proof.Machine.execFeedbackPlaus n s
  | .wordSourceTimeout n => Sys2Proof.Machine.execWordSourceTimeout n s
  | .speedStep n => Sys2Proof.Machine.execSpeedStep n s
  | .positionStep n => Sys2Proof.Machine.execPositionStep n s
  | .alignmentEnd n => Sys2Proof.Machine.execAlignmentEnd n s
  | .startAttemptFail n => Sys2Proof.Machine.execStartAttemptFail n s
  | .retryWaitEnd n => Sys2Proof.Machine.execRetryWaitEnd n s
  | .stall n => Sys2Proof.Machine.execStall n s
  | .stopEnd n => Sys2Proof.Machine.execStopEnd n s
  | .tachLoss n => Sys2Proof.Machine.execTachLoss n s
  | .govTick => Sys2Proof.Machine.execGovTick s
  | .govMaskStale => Sys2Proof.Machine.execGovMaskStale s
  | .hardBrakeEnd => Sys2Proof.Machine.execHardBrakeEnd s
  | .fittingStart src tag => Sys2Proof.Machine.execFittingStart src tag s
  | .sweepComplete src tag bad => Sys2Proof.Machine.execSweepComplete src tag bad s
  | .almHoldoverExpiry src tag => Sys2Proof.Machine.execAlmHoldoverExpiry src tag s
  | .add n j d a b => Sys2Proof.Machine.execAdd n j d a b s
  | .sub n j d a b => Sys2Proof.Machine.execSub n j d a b s
  | .and n j d a b => Sys2Proof.Machine.execAnd n j d a b s
  | .or n j d a b => Sys2Proof.Machine.execOr n j d a b s
  | .xor n j d a b => Sys2Proof.Machine.execXor n j d a b s
  | .shl n j d a b => Sys2Proof.Machine.execShl n j d a b s
  | .shr n j d a b => Sys2Proof.Machine.execShr n j d a b s
  | .sra n j d a b => Sys2Proof.Machine.execSra n j d a b s
  | .mul n j d a b => Sys2Proof.Machine.execMul n j d a b s
  | .mulh n j d a b => Sys2Proof.Machine.execMulh n j d a b s
  | .div n j d a b => Sys2Proof.Machine.execDiv n j d a b s
  | .min n j d a b => Sys2Proof.Machine.execMin n j d a b s
  | .max n j d a b => Sys2Proof.Machine.execMax n j d a b s
  | .cmp n j a b => Sys2Proof.Machine.execCmp n j a b s
  | .qadd n j d a b => Sys2Proof.Machine.execQadd n j d a b s
  | .qsub n j d a b => Sys2Proof.Machine.execQsub n j d a b s
  | .qmul n j d a b => Sys2Proof.Machine.execQmul n j d a b s
  | .qmac n j d a b => Sys2Proof.Machine.execQmac n j d a b s
  | .qneg n j d a => Sys2Proof.Machine.execQneg n j d a s
  | .qabs n j d a => Sys2Proof.Machine.execQabs n j d a s
  | .qshl n j d a b => Sys2Proof.Machine.execQshl n j d a b s
  | .fadd n j d a b => Sys2Proof.Machine.execFadd n j d a b s
  | .fsub n j d a b => Sys2Proof.Machine.execFsub n j d a b s
  | .fmul n j d a b => Sys2Proof.Machine.execFmul n j d a b s
  | .fma n j d a b => Sys2Proof.Machine.execFma n j d a b s
  | .fdiv n j d a b => Sys2Proof.Machine.execFdiv n j d a b s
  | .fsqrt n j d a => Sys2Proof.Machine.execFsqrt n j d a s
  | .fmin n j d a b => Sys2Proof.Machine.execFmin n j d a b s
  | .fmax n j d a b => Sys2Proof.Machine.execFmax n j d a b s
  | .fabs n j d a => Sys2Proof.Machine.execFabs n j d a s
  | .fneg n j d a => Sys2Proof.Machine.execFneg n j d a s
  | .fcmp n j a b => Sys2Proof.Machine.execFcmp n j a b s
  | .itof n j d a => Sys2Proof.Machine.execItof n j d a s
  | .ftoi n j d a => Sys2Proof.Machine.execFtoi n j d a s
  | .qtof n j d a => Sys2Proof.Machine.execQtof n j d a s
  | .ftoq n j d a => Sys2Proof.Machine.execFtoq n j d a s
  | .tsin n j d a => Sys2Proof.Machine.execTsin n j d a s
  | .tcos n j d a => Sys2Proof.Machine.execTcos n j d a s
  | .tatan n j d a b => Sys2Proof.Machine.execTatan n j d a b s
  | .addi n j d a imm => Sys2Proof.Machine.execAddi n j d a imm s
  | .andi n j d a imm => Sys2Proof.Machine.execAndi n j d a imm s
  | .ori n j d a imm => Sys2Proof.Machine.execOri n j d a imm s
  | .xori n j d a imm => Sys2Proof.Machine.execXori n j d a imm s
  | .lui n j d imm => Sys2Proof.Machine.execLui n j d imm s
  | .shi n j d a imm => Sys2Proof.Machine.execShi n j d a imm s
  | .cmpi n j a imm => Sys2Proof.Machine.execCmpi n j a imm s
  | .ld n j d a imm => Sys2Proof.Machine.execLd n j d a imm s
  | .ld2 n j d a imm => Sys2Proof.Machine.execLd2 n j d a imm s
  | .st n j d a imm => Sys2Proof.Machine.execSt n j d a imm s
  | .st2 n j d a imm => Sys2Proof.Machine.execSt2 n j d a imm s
  | .b n j cond imm => Sys2Proof.Machine.execB n j cond imm s
  | .call n j target => Sys2Proof.Machine.execCall n j target s
  | .jr n j a => Sys2Proof.Machine.execJr n j a s
  | .waitev n j d a => Sys2Proof.Machine.execWaitev n j d a s
  | .waitevReturn n j => Sys2Proof.Machine.execWaitevReturn n j s
  | .post n j a b => Sys2Proof.Machine.execPost n j a b s
  | .mboxPostArrival p => Sys2Proof.Machine.execMboxPostArrival p s
  | .fence n j => Sys2Proof.Machine.execFence n j s
  | .brk n j => Sys2Proof.Machine.execBrk n j s
  | .csrr n j d csr => Sys2Proof.Machine.execCsrr n j d csr s
  | .csrw n j a csr => Sys2Proof.Machine.execCsrw n j a csr s
  | .illegalInstruction n j => Sys2Proof.Machine.execIllegalInstruction n j s
  | .postedStoreArrival n j to_ => Sys2Proof.Machine.execPostedStoreArrival n j to_ s
  | .fabricLoadReturn n j => Sys2Proof.Machine.execFabricLoadReturn n j s
  | .deadline n j => Sys2Proof.Machine.execDeadline n j s
  | .wedge n j => Sys2Proof.Machine.execWedge n j s
  | .engineEcc n j area corr => Sys2Proof.Machine.execEngineEcc n j area corr s
  | .clusterRecoveryComplete n => Sys2Proof.Machine.execClusterRecoveryComplete n s
  | .stagingStart slot => Sys2Proof.Machine.execStagingStart slot s
  | .stagingComplete slot => Sys2Proof.Machine.execStagingComplete slot s
  | .seamDecision slot => Sys2Proof.Machine.execSeamDecision slot s
  | .seamCommit slot => Sys2Proof.Machine.execSeamCommit slot s
  | .seamEpoch slot => Sys2Proof.Machine.execSeamEpoch slot s
  | .seamRetire slot => Sys2Proof.Machine.execSeamRetire slot s
  | .snapshotCapture src tag => Sys2Proof.Machine.execSnapshotCapture src tag s
  | .configRequest r => Sys2Proof.Machine.execConfigRequest r s
  | .perstNAssert => Sys2Proof.Machine.execPerstNAssert s
  | .perstNRelease => Sys2Proof.Machine.execPerstNRelease s
  | .functionLevelReset => Sys2Proof.Machine.execFunctionLevelReset s
  | .bar2Write offset value => Sys2Proof.Machine.execBar2Write offset value s
  | .ringEnable cq q cfg => Sys2Proof.Machine.execRingEnable cq q cfg s
  | .ringDisable q => Sys2Proof.Machine.execRingDisable q s
  | .sqDoorbell q value => Sys2Proof.Machine.execSqDoorbell q value s
  | .descriptorFetch ok desc => Sys2Proof.Machine.execDescriptorFetch ok desc s
  | .cqHeadDoorbell c value => Sys2Proof.Machine.execCqHeadDoorbell c value s
  | .completionWrite => Sys2Proof.Machine.execCompletionWrite s
  | .descriptorTimeout src tag => Sys2Proof.Machine.execDescriptorTimeout src tag s
  | .timedStart src tag => Sys2Proof.Machine.execTimedStart src tag s
  | .pulseStopEdge src tag => Sys2Proof.Machine.execPulseStopEdge src tag s
  | .haltAll arg => Sys2Proof.Machine.execHaltAll arg s
  | .haltBank arg => Sys2Proof.Machine.execHaltBank arg s
  | .safeAxis arg => Sys2Proof.Machine.execSafeAxis arg s
  | .badUrgentCommand data => Sys2Proof.Machine.execBadUrgentCommand data s
  | .hbDoorbell => Sys2Proof.Machine.execHbDoorbell s
  | .hostLoss => Sys2Proof.Machine.execHostLoss s
  | .telSample k => Sys2Proof.Machine.execTelSample k s
  | .telRpWrite k value => Sys2Proof.Machine.execTelRpWrite k value s
  | .activateRestart => Sys2Proof.Machine.execActivateRestart s
  | .trialReadyTimeout => Sys2Proof.Machine.execTrialReadyTimeout s
  | .trialConfirmTimeout => Sys2Proof.Machine.execTrialConfirmTimeout s
  | .trialRevertRestart => Sys2Proof.Machine.execTrialRevertRestart s
  | .jtagAccess t => Sys2Proof.Machine.execJtagAccess t s
  | .extestSelect on => Sys2Proof.Machine.execExtestSelect on s
  | .keepAlive axes => Sys2Proof.Machine.execKeepAlive axes s
  | .otpLockWrite value => Sys2Proof.Machine.execOtpLockWrite value s
  | .periodClose readBackOk => Sys2Proof.Machine.execPeriodClose readBackOk s
  | .checkpoint readBackOk => Sys2Proof.Machine.execCheckpoint readBackOk s
  | .canEnable c ctrl => Sys2Proof.Machine.execCanEnable c ctrl s
  | .canFrameSent c id tdcv age => Sys2Proof.Machine.execCanFrameSent c id tdcv age s
  | .canTxRetry c id error age => Sys2Proof.Machine.execCanTxRetry c id error age s
  | .canFrameReceived c f age => Sys2Proof.Machine.execCanFrameReceived c f age s
  | .canRxRpWrite c value => Sys2Proof.Machine.execCanRxRpWrite c value s
  | .busOff c => Sys2Proof.Machine.execBusOff c s
  | .canRecover c => Sys2Proof.Machine.execCanRecover c s
  | .busOffRecovered c => Sys2Proof.Machine.execBusOffRecovered c s
  | .tunnelUrgent c f => Sys2Proof.Machine.execTunnelUrgent c f s
  | .tunnelDescriptor c f => Sys2Proof.Machine.execTunnelDescriptor c f s
  | .tunnelWindowData c f => Sys2Proof.Machine.execTunnelWindowData c f s
  | .almReferenceDue => Sys2Proof.Machine.execAlmReferenceDue s
  | .almReferenceReceived f age => Sys2Proof.Machine.execAlmReferenceReceived f age s
  | .almReferenceMissed => Sys2Proof.Machine.execAlmReferenceMissed s
  | .almLost => Sys2Proof.Machine.execAlmLost s
  | .almRoleWrite ctrl => Sys2Proof.Machine.execAlmRoleWrite ctrl s
  | .almSet => Sys2Proof.Machine.execAlmSet s
  | .syncZero => Sys2Proof.Machine.execSyncZero s
  | .syncZeroApply => Sys2Proof.Machine.execSyncZeroApply s
  | .syncinEdge p => Sys2Proof.Machine.execSyncinEdge p s
  | .frameLockTimeout => Sys2Proof.Machine.execFrameLockTimeout s
  | .syncoutPulse => Sys2Proof.Machine.execSyncoutPulse s
  | .syncoutPulseEnd => Sys2Proof.Machine.execSyncoutPulseEnd s
  | .scheduleTrigger p k => Sys2Proof.Machine.execScheduleTrigger p k s
  | .portTransferStart p => Sys2Proof.Machine.execPortTransferStart p s
  | .portTransferEnd p rx => Sys2Proof.Machine.execPortTransferEnd p rx s
  | .spsSelectFall => Sys2Proof.Machine.execSpsSelectFall s
  | .spsSelectRise words shortBits short clocked => Sys2Proof.Machine.execSpsSelectRise words shortBits short clocked s
  | .spsEnable cfg => Sys2Proof.Machine.execSpsEnable cfg s
  | .gpInputChange k p => Sys2Proof.Machine.execGpInputChange k p s
  | .gpPulseEnd k => Sys2Proof.Machine.execGpPulseEnd k s
  | .gpOutWrite value => Sys2Proof.Machine.execGpOutWrite value s
  | .gpSet value => Sys2Proof.Machine.execGpSet value s
  | .gpClr value => Sys2Proof.Machine.execGpClr value s
  | .reqRun => Sys2Proof.Machine.execReqRun s
  | .reqDoze => Sys2Proof.Machine.execReqDoze s
  | .reqSleep => Sys2Proof.Machine.execReqSleep s
  | .powerStateEntryComplete => Sys2Proof.Machine.execPowerStateEntryComplete s
  | .wakeComplete => Sys2Proof.Machine.execWakeComplete s
  | .wakeN => Sys2Proof.Machine.execWakeN s
  | .canWake c => Sys2Proof.Machine.execCanWake c s
  | .wakeTimer => Sys2Proof.Machine.execWakeTimer s
  | .wakeNDriveEnd => Sys2Proof.Machine.execWakeNDriveEnd s
  | .pdReqWrite which value => Sys2Proof.Machine.execPdReqWrite which value s
  | .domainPowerUpComplete d => Sys2Proof.Machine.execDomainPowerUpComplete d s
  | .fanTachEdge => Sys2Proof.Machine.execFanTachEdge s
  | .fanWindowExpiry => Sys2Proof.Machine.execFanWindowExpiry s
  | .fanKickEnd => Sys2Proof.Machine.execFanKickEnd s
  | .fanTachTimeout => Sys2Proof.Machine.execFanTachTimeout s
  | .fanFailClear => Sys2Proof.Machine.execFanFailClear s
  | .faultReaction => Sys2Proof.Machine.execFaultReaction s
  | .mergeWindowClose => Sys2Proof.Machine.execMergeWindowClose s
  | .escWindowClose src => Sys2Proof.Machine.execEscWindowClose src s
  | .onlineSelftest thimbleOk supEccOk axesBad => Sys2Proof.Machine.execOnlineSelftest thimbleOk supEccOk axesBad s
  | .holdSelftest b pass => Sys2Proof.Machine.execHoldSelftest b pass s
  | .selftestDue => Sys2Proof.Machine.execSelftestDue s
  | .faultInject value => Sys2Proof.Machine.execFaultInject value s
  | .gdrLockSet b => Sys2Proof.Machine.execGdrLockSet b s
  | .cmpLockSet n => Sys2Proof.Machine.execCmpLockSet n s
  | .fltLockSet => Sys2Proof.Machine.execFltLockSet s
  | .tlyLockSet => Sys2Proof.Machine.execTlyLockSet s
  | .readClear offset byteEn => Sys2Proof.Machine.execReadClear offset byteEn s
  | .pairLoRead who offset => Sys2Proof.Machine.execPairLoRead who offset s
  | .registerWrite offset byteEn value => Sys2Proof.Machine.execRegisterWrite offset byteEn value s
  | .clockRelock c => Sys2Proof.Machine.execClockRelock c s
  | .railRecover r => Sys2Proof.Machine.execRailRecover r s
  | .enclaveFault => Sys2Proof.Machine.execEnclaveFault s
  | .canRxError c recAdd => Sys2Proof.Machine.execCanRxError c recAdd s

end Sys2Proof.Machine
end

