-- ==== Sys2Proof/Machine/Time.lean ====
section
/-! DEFINITION. What one CKP cycle does of itself: CREF, the Almanac's time, the carrier counters, and what follows
from the Almanac's time (04 R93, R95; 12 R360; 18 R490). Every other event that time brings is a command. -/

namespace Sys2Proof.Machine

/-- A carrier counter for one cp: it counts within its half, and waits at the boundary for its zero or peak. -/
def Pwm.tick (w : Pwm) : Pwm :=
  if w.mode ≠ .counting then w
  else if w.down then { w with count := w.count - 1 }
  else { w with count := Nat.min w.half (w.count + 1) }

/-- The Almanac's time for one cp: 2.5 ns × (1 + r), in units of 2^−33 ns with r in units of 2^−32. -/
def State.almTick (s : State) : State :=
  s.modAlm fun a =>
    let t : Int := a.frac + 5 * 2 ^ 32 + 5 * s.almRate
    { a with time := a.time + BitVec.ofInt 64 (t / 2 ^ 33), frac := (t % 2 ^ 33).toNat }

/-- One cp passes, while CKP runs. -/
def tick (s : State) : State :=
  if !s.clk.pllp then s
  else
    let s := { s with cref := s.cref + 1 }
    let s := s.forAxes (s.present.filter fun n => s.axOn n && s.clk.dll) fun n s => s.modPwm n Pwm.tick
    if s.almOn then s.almTick.tlyWall else s

end Sys2Proof.Machine
end

