-- ==== Sys2Proof/Safety.lean ====
section
/-! DEFINITION. The terms in which claims about the module are stated: a well-formed stored state, a
descriptor that the module takes, an engine that issues, and what a command leaves alone. -/

namespace Sys2Proof.Machine

/-- A completion of a step with a next state that `p` describes. -/
def answers (o : Host.Outcome State Fault Refusal) (p : State → Prop) : Prop :=
  ∃ t, o = .next t ∧ p t

/-- The module takes descriptor `h` at `s`, so that its own checks run at `u`: it is the next of its ring
and not held back (11 R316), its ring is not in a failed chain, FLAGS bits 7:4 are 0 and TIMED is
clear (11 R317), and the supervisor has declared itself ready. A descriptor of a tunnel beats the host
timer first (12 R356). Which command its 64 bytes spell `State.spelled` says (11 R317, R321). -/
def Takes (h : DescHdr) (s u : State) : Prop :=
  s.sup = .ready ∧ h.flags.toNat / 16 = 0 ∧ h.flags.getLsbD 2 = false ∧ u.chainFail h.src = false ∧
  ∃ t, s.accept h = some t ∧ u = if isTun h.src then t.heartbeat else t

/-- The same for a descriptor that carries TIMED. -/
def TakesTimed (h : DescHdr) (s u : State) : Prop :=
  s.sup = .ready ∧ h.flags.toNat / 16 = 0 ∧ h.flags.getLsbD 2 = true ∧ u.chainFail h.src = false ∧
  ∃ t, s.accept h = some t ∧ u = if isTun h.src then t.heartbeat else t

/-- The completion of a descriptor that asks for no vector waits to be written in t, after those that waited in s. -/
def Completes (src : RingSrc) (tag : BitVec 16) (st : Status) (info : Word) (irq : Bool) (s t : State) : Prop :=
  t.hst.cplWait = s.hst.cplWait ++ [{ src := src, tag := tag, status := st, info := info, time := none, irq := irq }]

/-- d is the oldest descriptor in flight with its source and tag. -/
def Oldest (s : State) (d : InFlight) : Prop :=
  ∃ l r, s.hst.inflight = l ++ d :: r ∧ ∀ e ∈ l, e.src ≠ d.src ∨ e.tag ≠ d.tag

/-- The memories of an engine are in their canonical form, and g0 reads 0 (09 R246). -/
def Eng.stored (e : Eng) : Prop := Mem.wf zeroAt e.priv = true ∧ Mem.wf zeroAt e.imem = true ∧ e.g[0] = 0#32

/-- The memories of an axis are in their canonical form. -/
def Axis.stored (a : Axis) : Prop :=
  Mem.wf zeroAt a.clu.ctm = true ∧ Mem.wf zeroAt a.clu.p0 = true ∧ Mem.wf zeroAt a.ch.good = true ∧
  Mem.wf zeroAt a.ch.own = true ∧
  ∀ j : EngId, a.clu.eng[j].stored

/-- Every sparse memory of the module is in its canonical form, so that equal memories are equal data, and g0 of
every engine reads 0. -/
structure Stored (s : State) : Prop where
  sig : Mem.wf zeroAt s.sig = true
  otp : Mem.wf zeroAt s.sec.otp = true
  msix : Mem.wf msixDflt s.hst.msix = true
  cls : Mem.wf srcDflt s.flt.cls = true
  esc : Mem.wf escDflt s.flt.esc = true
  ax : ∀ n : AxisId, s.ax[n].stored
  window : ∀ c : CanId, Mem.wf zeroAt s.can[c].window = true

/-- Everything of `s` but one axis is as in `t`. -/
def SameButAxis (n : AxisId) (s t : State) : Prop := t = { s with ax := s.ax.set n t.ax[n] }

/-! The power stage. -/

/-- Every gate of axis n is off, with no turn-on that waits. -/
def allOff (a : Axis) : Prop := ∀ g : Fin 6, a.gdr.gates[g].on = false ∧ a.gdr.gates[g].pendingOn = false

/-- No dead time runs on axis n, and every command that stands falls 3 cp after CREF c. -/
def commandsFall (a : Axis) (c : Nat) : Prop := ∀ p : Fin 3,
  a.pwm.ph[p].hiDue = none ∧ a.pwm.ph[p].loDue = none ∧
  (a.pwm.ph[p].hi = true → a.pwm.ph[p].hiFall = some (32 * ((c + 3 : Nat) : Int))) ∧
  (a.pwm.ph[p].lo = true → a.pwm.ph[p].loFall = some (32 * ((c + 3 : Nat) : Int)))

/-- A power-stage fault latches: its bits are added, its source is raised after those already on their way, the gates
are off and forced OPEN, the commands follow, and no other axis and no signal word changes (02 R42 to R45). -/
def latched (n : AxisId) (bits : BitVec 16) (k : Nat) (s t : State) : Prop :=
  t.ax[n].gdr.latches = s.ax[n].gdr.latches ||| bits ∧ t.flt.raised = s.flt.raised ++ [axisSrc n k] ∧ allOff t.ax[n] ∧
  commandsFall t.ax[n] s.cref ∧ t.forced n = .open ∧ (∀ m : AxisId, m ≠ n → t.ax[m] = s.ax[m]) ∧ t.sig = s.sig ∧ t.bank = s.bank ∧ t.hst = s.hst ∧ t.out = s.out

/-- The two gates of a phase are never both on. -/
def Axis.oneSideOn (a : Axis) : Prop := ∀ g : Fin 6, a.gdr.gates[g].on = true → a.gdr.gates[complGate g].on = false

/-! The position feedback. -/

/-- No action of the feedback interface has come yet on the CKP edge at CREF t, whose actions 05 R146 orders. -/
def Fbk.freshEdge (f : Fbk) (t : Nat) : Prop := ∀ e, f.edge = some e → e.at_ ≠ t

/-! Engines. -/

/-- Engine j of axis n issues instruction i, the one that the word at its pc spells, and no armed injection lies on
its instruction SRAM. -/
def Issues (s : State) (i : Instr) (n : AxisId) (j : EngId) : Prop :=
  s.issues i n j = true ∧ s.injected 0 (16 * n.val + j.val) = false

/-- No fault injection is armed on the memory of any engine or cluster, nor on a lane (15 R434). -/
def Uninjected (s : State) : Prop := ∀ kind idx, s.injected kind idx = false

/-- A vendor stage of axis n begins the activation that is due: its domain is on, the module's engines are not Stopped by
DOZE or SLEEP, the cluster is no coordination cluster and not in recovery, no activation is held for a commit's epoch edge,
and no injection is armed. -/
def StageRuns (s : State) (n : AxisId) : Prop :=
  s.axOn n = true ∧ s.enginesRun = true ∧ s.ax[n].clu.role = false ∧ s.ax[n].clu.recovering = false ∧ s.epochHeld = false ∧ Uninjected s

/-- The state after an instruction that writes v to d and f to FLAGS and goes on to the next; g0 stays as it is, and
nothing else changes. -/
def State.wrote (s : State) (n : AxisId) (j : EngId) (d : GReg) (v : Word) (f : BitVec 6) : State :=
  s.modEng n j fun x => { x with g := if d = 0 then x.g else x.g.set d v, pc := x.pc + 1, flags := f }

/-- The six flags, one by one. -/
def FlagsAre (f : BitVec 6) (z n c v q x : Bool) : Prop :=
  f.getLsbD 0 = z ∧ f.getLsbD 1 = n ∧ f.getLsbD 2 = c ∧ f.getLsbD 3 = v ∧ f.getLsbD 4 = q ∧ f.getLsbD 5 = x

/-- Instruction i, where engine j of axis n issues it, writes v to d, with the flags Z and N of v and the other four as
given. -/
def Gives (s : State) (n : AxisId) (j : EngId) (i : Instr) (d : GReg) (v : Word) (c o q x : Bool) : Prop :=
  Issues s i n j → ∃ f, exec i s = .next (s.wrote n j d v f) ∧ FlagsAre f (decide (v = 0#32)) v.msb c o q x

/-- An integer saturated to int32. -/
def clip32 (v : Int) : Int := Min.min 2147483647 (Max.max (-2147483648) v)

/-- An integer outside int32. -/
def outside32 (v : Int) : Bool := decide (v < -2147483648) || decide (2147483647 < v)

end Sys2Proof.Machine
end

