-- ==== Sys2Proof/WellFormed.lean ====
section
/-! DEFINITION. Well-formed commands: what the outside can send. An offset lies in its BAR, a frame is one that
CAN FD can carry, and what the module reads from the host's memory is as long as the operands say. The module's own
checks of a descriptor's fields are its commands' effect, so a command may be well-formed and still be refused by
them. -/

namespace Sys2Proof

/-- BAR0 holds 1 MiB (11 R305). -/
def bar0Offset (o : Nat) : Bool := decide (o < 0x100000)

/-- BAR2 holds the signal words, 4 bytes each (09 R258, 11 R306). -/
def bar2Offset (o : Nat) : Bool := decide (o < 0x400000)

/-- The access names a register of BAR0 where it names one. -/
def DbgTarget.wf : DbgTarget → Bool
  | .register o => bar0Offset o
  | .idcode | .supervisor _ | .engine _ _ | .enclave => true

/-- A frame that CAN FD can carry: a length that DLC codes, an identifier of its format, and the bits of an FD frame
in FD frames alone (12 R344). -/
def CanFrame.wf (f : CanFrame) : Bool :=
  (f.ide || decide (f.id.toNat < 2048)) &&
  if f.fdf then !f.rtr && (decide (f.data.length ≤ 8) || [12, 16, 20, 24, 32, 48, 64].contains f.data.length)
  else !f.brs && !f.esi && decide (f.data.length ≤ 8) && (!f.rtr || f.data.isEmpty)

/-- The word at which a burn fails is a word of the OTP (16 R442). -/
def burnWord : Option Nat → Bool
  | some w => decide (w < 2048)
  | none => true

/-- CAN_SEND: the data of a frame that is not remote is as long as LEN says (12 R352). -/
def sendLen (flags len : BitVec 8) (k : Nat) : Bool :=
  if flags.getLsbD 3 then true else decide (k = len.toNat)

/-- A command is well-formed. -/
def Instr.wf (i : Instr) : Bool :=
  match i with
  | .patternWrite _ len d => decide (d.length = len.toNat)
  | .lensMap _ _ len d => decide (d.length = len.toNat)
  | .engineLoad _ _ _ _ len _ d => decide (d.length = len.toNat)
  | .seamAdd _ _ k _ d => decide (d.length = 16 * k.toNat)
  | .snapshot _ _ _ _ k _ _ l _ => decide (l.length = if k = 0#8 then 256 else k.toNat)
  | .axisProfile _ _ _ _ d => decide (d.length = 48)
  | .signalWrite _ l => decide (l.length ≤ 255)
  | .segmentPush _ _ d => decide (d.length = 40)
  | .telOpen _ _ k _ _ _ _ l _ _ _ _ => decide (l.length = k.toNat)
  | .imageBegin _ _ len _ d _ => decide (d.length = len.toNat)
  | .imageBlock _ _ _ len d _ _ => decide (d.length = len.toNat)
  | .settingsWrite _ len d => decide (d.length = len.toNat)
  | .otpProgram _ _ k _ l f => decide (l.length = k.toNat) && burnWord f
  | .lifecycle _ g _ t _ => g ≠ 4#8 || decide (t.length = 288)
  | .certInstall _ len d _ => decide (d.length = len.toNat)
  | .debugTokenOpen _ t _ => decide (t.length = 288)
  | .canSend _ _ fl len _ d => sendLen fl len d.length
  | .spTransfer _ _ _ len d _ => decide (d.length = (len.toNat + 7) / 8)
  | .bar2Write o _ => bar2Offset o
  | .descriptorFetch _ d => decide (d.length = 64)
  | .jtagAccess t => t.wf
  | .canFrameReceived _ f _ => f.wf
  | .tunnelUrgent _ f => f.wf
  | .tunnelDescriptor _ f => f.wf
  | .tunnelWindowData _ f => f.wf
  | .almReferenceReceived f _ => f.wf
  | .spsSelectRise _ k _ _ => decide (k < 32)
  | .readClear o _ => bar0Offset o
  | .pairLoRead _ o => bar0Offset o
  | .registerWrite o _ _ => bar0Offset o
  | .motorId _ _ | .inertia _ _ | .ripple _ _ | .resonance _ _ | .patternCommit _ _ _ _ _ _
  | .patternCommitCtm _ _ _ _ | .patternDiscard _ _ _ _ _ | .patternRead _ _ _ _ _ _ | .coordRoleSet _ _
  | .coordRoleClear _ _ | .engineStop _ _ _ | .seamOpen _ _ _ | .seamArm _ _ _ _ _ _ _ | .seamCancel _ _
  | .badDescriptor _ _ | .nop _ | .heartbeat _ | .axisStateHold _ _ | .axisStateRun _ _ | .axisMode _ _ _ _
  | .signalPulse _ _ _ _ _ | .segmentFlush _ _ | .faultClear _ _ _ _ | .telClose _ _ | .imageEnd _ _ _
  | .imageAbandon _ _ | .imageActivate _ _ _ _ | .imageConfirm _ _ | .settingsRelease _ | .settingsRead _ _ _ _
  | .otpRead _ _ _ _ | .report _ _ _ | .keygen _ _ | .certRead _ _ | .challenge _ _ | .debugTokenClose _
  | .tallyRead _ _ _ _ _ | .wallTimeSet _ _ | .spSchedule _ _ _ _ _ _ _ _ _ _ _ _ _ _ | .powerOn _ | .railsGood _
  | .supervisorReady _ | .resetN | .vinUv | .vinUvRecover | .powerLoss | .graveClear | .vinOvWarn _ | .rbReverse
  | .rbSwitchOn | .railFault _ | .vcoreLowReset | .clockLoss _ | .lockstepMismatch | .supWatchdog | .supEcc
  | .supervisorRestart | .enbFall _ | .enbRise _ _ | .stoFall _ _ | .stoRise _ _ | .stoDiscrepancy _ | .tripHem _ _
  | .vdrvUv _ _ | .gateCommandRise _ _ | .gateTurnOn _ _ | .gateCommandFall _ _ | .gateHandshake _ _
  | .blankingEnd _ _ | .vdsHigh _ _ | .vdsLow _ _ | .softStepEnd _ | .bstOkSet _ _ | .bstOkClear _ _
  | .bootstrapEarlyWarning _ _ | .cmpBlankEnd _ _ | .hemComparator _ _ | .overcurrentHard _ _
  | .downlinkWriteApplied _ | .sampleTriggerRise _ _ | .samplePulse _ _ _ _ | .conversionComplete _ _
  | .statusFrameDue _ _ | .sampleFrame _ _ | .integralFrame _ _ | .statusFrame _ _ | .boundaryMissing _ | .bankLink _
  | .calibrationTick _ | .calReq _ | .calibrationComplete _ | .vinSample _ _ | .maxonCutoff _ | .minoffEnd _
  | .brkTestPulse _ | .testPulseEnd _ | .tempSample _ _ _ _ _ | .ntcConversion _ _ | .counterStart _ | .zero _ _
  | .peak _ | .cmpEvent _ _ _ | .trgEvent _ _ | .slipEnd _ | .refreshEnd _ _ | .chargeFail _ | .debugHalt _ _
  | .dbgHoldEnd _ | .debugResume _ | .countingEdge _ _ _ | .hallCodeChange _ _ _ _ | .indexEvent _ _ | .auxCapture _ _
  | .ssiFrameEnd _ _ | .leakTick _ | .hallInvalidTimeout _ | .preset _ | .idxArm _ | .sampleConditioning _
  | .currentStep _ | .feedbackPlaus _ | .wordSourceTimeout _ | .speedStep _ | .positionStep _ | .alignmentEnd _
  | .startAttemptFail _ | .retryWaitEnd _ | .stall _ | .stopEnd _ | .tachLoss _ | .govTick | .govMaskStale
  | .hardBrakeEnd | .fittingStart _ _ | .sweepComplete _ _ _ | .almHoldoverExpiry _ _ | .add _ _ _ _ _
  | .sub _ _ _ _ _ | .and _ _ _ _ _ | .or _ _ _ _ _ | .xor _ _ _ _ _ | .shl _ _ _ _ _ | .shr _ _ _ _ _
  | .sra _ _ _ _ _ | .mul _ _ _ _ _ | .mulh _ _ _ _ _ | .div _ _ _ _ _ | .min _ _ _ _ _ | .max _ _ _ _ _
  | .cmp _ _ _ _ | .qadd _ _ _ _ _ | .qsub _ _ _ _ _ | .qmul _ _ _ _ _ | .qmac _ _ _ _ _ | .qneg _ _ _ _
  | .qabs _ _ _ _ | .qshl _ _ _ _ _ | .fadd _ _ _ _ _ | .fsub _ _ _ _ _ | .fmul _ _ _ _ _ | .fma _ _ _ _ _
  | .fdiv _ _ _ _ _ | .fsqrt _ _ _ _ | .fmin _ _ _ _ _ | .fmax _ _ _ _ _ | .fabs _ _ _ _ | .fneg _ _ _ _
  | .fcmp _ _ _ _ | .itof _ _ _ _ | .ftoi _ _ _ _ | .qtof _ _ _ _ | .ftoq _ _ _ _ | .tsin _ _ _ _ | .tcos _ _ _ _
  | .tatan _ _ _ _ _ | .addi _ _ _ _ _ | .andi _ _ _ _ _ | .ori _ _ _ _ _ | .xori _ _ _ _ _ | .lui _ _ _ _
  | .shi _ _ _ _ _ | .cmpi _ _ _ _ | .ld _ _ _ _ _ | .ld2 _ _ _ _ _ | .st _ _ _ _ _ | .st2 _ _ _ _ _ | .b _ _ _ _
  | .call _ _ _ | .jr _ _ _ | .waitev _ _ _ _ | .waitevReturn _ _ | .post _ _ _ _ | .mboxPostArrival _ | .fence _ _
  | .brk _ _ | .csrr _ _ _ _ | .csrw _ _ _ _ | .illegalInstruction _ _ | .postedStoreArrival _ _ _
  | .fabricLoadReturn _ _ | .deadline _ _ | .wedge _ _ | .engineEcc _ _ _ _ | .clusterRecoveryComplete _
  | .stagingStart _ | .stagingComplete _ | .seamDecision _ | .seamCommit _ | .seamEpoch _ | .seamRetire _
  | .snapshotCapture _ _ | .configRequest _ | .perstNAssert | .perstNRelease | .functionLevelReset | .ringEnable _ _ _
  | .ringDisable _ | .sqDoorbell _ _ | .cqHeadDoorbell _ _ | .completionWrite | .descriptorTimeout _ _
  | .timedStart _ _ | .pulseStopEdge _ _ | .haltAll _ | .haltBank _ | .safeAxis _ | .badUrgentCommand _ | .hbDoorbell
  | .hostLoss | .telSample _ | .telRpWrite _ _ | .activateRestart | .trialReadyTimeout | .trialConfirmTimeout
  | .trialRevertRestart | .extestSelect _ | .keepAlive _ | .otpLockWrite _ | .periodClose _ | .checkpoint _
  | .canEnable _ _ | .canFrameSent _ _ _ _ | .canTxRetry _ _ _ _ | .canRxRpWrite _ _ | .busOff _ | .canRecover _
  | .busOffRecovered _ | .almReferenceDue | .almReferenceMissed | .almLost | .almRoleWrite _ | .almSet | .syncZero
  | .syncZeroApply | .syncinEdge _ | .frameLockTimeout | .syncoutPulse | .syncoutPulseEnd | .scheduleTrigger _ _
  | .portTransferStart _ | .portTransferEnd _ _ | .spsSelectFall | .spsEnable _ | .gpInputChange _ _ | .gpPulseEnd _
  | .gpOutWrite _ | .gpSet _ | .gpClr _ | .reqRun | .reqDoze | .reqSleep | .powerStateEntryComplete | .wakeComplete
  | .wakeN | .canWake _ | .wakeTimer | .wakeNDriveEnd | .pdReqWrite _ _ | .domainPowerUpComplete _ | .fanTachEdge
  | .fanWindowExpiry | .fanKickEnd | .fanTachTimeout | .fanFailClear | .faultReaction | .mergeWindowClose
  | .escWindowClose _ | .onlineSelftest _ _ _ | .holdSelftest _ _ | .selftestDue | .faultInject _ | .gdrLockSet _
  | .cmpLockSet _ | .fltLockSet | .tlyLockSet | .clockRelock _ | .railRecover _ | .enclaveFault | .canRxError _ _ => true

end Sys2Proof
end

