-- ==== Sys2Proof/Certificates/Slice0/Obligations.lean ====
section
/-! DEFINITION. The statements about the module. Each says which rules of spec/ it formalises. Descriptors appear
through `Takes h s u` (Safety.lean): the module takes h at s, and its own checks run at u; `s.spelled h c` says that c is the
command that the 64 bytes of the descriptor spell (11 R317, R321). -/

open Sys2Proof Sys2Proof.Machine

/-! The machine as a whole. -/

/-- STEP. A step takes the command at the front of the queue and runs it on the state with the queue's
rest. -/
def Obligations.StepRunsTheFrontCommand : Prop := ∀ (c : Instr) (rest : List Instr) (s : State), s.pending = c :: rest → step s = exec c { s with pending := rest }

/-- On an empty queue one CKP cycle passes: CREF counts while PLL-P is locked, and nothing changes while it is
not. That time passes at an empty queue is the model's choice (log entry 4). -/
def Obligations.EmptyQueuePassesOneCycle : Prop :=
  ∀ s : State, s.pending = [] →
    (s.clk.pllp = true → ∃ t, step s = .next t ∧ t.cref = s.cref + 1 ∧ t.pending = [] ∧ t.flt.raised = s.flt.raised ∧ t.sig = s.sig) ∧
    (s.clk.pllp = false → step s = .next s)

/-- At reset every sparse memory is canonical, g0 of every engine reads 0, no phase has both sides on, and the queue is empty. -/
def Obligations.ResetIsStored : Prop := Stored State.reset ∧ (∀ n : AxisId, State.reset.ax[n].oneSideOn) ∧ State.reset.pending = [] ∧ State.reset.out = []

/-- Every step keeps every sparse memory in its canonical form and g0 of every engine at 0. -/
def Obligations.StepKeepsStored : Prop := ∀ s t : State, Stored s → step s = .next t → Stored t

/-- No command ends in a fault or a refusal: each answers a next state, which holds the queue it was given and
the same variant. -/
def Obligations.CommandKeepsQueueAndVariant : Prop := ∀ (c : Instr) (s : State), ∃ t, exec c s = .next t ∧ t.pending = s.pending ∧ t.variant = s.variant

/-- A burnt OTP bit stays burnt, SCRAP is for ever, and what was sent to the outside stays sent. -/
def Obligations.BurntBitsStayBurnt : Prop :=
  ∀ s t : State, step s = .next t →
    (∀ w, s.sec.otp.rd w &&& ~~~ (t.sec.otp.rd w) = 0#32) ∧ (s.sec.scrapped = true → t.sec.scrapped = true) ∧
    s.out <+: t.out

/-! The host link: rings, doorbells, fetching and completing (11). -/

/-- 11 R310 to R313: what a write of a ring's CFG, a doorbell and a disable leave, all else unchanged.
11 R305 to R308, R332: the retry answer, the identification, the power states, BARs and MSI-X, PERST_N, BAR2 and the
heartbeat. -/
def Obligations.RingAndLinkCommandsComplete : Prop :=
  (∀ s : State, s.bar0 = true →
    (∀ q cfg, s.hst.sq[q].en = false → s.draining q = false → ringOk s.hst.sq[q].baseLo (cfg ||| 0x80000000#32) 64 = true →
      exec (.ringEnable false q cfg) s = .next { s with hst := { s.hst with sq := s.hst.sq.set q { s.hst.sq[q] with
        cfg := (cfg ||| 0x80000000#32) &&& 0x3F00000F#32, en := true, halted := false, err := 0#3, head := 0#12
        tail := 0#12, chainFail := false } } }) ∧
    (∀ q cfg, s.hst.sq[q].en = false → s.draining q = false → ringOk s.hst.sq[q].baseLo (cfg ||| 0x80000000#32) 64 = false →
      ∃ t, exec (.ringEnable false q cfg) s = .next t ∧ t.hst.sq[q].en = false ∧ t.hst.sq[q].err = 3#3) ∧
    (∀ q : Fin 64, exec (.ringDisable q) s = .next { s with hst := { s.hst with sq := s.hst.sq.set q { s.hst.sq[q] with
        cfg := s.hst.sq[q].cfg &&& 0x3F00000F#32, en := false } } }) ∧
    (∀ (q : Fin 64) v, s.hst.sq[q].en = true → (s.hst.sq[q].halted = true ∨ (v.setWidth 12).toNat < ringSize s.hst.sq[q].cfg) →
      exec (.sqDoorbell q v) s = .next { s with hst := { s.hst with sq := s.hst.sq.set q { s.hst.sq[q] with
        tail := v.setWidth 12 } } }) ∧
    (∀ (q : Fin 64) v, s.hst.sq[q].en = true → s.hst.sq[q].halted = false → ringSize s.hst.sq[q].cfg ≤ (v.setWidth 12).toNat →
      ∃ t, exec (.sqDoorbell q v) s = .next t ∧ t.hst.sq[q].halted = true ∧ t.hst.sq[q].err = 1#3 ∧ t.hst.sq[q].head = s.hst.sq[q].head) ∧
    (∀ (q : Fin 64) v, s.hst.sq[q].en = false → exec (.sqDoorbell q v) s = .next s) ∧
    (∀ (c : Fin 16) v, bit s.hst.cq[c].cfg 31 = true → (v.setWidth 12).toNat < ringSize s.hst.cq[c].cfg →
      exec (.cqHeadDoorbell c v) s = .next { s with hst := { s.hst with cq := s.hst.cq.set c { s.hst.cq[c] with
        head := v.setWidth 12 } } }) ∧
    (∀ (c : Fin 16) v, bit s.hst.cq[c].cfg 31 = true → ringSize s.hst.cq[c].cfg ≤ (v.setWidth 12).toNat →
      exec (.cqHeadDoorbell c v) s = .next { s with hst := { s.hst with cq := s.hst.cq.set c { s.hst.cq[c] with
        headBad := true } } })) ∧
  (∀ s : State,
    (∀ r, s.linked = true → s.supUp = false →
      exec (.configRequest r) s = .next { s with hst := { s.hst with cfgRetry := true, ready := false } }) ∧
    (∀ o, s.linked = true → s.supUp = true → answers (exec (.configRequest (.read o)) s) fun t =>
      t.out = s.out ++ [.cfgData o (s.cfgRead o)] ∧ t.hst = { s.hst with cfgRetry := false, ready := true } ∧ t.ax = s.ax ∧ t.sig = s.sig) ∧
    (s.cfgRead 0#12 = fieldAt 16 (bits s.variant.devId 31 16) ||| 0x1F7E#32 ∧ bits (s.cfgRead 8#12) 31 8 = 0x088000) ∧
    ((s.cfgFixed 0x010#12).2 = (s.hst.bars[0] &&& 0xFFF00000#32) ||| 0x4#32 ∧ (s.cfgFixed 0x018#12).2 = (s.hst.bars[2] &&& 0xFFC00000#32) ||| 0xC#32 ∧
      (∀ o, s.cfgRead o &&& (s.cfgFixed o).1 = (s.cfgFixed o).2 &&& (s.cfgFixed o).1)) ∧
    (∀ d, s.linked = true → s.supUp = true → exec (.configRequest (.power d)) s = .next { s with hst := { s.hst with
      cfgRetry := false, ready := true, d3hot := d } }) ∧
    (∀ i v, s.linked = true → s.supUp = true → exec (.configRequest (.bar i v)) s = .next { s with hst := { s.hst with
      cfgRetry := false, ready := true, bars := s.hst.bars.set i v } }) ∧
    (∀ e m, s.linked = true → s.supUp = true → s.hst.pba = 0#64 ∨ e = false ∨ m = true → exec (.configRequest (.msix e m)) s =
      .next { s with hst := { s.hst with cfgRetry := false, ready := true, msixEn := e, msixMask := m } }) ∧
    exec .perstNAssert s = .next { s with hst := { s.hst with perstLow := true, linkUp := false } } ∧
    (s.hst.perstLow = true → ∃ t, exec .perstNRelease s = .next t ∧ t.hst.sq = Vector.replicate 64 {} ∧ t.hst.cq = Vector.replicate 16 {} ∧
      t.hst.perstLow = false ∧ t.hst.linkUp = (s.clk.ckh && s.sysOn 72) ∧ t.hst.halted = 0#64 ∧ t.hst.msixEn = false ∧ t.hst.tel = s.hst.tel ∧ t.ax = s.ax ∧ t.sig = s.sig ∧ t.out = s.out) ∧
    (s.bar0 = true → ∀ o, o < 0x400000 → s.bar2Read o = some (s.sigRead (o / 4))) ∧
    (s.bar0 = true → ∀ o v, exec (.bar2Write o v) s = .next { s with hst := { s.hst with bar2Cnt := satInc s.hst.bar2Cnt } }) ∧
    (s.bar0 = true → exec .hbDoorbell s = .next { s with hst := { s.hst with hbArmed := true, hbAt := s.cref, hostLost := false } }))

/-- 11 R311, R315: a fetch takes the next entry of the ring whose turn it is, of the highest class that has a free place,
puts it in flight and advances HEAD; one that fails halts the ring with FETCH_ERROR.
11 R313, R318: the oldest completion of a ring with room is written at the ring's tail, with the ring's PHASE, and
its descriptor is in flight no more; the tail moves on and PHASE inverts at the wrap. -/
def Obligations.RingsAreFetchedAndCompleted : Prop :=
  (∀ (s : State) (q : Fin 64) desc, s.bar0 = true → s.nextRing = some q →
    (∃ t, exec (.descriptorFetch true desc) s = .next t ∧
      t.hst.inflight = s.hst.inflight ++ [s.newEntry (.sq q) desc] ∧
      t.hst.sq[q].head.toNat = (s.hst.sq[q].head.toNat + 1) % ringSize s.hst.sq[q].cfg % 4096 ∧
      s.place (s.ringClass (.sq q)) = true ∧ s.hst.sq[q].en = true ∧ s.hst.sq[q].halted = false ∧
      (∀ p : Fin 64, p ≠ q → t.hst.sq[p] = s.hst.sq[p]) ∧ t.ax = s.ax ∧ t.sig = s.sig ∧ t.out = s.out ∧
      (∀ p : Fin 64, s.hst.sq[p].fetchable = true → s.place (s.ringClass (.sq p)) = true →
        (s.ringClass (.sq q)).toNat ≤ (s.ringClass (.sq p)).toNat)) ∧
    exec (.descriptorFetch false desc) s = .next { s with hst := { s.hst with
      sq := s.hst.sq.set q { s.hst.sq[q] with halted := true, err := 2#3 } } }) ∧
  (∀ (s : State) (e : Completion) (q : Fin 64), s.hst.cplWait.find? s.cplReady = some e → e.src = .sq q →
    ∃ t, exec .completionWrite s = .next t ∧
      (let c := s.hst.cq[s.hst.sq[q].cqOf]
       let b3 : BitVec 8 := BitVec.ofNat 8 (q.val + if c.phase then 128 else 0)
       (s.out ++ [Output.hostWrite (join64 c.baseHi c.baseLo + BitVec.ofNat 64 (16 * c.tail.toNat)) (s.cplBytes e b3)]) <+: t.out ∧
       t.hst.cq[s.hst.sq[q].cqOf].tail.toNat = (c.tail.toNat + 1) % ringSize c.cfg % 4096 ∧
       t.hst.cq[s.hst.sq[q].cqOf].phase = (if (c.tail.toNat + 1) % ringSize c.cfg = 0 then !c.phase else c.phase) ∧
       t.hst.cplWait = dropFirst (fun x => x = e) s.hst.cplWait ∧ t.hst.sq = s.hst.sq ∧ t.ax = s.ax ∧ t.sig = s.sig))

/-- 11 R309, R332, R333: host loss stops every present axis in RUN, sets HOST_LOST and disarms the timer; no host loss
occurs while the timer is not armed, or before HOST_TIMEOUT has passed since the last heartbeat. A Function Level Reset also disables every ring and closes every stream.
11 R330, R331: an urgent command counts, marks its axes halted, and takes each of them into HOLD, from SAFE too
(log entry 24); a word that is no valid command only counts as bad. Which data a HALT_ALL's argument holds does
not matter (log entry 33). -/
def Obligations.HostLossAndUrgentCommandsStopAxes : Prop :=
  (∀ s : State,
    (s.hst.hbArmed = false → exec .hostLoss s = .next s) ∧
    (s.cref < s.hst.hbAt + s.hostTimeout → exec .hostLoss s = .next s) ∧
    (s.hst.hbArmed = true → s.hst.hbAt + s.hostTimeout ≤ s.cref → ∃ t, exec .hostLoss s = .next t ∧ t.hst.hostLost = true ∧ t.hst.hbArmed = false ∧ 1111 ∈ t.flt.raised ∧
      ∀ n : AxisId, s.hasAxis n = true → t.ax[n].ch.st ≠ .run) ∧
    (s.linked = true → ∃ t, exec .functionLevelReset s = .next t ∧ t.hst.sq = Vector.replicate 64 {} ∧ t.hst.cq = Vector.replicate 16 {} ∧
      t.hst.tel = Vector.replicate 32 {} ∧ t.hst.msix = [] ∧ t.hst.halted = 0#64 ∧ 1111 ∈ t.flt.raised ∧
      (∀ d ∈ t.hst.inflight, isTun d.src = false → d.mute = true) ∧
      ∀ n : AxisId, s.hasAxis n = true → t.ax[n].ch.st ≠ .run)) ∧
  (∀ s : State, s.bar0 = true →
    (∀ arg, ∃ t, exec (.haltAll arg) s = .next t ∧ t.hst.urgLast = 1#8 ∧ t.hst.urgCnt = s.hst.urgCnt + 1#16 ∧
      ∀ n : AxisId, s.hasAxis n = true → t.hst.halted.getLsbD n.val = true ∧
        t.ax[n].ch.st = .hold) ∧
    (∀ arg : BitVec 8, (h : arg.toNat < 8) → s.hasBank ⟨arg.toNat, h⟩ = true →
      ∃ t, exec (.haltBank arg) s = .next t ∧ t.hst.urgLast = 2#8 ∧
        ∀ n : AxisId, s.hasAxis n = true → n.bank.val = arg.toNat → t.hst.halted.getLsbD n.val = true ∧
          t.ax[n].ch.st = .hold) ∧
    (∀ arg : BitVec 8, (h : arg.toNat < 64) → s.hasAxis ⟨arg.toNat, h⟩ = true →
      ∃ t, exec (.safeAxis arg) s = .next t ∧ t.hst.urgLast = 3#8 ∧ t.hst.halted = s.hst.halted ||| axisMask ⟨arg.toNat, h⟩ ∧
        t.ax[arg.toNat].ch.st = .hold) ∧
    (∀ data : Word, s.urgentAxes (bits data 31 24) (bits data 7 0) = none →
      exec (.badUrgentCommand data) s = .next { s with hst := { s.hst with urgBad := satInc s.hst.urgBad } }))

/-! The power stage and the gate drive (02). -/

/-- 02 R35, R37, R40, R42, R44, R45; 03 R68: each of the five power-stage faults, when its detector and its times allow it
and its bit is not latched yet, latches, raises its source FS(16n + k), takes the six gates off and forces the axis to
OPEN, with an earlier latch standing or not. A Vds fault and a hard overcurrent begin the two-step turn-off where no
fault is latched. A Vds event before the blanking and the 40 ns deglitch are over does nothing. -/
def Obligations.PowerStageFaultsLatchAndOpen : Prop :=
  ∀ (s : State) (n : AxisId),
    (∀ p : Phase, let x := s.ax[n].gdr.gates[hiGate p.idx]
      x.turned = true → x.vdsActive = true → x.blankEnd + 16 ≤ s.cref → s.ax[n].gdr.latches.getLsbD p.idx.val = false →
      answers (exec (.vdsHigh n p) s) fun t => latched n (BitVec.twoPow 16 p.idx.val) 0 s t ∧
        (s.ax[n].gdr.latches = 0#16 → t.ax[n].gdr.softRun = true ∧ t.ax[n].gdr.softAt = s.cref)) ∧
    (∀ p : Phase, let x := s.ax[n].gdr.gates[loGate p.idx]
      x.turned = true → x.vdsActive = true → x.blankEnd + 16 ≤ s.cref → s.ax[n].gdr.latches.getLsbD (p.idx.val + 3) = false →
      answers (exec (.vdsLow n p) s) fun t => latched n (BitVec.twoPow 16 (p.idx.val + 3)) 1 s t ∧
        (s.ax[n].gdr.latches = 0#16 → t.ax[n].gdr.softRun = true ∧ t.ax[n].gdr.softAt = s.cref)) ∧
    (∀ p : Phase, s.cref < s.ax[n].gdr.gates[hiGate p.idx].blankEnd + 16 → exec (.vdsHigh n p) s = .next s) ∧
    (∀ p : Phase, s.cref < s.ax[n].gdr.gates[loGate p.idx].blankEnd + 16 → exec (.vdsLow n p) s = .next s) ∧
    (∀ g : Gate, s.waits n (gateIdx g) = true → s.ax[n].gdr.gates[complGate (gateIdx g)].lateOff s.cref = true →
      s.ax[n].gdr.latches.getLsbD (6 + (gateIdx g).val) = false →
      answers (exec (.gateHandshake n g) s) (latched n (BitVec.twoPow 16 (6 + (gateIdx g).val)) 2 s)) ∧
    (∀ p : Phase, s.ax[n].gdr.gates[hiGate p.idx].turned = true → s.inHold n = false →
      s.ax[n].gdr.latches.getLsbD (12 + p.idx.val) = false →
      answers (exec (.bstOkClear n p) s) (fun t => latched n (BitVec.twoPow 16 (12 + p.idx.val)) 3 s t ∧
        t.ax[n].gdr.bstOk.getLsbD p.idx.val = false)) ∧
    (∀ p : Phase, s.ax[n].gdr.gates[hiGate p.idx].turned = false ∨ s.inHold n = true →
      answers (exec (.bstOkClear n p) s) fun t => t.ax[n].gdr = { s.ax[n].gdr with
        bstOk := s.ax[n].gdr.bstOk &&& ~~~ BitVec.twoPow 3 p.idx.val } ∧ SameButAxis n s t) ∧
    (∀ p : Phase, s.cmpActs n p.idx 16 = true → s.ax[n].gdr.latches.getLsbD 15 = false →
      answers (exec (.overcurrentHard n p) s) fun t => latched n 0x8000#16 5 s t ∧
        (s.ax[n].gdr.latches = 0#16 → t.ax[n].gdr.softRun = true ∧ t.ax[n].gdr.softAt = s.cref))

/-- 02 R34, R39, R40, R41, R543; 04 R98, R100: the command of a gate rises at the end of its dead time and its turn-on waits
where the driver does not block it; the gate turns on only with its complement off for 20 ns, with the threshold and
blanking codes then in force, codes above 38 as 38 and blanking 0 as 1; a fall takes it off at its time, at once; and the
Vds comparison begins when blanking ends. -/
def Obligations.GatesFollowTheirCommands : Prop :=
  ∀ (s : State) (n : AxisId) (g : Gate), let i := gateIdx g
    (s.riseDue n i = true → s.genAllows n i = true → s.ax[n].gdr.gates[i].cmd = false → s.driverBlocks n i = false →
      answers (exec (.gateCommandRise n g) s) fun t => t.ax[n].gdr.gates[i].cmd = true ∧ t.ax[n].gdr.gates[i].pendingOn = true ∧
        t.ax[n].gdr.gates[i].on = s.ax[n].gdr.gates[i].on ∧ t.ax[n].pwm.dueOf i = none ∧ t.flt = s.flt ∧ SameButAxis n s t) ∧
    (s.riseDue n i = false → exec (.gateCommandRise n g) s = .next s) ∧
    (s.ax[n].gdr.gates[i].pendingOn = true → s.ax[n].gdr.gates[i].cmd = true → s.ax[n].gdr.gates[complGate i].on = false →
      s.ax[n].gdr.gates[complGate i].soft = false →
      (∀ c, s.ax[n].gdr.gates[complGate i].offAt = some c → c + 8 ≤ s.cref) →
      (isHigh i = true → s.ax[n].gdr.bstOk.getLsbD (gatePhase i).val = true) →
      answers (exec (.gateTurnOn n g) s) fun t => t.ax[n].gdr.gates[i].on = true ∧ t.ax[n].gdr.gates[i].pendingOn = false ∧
        t.ax[n].gdr.gates[i].turned = true ∧ t.ax[n].gdr.gates[i].onAt = s.cref ∧
        t.ax[n].gdr.gates[i].thr.toNat = Nat.min 38 (bits s.ax[n].gdr.vdsIn (if isHigh i then 5 else 13) (if isHigh i then 0 else 8)) ∧
        t.ax[n].gdr.gates[i].blank.toNat = Nat.max 1 (bits s.ax[n].gdr.vdsIn (if isHigh i then 21 else 29) (if isHigh i then 16 else 24)) ∧
        t.ax[n].gdr.gates[complGate i].on = false ∧ SameButAxis n s t) ∧
    (s.ax[n].gdr.gates[complGate i].on = true → exec (.gateTurnOn n g) s = .next s) ∧
    (s.fallDue n i = true → (s.ax[n].pwm.dbgHalted = false ∨ s.ax[n].gdr.latches ≠ 0#16) →
      answers (exec (.gateCommandFall n g) s) fun t => t.ax[n].gdr.gates[i].cmd = false ∧ t.ax[n].gdr.gates[i].on = false ∧
        t.ax[n].gdr.gates[i].pendingOn = false ∧ (∀ j : Fin 6, j ≠ i → t.ax[n].gdr.gates[j] = s.ax[n].gdr.gates[j]) ∧ SameButAxis n s t) ∧
    (s.fallDue n i = false → exec (.gateCommandFall n g) s = .next s) ∧
    (s.ax[n].gdr.gates[i].turned = true → s.ax[n].gdr.gates[i].blankEnd ≤ s.cref → answers (exec (.blankingEnd n g) s) fun t =>
        t.ax[n].gdr.gates[i] = { s.ax[n].gdr.gates[i] with vdsActive := true } ∧ SameButAxis n s t)

/-- 02 R34: no step turns on a gate whose complement is on, so that from a state in which no phase has both sides on
every step leads to such a state. -/
def Obligations.StepKeepsOneSideOn : Prop := ∀ s t : State, (∀ n : AxisId, s.ax[n].oneSideOn) → step s = .next t → ∀ n : AxisId, t.ax[n].oneSideOn

/-- 02 R36, R38, R43; 03 R68; 04 R115, R116, R128: the driver's bootstrap flags and the refresh that each crossing of the early warning
requests while enabled, the end of a soft step T_SOFT after its beginning, the comparators' activation CMP_BLANK after
the turn-on, and the Hem sources: a comparator that has been active for its deglitch time, and TRIPb with TRIP_EN once it has been high
for TRIP_FILT cp, code 0 as 1, cut the bridge. -/
def Obligations.DriverEventsComplete : Prop :=
  ∀ (s : State) (n : AxisId),
    (∀ p : Phase, answers (exec (.bstOkSet n p) s) fun t => t.ax[n].gdr = { s.ax[n].gdr with bstOk := s.ax[n].gdr.bstOk ||| BitVec.twoPow 3 p.idx.val } ∧
      SameButAxis n s t) ∧
    (∀ p : Phase, bit s.ax[n].gdr.ctrlIn 1 = true → s.ax[n].pwm.ph[p.idx].request = none →
      answers (exec (.bootstrapEarlyWarning n p) s) fun t => t.ax[n].gdr.bstEw.getLsbD p.idx.val = true ∧
        t.ax[n].pwm.ph[p.idx].request = some s.cref ∧ SameButAxis n s t) ∧
    (∀ p : Phase, bit s.ax[n].gdr.ctrlIn 1 = false →
      answers (exec (.bootstrapEarlyWarning n p) s) fun t => t.ax[n].gdr.bstEw.getLsbD p.idx.val = true ∧
        t.ax[n].pwm = s.ax[n].pwm ∧ SameButAxis n s t) ∧
    (s.ax[n].gdr.softRun = true → s.ax[n].gdr.softAt + 40 * s.ax[n].gdr.softCode.toNat ≤ s.cref →
      answers (exec (.softStepEnd n) s) fun t => t.ax[n].gdr.softRun = false ∧ (∀ g : Fin 6, t.ax[n].gdr.gates[g].soft = false) ∧ SameButAxis n s t) ∧
    (∀ p : Phase, s.ax[n].gdr.gates[loGate p.idx].turned = true → s.ax[n].cmpFrom p.idx ≤ s.cref → answers (exec (.cmpBlankEnd n p) s) fun t =>
      t.ax[n].sns = { s.ax[n].sns with cmpActive := s.ax[n].sns.cmpActive ||| BitVec.twoPow 3 p.idx.val } ∧ SameButAxis n s t) ∧
    (∀ p : Phase, s.cmpActs n p.idx 8 = true → bit s.ax[n].sns.cmpIn 17 = true → s.forced n = .none →
      answers (exec (.hemComparator n p) s) fun t => t.ax[n].pwm.hem = true ∧ t.ax[n].pwm.hemPeriod = true ∧ bit t.ax[n].pwm.sticky 23 = true ∧
        (∀ g : Fin 3, t.ax[n].gdr.gates[hiGate g].on = false ∧ t.ax[n].gdr.gates[hiGate g].cmd = false) ∧ SameButAxis n s t) ∧
    (∀ held, bit s.ax[n].pwm.now.ctrl 7 = true → Nat.max 1 (bits s.ax[n].pwm.now.hem 15 8) ≤ held → s.forced n = .none →
      answers (exec (.tripHem n held) s) fun t => t.bank[n.bank].trip = true ∧ t.ax[n].pwm.hem = true ∧
        (∀ g : Fin 3, t.ax[n].gdr.gates[hiGate g].on = false) ∧ ∀ m : AxisId, m ≠ n → t.ax[m] = s.ax[m]) ∧
    (∀ held, bit s.ax[n].pwm.now.ctrl 7 = false ∨ held < Nat.max 1 (bits s.ax[n].pwm.now.hem 15 8) →
      answers (exec (.tripHem n held) s) fun t => t.bank[n.bank].trip = true ∧ t.ax = s.ax)

/-- 02 R48, R49, R52; 15 R422, R431: an input of a bank moves its level and, where it falls, withdraws the line; a rise of ENb
after a low of 10 µs or more clears the latches whose cause has gone and counts, one of less than 9.4 µs clears nothing,
and one between them does either; in SERVICE mode ENb moves its own level alone. The STO inputs raise STO_ACTIVE at the
onset and STO_DISCREPANCY after 10 ms of difference. A write that has crossed the link takes effect on the driver die.
02 R49: the gate-enable line of a bank follows its seven conditions after every command on the bank's inputs: it is
released only where all of them hold, and when it is withdrawn every gate of the bank goes off. -/
def Obligations.BankLinesFollowTheirConditions : Prop :=
  (∀ (s : State) (b : BankId), s.sup ≠ .service →
    (answers (exec (.enbFall b) s) fun t => t.bank[b].enPin = false ∧ t.bank[b].en = false ∧ t.bank[b].gateEn = false ∧ t.bank[b].brkOn = false) ∧
    (s.bank[b].en = false → ∀ lowNs, 10000 ≤ lowNs → answers (exec (.enbRise b lowNs) s) fun t => t.bank[b].en = true ∧
      t.bank[b].clearCnt = s.bank[b].clearCnt + 1#8 ∧ ∀ n : AxisId, n.bank = b → t.ax[n].gdr.latches = s.latchesKept n) ∧
    (s.bank[b].en = false → ∀ lowNs, 9400 ≤ lowNs → lowNs < 10000 → answers (exec (.enbRise b lowNs) s) fun t => t.bank[b].en = true ∧
      (t.bank[b].clearCnt = s.bank[b].clearCnt + 1#8 ∧ (∀ n : AxisId, n.bank = b → t.ax[n].gdr.latches = s.latchesKept n) ∨
       t.bank[b].clearCnt = s.bank[b].clearCnt ∧ ∀ n : AxisId, t.ax[n].gdr.latches = s.ax[n].gdr.latches)) ∧
    (s.bank[b].en = false → ∀ lowNs, lowNs < 9400 → answers (exec (.enbRise b lowNs) s) fun t => t.bank[b].en = true ∧
      t.bank[b].clearCnt = s.bank[b].clearCnt ∧ ∀ n : AxisId, t.ax[n].gdr.latches = s.ax[n].gdr.latches)) ∧
  (∀ (s : State) (b : BankId), s.sup = .service →
    exec (.enbFall b) s = .next { s with bank := s.bank.set b { s.bank[b] with enPin := false } } ∧
    ∀ lowNs, exec (.enbRise b lowNs) s = .next { s with bank := s.bank.set b { s.bank[b] with enPin := true } }) ∧
  (∀ (s : State) (b : BankId),
    (answers (exec (.stoFall b .chA) s) fun t => t.bank[b].stoA = false ∧ t.bank[b].stoB = s.bank[b].stoB ∧ t.bank[b].gateEn = false ∧
      t.bank[b].discRun = s.bank[b].stoB ∧
      (s.bank[b].stoA = true → s.bank[b].stoB = true → s.hasBank b = true → bankSrc b 1 ∈ t.flt.raised)) ∧
    (answers (exec (.stoFall b .chB) s) fun t => t.bank[b].stoB = false ∧ t.bank[b].stoA = s.bank[b].stoA ∧ t.bank[b].gateEn = false ∧
      t.bank[b].discRun = s.bank[b].stoA ∧
      (s.bank[b].stoA = true → s.bank[b].stoB = true → s.hasBank b = true → bankSrc b 1 ∈ t.flt.raised)) ∧
    (answers (exec (.stoRise b .chA) s) fun t => t.bank[b].stoA = true ∧ t.bank[b].stoB = s.bank[b].stoB ∧ t.bank[b].discRun = !s.bank[b].stoB) ∧
    (answers (exec (.stoRise b .chB) s) fun t => t.bank[b].stoB = true ∧ t.bank[b].stoA = s.bank[b].stoA ∧ t.bank[b].discRun = !s.bank[b].stoA) ∧
    (s.bank[b].discRun = true → s.ckt (s.bank[b].discAt + ms 10) = true → s.flt.met.getLsbD (bankSrc b 0) = false →
      answers (exec (.stoDiscrepancy b) s) fun t => t.flt.raised = s.flt.raised ++ [bankSrc b 0] ∧ t.bank[b].bothLow = false ∧ t.ax = s.ax) ∧
    (s.bank[b].discRun = false → exec (.stoDiscrepancy b) s = .next s) ∧
    (s.bankOn b = true → s.flt.met.getLsbD (bankSrc b 4) = false → answers (exec (.vdrvUv b false) s) fun t =>
      t.bank[b].vdrvOk = false ∧ t.bank[b].gateEn = false ∧ bankSrc b 4 ∈ t.flt.raised) ∧
    (s.bankOn b = true → answers (exec (.vdrvUv b true) s) fun t => t.bank[b].vdrvOk = true ∧ t.flt.met.getLsbD (bankSrc b 4) = false) ∧
    (∀ x rest, s.bank[b].down = x :: rest → answers (exec (.downlinkWriteApplied b) s) fun t => t.bank[b].down = rest ∧
      (x.1 < 8 → x.2.1 = 0x400 → t.ax[(Fin.ofNat 64 (8 * b.val + x.1)).val].gdr.ctrlIn = x.2.2) ∧
      (x.1 < 8 → x.2.1 = 0x404 → t.ax[(Fin.ofNat 64 (8 * b.val + x.1)).val].gdr.vdsIn = x.2.2) ∧
      (x.1 < 8 → x.2.1 = 0x408 → t.ax[(Fin.ofNat 64 (8 * b.val + x.1)).val].gdr.softIn = x.2.2) ∧
      (x.1 < 8 → x.2.1 = 0x800 → t.ax[(Fin.ofNat 64 (8 * b.val + x.1)).val].sns.cfgIn = x.2.2) ∧
      (x.1 = 8 → x.2.1 = 0x024 → t.bank[b].brkLvlIn = x.2.2) ∧ (x.1 = 8 → x.2.1 = 0x00C → t.bank[b].brkIn = x.2.2))) ∧
  (∀ (s : State) (b : BankId) (c : Instr), (c = .enbFall b ∧ s.sup ≠ .service ∨ (∃ l, c = .enbRise b l ∧ s.bank[b].en = false ∧ s.sup ≠ .service) ∨
      (∃ ch, c = .stoFall b ch) ∨ (∃ ch, c = .stoRise b ch) ∨ ∃ a, c = .vdrvUv b a) →
    answers (exec c s) fun t => (t.bank[b].gateEn = true ↔ t.gateCond b = true) ∧
      (t.bank[b].gateEn = false → s.bank[b].gateEn = true → ∀ n : AxisId, n.bank = b → allOff t.ax[n]))

/-! Sensing (03). -/

/-- 03 R66, R67, R70, R71, R74: the driver die sorts a sample pulse by its width: below 25 ns it closes the integrators and
samples the phase voltages, above 50 ns it starts a conversion, and between them it does both; a hold less than 200 ns
after the previous converted hold converts nothing and counts as dropped. 180 ns after its hold a conversion sends its
SAMPLE frame; on the 1 µs grid a STATUS frame takes its values and starts where the lanes let it.
03 R73 to R76, R91, R544: a frame that has crossed the lanes without bit errors brings its values: a SAMPLE frame to
SNS_CUR and E0's queue, an INTEGRAL frame to the sensing words, a STATUS frame to GDR_LIVE and the VIN registers; a frame
that fails its CRC counts and brings nothing; a boundary whose closing is 1 µs late leaves the record. -/
def Obligations.SamplesAndFramesBringTheirValues : Prop :=
  (∀ (s : State) (n : AxisId), s.senses n = true → let q := s.ax[n].sns
    (∀ w vs vph, w < 25 → answers (exec (.samplePulse n w vs vph) s) fun t =>
      t.ax[n].sns = ({ (q.lanes s.cref).close vs with vphIn := codes12 vph }.sendIntegral s.cref).lanes s.cref ∧ SameButAxis n s t) ∧
    (∀ w vs vph, 25 ≤ w → w ≤ 50 → q.overrun (s.cref - w * 2 / 5) s.cref = false → answers (exec (.samplePulse n w vs vph) s) fun t =>
      t.ax[n].sns = { (q.lanes s.cref).close vs with
        vphIn := codes12 vph, holdAt := some s.cref, conv := some { at_ := s.cref, boundary := true, cal := q.calRun } } ∧ SameButAxis n s t) ∧
    (∀ w vs vph, 50 < w → q.overrun (s.cref - w * 2 / 5) s.cref = false → answers (exec (.samplePulse n w vs vph) s) fun t =>
      t.ax[n].sns = { q.lanes s.cref with holdAt := some s.cref, conv := some { at_ := s.cref, boundary := false, cal := q.calRun } } ∧ SameButAxis n s t) ∧
    (∀ w vs vph, 50 < w → q.overrun (s.cref - w * 2 / 5) s.cref = true → answers (exec (.samplePulse n w vs vph) s) fun t =>
      t.ax[n].sns = { q.lanes s.cref with drops := q.drops + 1 } ∧ SameButAxis n s t) ∧
    (∀ c codes, q.conv = some c → c.cal = false → c.at_ + 72 ≤ s.cref → answers (exec (.conversionComplete n codes) s) fun t =>
      t.ax[n].sns.conv = none ∧ (∃ f : LaneFrame, t.ax[n].sns.laneS = q.laneS ++ [f] ∧
        f.i = ⟨code14 codes.a, code14 codes.b, code14 codes.c⟩ ∧ f.vs = q.vs ∧ f.boundary = c.boundary ∧ f.at_ = c.at_ ∧
        f.ends = some (Nat.max (q.lanes s.cref).laneEnd s.cref + 13)) ∧ SameButAxis n s t) ∧
    (∀ m d, q.gridAt s.cref = some d → answers (exec (.statusFrameDue n m) s) fun t =>
      t.ax[n].sns = { q.lanes s.cref with statusAt := some d, statusWait := some (s.statusOf n m, d) }.lanes s.cref ∧
        t.ax[n].gdr.bstEw = m.bstEw ∧ SameButAxis n s t)) ∧
  (∀ (s : State) (n : AxisId), Stored s → s.senses n = true → let q := s.ax[n].sns
    (∀ f rest, q.laneS = f :: rest → f.arrived s.cref = true → s.injected 3 n.val = false → s.ax[n].clu.recovering = false →
      s.openStopped n 0 = false → s.enginesRun = true → s.ax[n].clu.frames.length < 16 → answers (exec (.sampleFrame n 0#128) s) fun t =>
        t.ax[n].sns.laneS = rest ∧ t.ax[n].sns.cur = f.i ∧ t.ax[n].sns.sampleCnt = q.sampleCnt + 1#16 ∧
        (∃ x : SampleIn, t.ax[n].clu.frames = s.ax[n].clu.frames ++ [x] ∧ x.frame = f) ∧ t.sig = s.sig ∧ (s.linkSilent n.bank = false → t.bank = s.bank) ∧
        (s.linkSilent n.bank = true → t.bank[n.bank].linkAt = s.cref)) ∧
    (∀ f rest err, q.laneS = f :: rest → f.arrived s.cref = true → s.injected 3 n.val = false → frameOk (f.sampleBits ^^^ err) 0#2 = false →
      answers (exec (.sampleFrame n err) s) fun t =>
        t.ax[n].sns.laneS = rest ∧ t.ax[n].sns.crcCnt = satInc q.crcCnt ∧ t.ax[n].sns.cur = q.cur ∧
        t.ax[n].clu = s.ax[n].clu ∧ t.sig = s.sig) ∧
    (∀ f rest, (q.lanes s.cref).laneI = f :: rest → f.arrived s.cref = true → s.ax[n].clu.recovering = false → s.openStopped n 0 = false →
      answers (exec (.integralFrame n 0#128) s) fun t => t.ax[n].sns.laneI = rest ∧ t.ax[n].sns.vph = f.vph ∧
        t.e n 0 20 = vsWord f.vs.a ∧ t.e n 0 21 = vsWord f.vs.b ∧ t.e n 0 22 = vsWord f.vs.c ∧
        (∀ a, (a < sigAddr n 0 20 ∨ sigAddr n 0 31 < a) → t.sig.rd a = s.sig.rd a)) ∧
    (∀ r e, (q.lanes s.cref).statusSent = some (r, e) → e ≤ s.cref → answers (exec (.statusFrame n true) s) fun t =>
        t.ax[n].sns.statusSent = none ∧ t.ax[n].sns.vph = r.vph ∧ t.ax[n].sns.ofs = r.ofs ∧ t.ax[n].sns.ofsBad = r.ofsBad ∧
        t.ax[n].gdr.live = r.live ∧ t.bank[n.bank].vinRaw = r.vinRaw ∧ t.bank[n.bank].vinAvg = r.vinAvg ∧
        t.bank[n.bank].temps = r.temps ∧ t.bank[n.bank].vdrvLevel = r.vdrv ∧
        (s.ax[n].clu.recovering = false → s.openStopped n 0 = false → t.e n 0 31 = r.vph.c.setWidth 32 ∧
          t.e n 0 33 = fieldAt 16 r.vinAvg.toNat ||| r.vinRaw.setWidth 32)) ∧
    (∀ r e, (q.lanes s.cref).statusSent = some (r, e) → e ≤ s.cref → answers (exec (.statusFrame n false) s) fun t =>
        t.ax[n].sns.crcCnt = satInc q.crcCnt ∧ t.ax[n].gdr = s.ax[n].gdr ∧ t.bank[n.bank].vinAvg = s.bank[n.bank].vinAvg) ∧
    (∀ b rest, q.record = b :: rest → b.at_ + 400 ≤ s.cref → s.enginesRun = true → answers (exec (.boundaryMissing n) s) fun t => t.ax[n].sns.record = rest ∧
        (∃ h : Half, t.ax[n].ch.halves = s.ax[n].ch.halves ++ [h] ∧ h.bad = true ∧ h.peak = b.peak) ∧ SameButAxis n s t))

/-- 03 R80, R81: a calibration begins only in HOLD and OPEN with the trims written and CKL locked, 100 µs after entry into HOLD
and at each tick of 100 ms from there where CAL_EN is set, or on request; after its 64th conversion, and no
sooner than 14.8 µs after its beginning, each phase takes the mean of its 64 codes where it lies within 256, and keeps its offset with OFS_BAD where it does not.
02 R50, R51; 03 R76, R77; 14 R414, R415; 15 R422: VIN samples with the chopper that they ask for, its cut-off, off-time and
test pulse, the temperatures, the NTC inputs, and the loss of a bank link. -/
def Obligations.CalibrationAndBankMeasurements : Prop :=
  (∀ (s : State) (n : AxisId),
    (s.calTickNow n = true → s.ax[n].sns.calTickAt ≠ some s.cref → bit s.ax[n].sns.cfgIn 3 = true → s.calOk n = true → s.ax[n].sns.calRun = false → answers (exec (.calibrationTick n) s) fun t =>
      t.ax[n].sns.calRun = true ∧ t.ax[n].sns.calCount = 0 ∧ t.ax[n].sns.calStart = s.cref ∧ SameButAxis n s t) ∧
    (s.calOk n = true → s.ax[n].sns.calRun = false → answers (exec (.calReq n) s) fun t =>
      t.ax[n].sns.calRun = true ∧ t.ax[n].sns.calStart = s.cref ∧ SameButAxis n s t) ∧
    (s.calOk n = false → s.ax[n].sns.calRun = false → answers (exec (.calReq n) s) fun t =>
      t.ax[n].sns = { s.ax[n].sns with calReq := false } ∧ SameButAxis n s t) ∧
    (s.ax[n].sns.calRun = true → answers (exec (.calReq n) s) fun t => t.ax[n].sns = { s.ax[n].sns with calReq := true, calReqAt := s.cref } ∧ SameButAxis n s t) ∧
    (s.ax[n].sns.calRun = true → 64 ≤ s.ax[n].sns.calCount → s.ax[n].sns.calStart + 5920 ≤ s.cref → s.ax[n].sns.calReq = false → answers (exec (.calibrationComplete n) s) fun t =>
      t.ax[n].sns.calRun = false ∧ t.ax[n].sns.calAt = some s.cref ∧ t.ax[n].ch.calDone = true ∧
      (-256 ≤ calMean s.ax[n].sns.calSum.a → calMean s.ax[n].sns.calSum.a ≤ 256 →
        t.ax[n].sns.ofsIn.a.toInt = calMean s.ax[n].sns.calSum.a ∧ t.ax[n].sns.ofsBadIn.getLsbD 0 = false) ∧
      (256 < calMean s.ax[n].sns.calSum.a → t.ax[n].sns.ofsIn.a = s.ax[n].sns.ofsIn.a ∧ t.ax[n].sns.ofsBadIn.getLsbD 0 = true) ∧
      (256 < calMean s.ax[n].sns.calSum.c → t.ax[n].sns.ofsIn.c = s.ax[n].sns.ofsIn.c ∧ t.ax[n].sns.ofsBadIn.getLsbD 2 = true) ∧
      SameButAxis n s t)) ∧
  (∀ (s : State) (b : BankId),
    (∀ code, s.bankOn b = true → answers (exec (.vinSample b code) s) fun t =>
      t.bank[b].vinWin = (code :: s.bank[b].vinWin).take 16 ∧
      (s.bank[b].brkMode = 1 → s.bank[b].minoff = false → s.brkAllowed b = true → s.bank[b].chopLevels = true →
        (bits s.bank[b].brkLvlIn 11 0 ≤ code.toNat → t.bank[b].brkOn = true) ∧
        (code.toNat ≤ bits s.bank[b].brkLvlIn 27 16 → t.bank[b].brkOn = false)) ∧
      (s.bank[b].brkMode = 1 → s.bank[b].chopLevels = false → t.bank[b].brkOn = false) ∧ t.ax = s.ax) ∧
    (s.bank[b].brkOn = true → s.bank[b].testRun = false → s.bank[b].brkOnAt + s.bank[b].maxonCp ≤ s.cref →
      exec (.maxonCutoff b) s = .next { s with bank := s.bank.set b { s.bank[b] with
        brkOn := false, minoff := true, minoffAt := s.cref, maxonCnt := satInc s.bank[b].maxonCnt } }) ∧
    (s.bank[b].brkOn = true → s.bank[b].testRun = true → s.bank[b].brkOnAt + s.bank[b].maxonCp ≤ s.cref →
      answers (exec (.maxonCutoff b) s) fun t => t.bank[b].brkOn = false ∧ t.bank[b].testRun = false ∧ t.bank[b].minoff = true ∧
        bits t.bank[b].brkCfg 1 0 = 0 ∧ t.ax = s.ax) ∧
    (s.bank[b].minoff = true → s.bank[b].minoffAt + s.bank[b].minoffCp ≤ s.cref →
      answers (exec (.minoffEnd b) s) fun t => t.bank[b].minoff = false ∧ t.ax = s.ax ∧
        (s.bank[b].brkMode = 1 → t.bank[b].brkOn = (s.bank[b].brkAsk && s.bank[b].chopLevels && s.brkAllowed b))) ∧
    (s.bank[b].brkMode = 2 → s.bank[b].testRun = false → s.bank[b].minoff = false → s.brkAllowed b = true →
      (∀ n : AxisId, n.bank = b → s.inHold n = true) →
      exec (.brkTestPulse b) s = .next { s with bank := s.bank.set b { s.bank[b] with testRun := true, brkOn := true, brkOnAt := s.cref } }) ∧
    ((∃ n : AxisId, n.bank = b ∧ s.inHold n = false) → exec (.brkTestPulse b) s = .next s) ∧
    (s.bank[b].testRun = true → s.bank[b].brkOnAt + s.bank[b].testCp ≤ s.cref → answers (exec (.testPulseEnd b) s) fun t => t.bank[b].testRun = false ∧ t.bank[b].brkOn = false ∧
      bits t.bank[b].brkCfg 1 0 = 0 ∧ t.ax = s.ax) ∧
    (s.bankOn b = true → ∀ t0 t1 t2 t3 : BitVec 16, 2000 ≤ hottest [t0, t1, t2, t3] → s.flt.met.getLsbD (bankSrc b 2) = false →
      answers (exec (.tempSample (.driver b) t0 t1 t2 t3) s) fun t =>
        t.bank[b].tempsIn = #v[t0, t1, t2, t3] ∧ t.bank[b].hot = true ∧ t.bank[b].gateEn = false ∧ bankSrc b 2 ∈ t.flt.raised) ∧
    (s.bankOn b = true → ∀ t0 t1 t2 t3 : BitVec 16, hottest [t0, t1, t2, t3] < 1760 →
      answers (exec (.tempSample (.driver b) t0 t1 t2 t3) s) fun t => t.bank[b].tempsIn = #v[t0, t1, t2, t3] ∧ t.bank[b].hot = (s.bank[b].hot && s.hotHeld b) ∧
        t.flt.met.getLsbD (bankSrc b 3) = false) ∧
    (∀ t0 t1 t2 t3 : BitVec 16, answers (exec (.tempSample .control t0 t1 t2 t3) s) fun t => t.pwr.ctrlT0 = t0 ∧ t.pwr.ctrlT1 = t1 ∧ t.ax = s.ax ∧
        t.bank = s.bank) ∧
    (∀ (i : Fin 16) code, bit s.ntcCfg i.val = true → answers (exec (.ntcConversion i code) s) fun t =>
        t.ntc[i].setWidth 12 = code ∧ bit t.ntc[i] 31 = decide (4080 ≤ code.toNat) ∧ bit t.ntc[i] 30 = decide (code.toNat ≤ 16) ∧
        (16 < code.toNat → code.toNat < 4080 →
          t.pwr.ntcT[i] = (ntcTemp (Config.ntcR25 i.val) (Config.ntcBeta i.val) code.toNat s.freeCtr).setWidth 32) ∧
        (s.flt.met.getLsbD (1120 + i.val) = false → (4080 ≤ code.toNat ∨ code.toNat ≤ 16) → t.flt.raised = s.flt.raised ++ [1120 + i.val])) ∧
    (s.bankOn b = true → s.linkSilent b = true → s.flt.met.getLsbD (bankSrc b 6) = false → answers (exec (.bankLink b) s) fun t =>
        t.flt.raised = s.flt.raised ++ [bankSrc b 6] ∧ t.ax = s.ax))

/-! The pulse-width generator (04). -/

/-- 04 R105, R106: at a switching point and at a TRGk edge, while no Seam commits on the edge, the event is issued once in
the half; in a selected period it becomes pending in every engine of the cluster.
03 R67; 04 R94, R95, R107, R113, R114, R119; 16 R458: the counter's start at the first target zero at least 16 cp on and its
slip, the trigger line at the instant that calls for a pulse, the end of a refresh, charging that fails after 64 zeros,
and the debug halt with its hold and its end. -/
def Obligations.GeneratorEventsAndControlComplete : Prop :=
  (∀ (s : State) (n : AxisId), s.axOn n = true → s.commitDue = false → s.ax[n].pwm.evPeriod = true →
    (∀ p : Phase, ∀ up, s.ax[n].pwm.atPoint p.idx up = true → 0 < s.ax[n].pwm.act.cmp p.idx → s.ax[n].pwm.act.cmp p.idx ≤ s.ax[n].pwm.act.perT →
      answers (exec (.cmpEvent n p up) s) fun t => (∀ j : EngId, t.ax[n].clu.eng[j].ev.getLsbD (3 + p.idx.val) = true) ∧
        t.ax[n].pwm.issued.getLsbD (pointBit p.idx up) = true ∧ t.ax[n].pwm.count = s.ax[n].pwm.count ∧
        (∀ m : AxisId, m ≠ n → t.ax[m] = s.ax[m]) ∧ t.sig = s.sig ∧ t.flt = s.flt) ∧
    (∀ p : Phase, ∀ up, s.ax[n].pwm.atPoint p.idx up = false → exec (.cmpEvent n p up) s = .next s) ∧
    (∀ k : Fin 2, s.ax[n].pwm.atTrg k = true →
      answers (exec (.trgEvent n k) s) fun t => (∀ j : EngId, t.ax[n].clu.eng[j].ev.getLsbD (6 + k.val) = true) ∧
        t.ax[n].pwm.issued.getLsbD (6 + k.val) = true ∧ (∀ m : AxisId, m ≠ n → t.ax[m] = s.ax[m]) ∧ t.sig = s.sig ∧
        ((s.ax[n].sns.trigSel (2 + k.val) && s.ax[n].pwm.smpPeriod) = true → s.trgClash n k = true → bit t.ax[n].pwm.sticky 26 = true))) ∧
  (∀ (s : State) (n : AxisId),
    (s.axOn n = true → s.clk.dll = true → s.ax[n].pwm.mode = .stopped → answers (exec (.counterStart n) s) fun t =>
      t.ax[n].pwm.mode = (if s.ax[n].pwm.dbgHalted then .frozen else .waiting) ∧ t.ax[n].pwm.pcount = 0#32 ∧ t.ax[n].pwm.count = 0 ∧ s.cref + 16 ≤ t.ax[n].pwm.goAt ∧
      (0 < s.ax[n].pwm.act.per.toNat → s.ax[n].pwm.toTarget t.ax[n].pwm.goAt = 0) ∧ SameButAxis n s t) ∧
    (s.ax[n].pwm.mode = .slipping → s.ax[n].pwm.goAt ≤ s.cref → answers (exec (.slipEnd n) s) fun t => t.ax[n].pwm = { s.ax[n].pwm with mode := .counting } ∧ SameButAxis n s t) ∧
    (∀ k, s.axOn n = true → s.riseCalled n k = true → s.commitDue = false → s.ax[n].sns.trigHigh = none → answers (exec (.sampleTriggerRise n k) s) fun t =>
      t.ax[n].sns = { s.ax[n].sns with trigHigh := some (k, s.cref) } ∧ SameButAxis n s t) ∧
    (∀ p : Phase, ∀ e : Int, s.ax[n].pwm.ph[p.idx].refresh = true → s.ax[n].pwm.ph[p.idx].refreshEnd = some e → e < s.nowT + 32 →
      (s.ax[n].pwm.dbgHalted = false ∨ s.ax[n].gdr.latches ≠ 0#16) → answers (exec (.refreshEnd n p) s) fun t =>
      t.ax[n].pwm.ph[p.idx].refresh = false ∧ t.ax[n].pwm.ph[p.idx].refreshEnd = none ∧
      (∀ t0 : Int, s.ax[n].pwm.ph[p.idx].loFall = some t0 → t0 < s.nowT + 32 → s.ax[n].pwm.ph[p.idx].lo = true → s.forced n ≠ .short →
        t.ax[n].gdr.gates[loGate p.idx].on = false) ∧ SameButAxis n s t) ∧
    (∀ p : Phase, s.ax[n].pwm.dbgHalted = true → s.ax[n].gdr.latches = 0#16 → exec (.refreshEnd n p) s = .next s) ∧
    (s.ax[n].ch.st = .charging → 64 ≤ s.ax[n].pwm.chargeZeros → s.ax[n].gdr.bstLive ≠ 7#3 → answers (exec (.chargeFail n) s) fun t =>
      t.ax[n].ch.st = .hold ∧ t.ax[n].ch.refuse = 7#8 ∧ bit t.ax[n].pwm.sticky 29 = true) ∧
    (∀ j : EngId, s.axOn n = true → s.engDebug = true → s.ax[n].clu.eng[j].st ≠ .halted → answers (exec (.debugHalt n j) s) fun t =>
      t.ax[n].clu.eng[j].st = .halted ∧ t.ax[n].clu.eng[j].haltedFrom = s.ax[n].clu.eng[j].st ∧ t.ax[n].clu.dbg.getLsbD j.val = true ∧
      t.sec.jtagActive = true ∧ (s.dbgFree = false → t.ax[n].pwm.dbgHalted = true)) ∧
    (∀ j : EngId, s.engDebug = false → exec (.debugHalt n j) s = .next s) ∧
    (s.ax[n].pwm.dbgHalted = true → s.ax[n].pwm.dbgHold = true → s.ax[n].pwm.dbgAt + s.ax[n].pwm.holdCp ≤ s.cref →
      s.ax[n].pwm.charging = false → answers (exec (.dbgHoldEnd n) s) fun t =>
      t.ax[n].pwm.dbgHold = false ∧ allOff t.ax[n]) ∧
    (s.ax[n].clu.dbg ≠ 0#16 → answers (exec (.debugResume n) s) fun t => t.ax[n].clu.dbg = 0#16 ∧
      (∀ j : EngId, s.ax[n].clu.eng[j].st = .halted → t.ax[n].clu.eng[j].st = s.ax[n].clu.eng[j].haltedFrom) ∧
      (s.ax[n].pwm.dbgHalted = true → s.ax[n].pwm.mode = .frozen → t.ax[n].pwm.mode = .restarting)))

/-- 04 R93, R95, R102, R107: at a zero the set-up registers load, PCOUNT counts but at the first zero after a start, the counter
turns upward or slips, the group loads where UPD_MODE has it, and the boundary enters the record.
04 R93, R102, R107: at a peak the counter turns downward, the group loads where UPD_MODE has it, and the boundary enters the
record; a counter that does not count up, or has not counted PER cp, takes no peak.
04 R96, R98, R100: at the up switching point of a switching phase whose low pulse has lasted MINPW, the low side turns off and
the high side falls due DTR later. -/
def Obligations.CounterZerosPeaksAndSwitchingPoints : Prop :=
  (∀ (s : State) (n : AxisId) (live : HemLive), s.axOn n = true → s.clk.dll = true → s.ax[n].pwm.atZero s.cref = true →
    s.commitDue = false →
    answers (exec (.zero n live) s) fun t =>
      let w := { s.ax[n].pwm.capture s.cref with now := s.ax[n].pwm.setup }
      t.ax[n].pwm.now = s.ax[n].pwm.setup ∧ t.ax[n].pwm.act = (if w.updZero then w.shadow else s.ax[n].pwm.act) ∧
      t.ax[n].pwm.count = 0 ∧ t.ax[n].pwm.down = false ∧
      t.ax[n].pwm.pcount = (if s.ax[n].pwm.mode = .waiting then s.ax[n].pwm.pcount else s.ax[n].pwm.pcount + 1#32) ∧
      (t.ax[n].pwm.mode = .counting ∨ t.ax[n].pwm.mode = .slipping) ∧
      t.ax[n].sns.record = s.ax[n].sns.record ++ [{ peak := false, pcount := t.ax[n].pwm.pcount, at_ := s.cref, per := s.ax[n].pwm.half, cmp := #v[s.ax[n].pwm.act.cmpA, s.ax[n].pwm.act.cmpB, s.ax[n].pwm.act.cmpC] }] ∧
      (∀ m : AxisId, m ≠ n → t.ax[m] = s.ax[m])) ∧
  (∀ (s : State) (n : AxisId),
    (s.axOn n = true → s.clk.dll = true → s.ax[n].pwm.mode = .counting → s.ax[n].pwm.down = false → s.ax[n].pwm.count = s.ax[n].pwm.half → s.commitDue = false →
      answers (exec (.peak n) s) fun t =>
        t.ax[n].pwm.act = (if s.ax[n].pwm.updPeak then (s.ax[n].pwm.capture s.cref).shadow else s.ax[n].pwm.act) ∧
        t.ax[n].pwm.count = t.ax[n].pwm.act.per.toNat ∧ t.ax[n].pwm.half = t.ax[n].pwm.count ∧ t.ax[n].pwm.down = true ∧ t.ax[n].pwm.pcount = s.ax[n].pwm.pcount ∧
        t.ax[n].sns.record = s.ax[n].sns.record ++ [{ peak := true, pcount := s.ax[n].pwm.pcount, at_ := s.cref, per := s.ax[n].pwm.half, cmp := #v[s.ax[n].pwm.act.cmpA, s.ax[n].pwm.act.cmpB, s.ax[n].pwm.act.cmpC] }] ∧
        (∀ m : AxisId, m ≠ n → t.ax[m] = s.ax[m])) ∧
    (s.ax[n].pwm.count ≠ s.ax[n].pwm.half → exec (.peak n) s = .next s) ∧
    (s.ax[n].pwm.mode ≠ .counting → exec (.peak n) s = .next s)) ∧
  (∀ (s : State) (n : AxisId) (p : Phase), let w := s.ax[n].pwm; let x := w.ph[p.idx]; let c := w.act.cmp p.idx
    s.axOn n = true → s.commitDue = false → w.atPoint p.idx true = true → s.switching n = true → w.hem = false → w.act.level p.idx = none →
    0 < c → c ≤ w.act.perT → x.lo = true → x.hi = false → x.loAt + w.minpw ≤ s.nowT → x.refreshEnd = none →
    0 < 2 * (w.act.perT - c) - x.shiftUp - w.act.dtr p.idx →
    w.minpw ≤ 2 * (w.act.perT - c) - x.shiftUp - w.act.dtr p.idx →
    answers (exec (.cmpEvent n p true) s) fun t => t.ax[n].gdr.gates[loGate p.idx].on = false ∧ t.ax[n].gdr.gates[loGate p.idx].cmd = false ∧
      t.ax[n].pwm.ph[p.idx].hiDue = some (s.nowT + (c + x.shiftUp) % 32 + w.act.dtr p.idx) ∧
      (∀ m : AxisId, m ≠ n → t.ax[m] = s.ax[m]) ∧ t.sig = s.sig)

/-! The position feedback (05). -/

/-- 05 R134 to R137, R142: the first accepted edge of a CKP edge, without an index event on it: a counted QUAD edge moves the
linear position by one, forward where A leads B unless INVERT swaps it; a change of both levels at once, and one less than
10 cp after the previous edge, is an illegal transition, which moves nothing; and a Hall code moves it by one to the next
sector. A level counts as accepted once the terminal has differed for FILT cp. -/
def Obligations.CountedEdgesMoveThePosition : Prop :=
  ∀ (s : State) (n : AxisId), s.axOn n = true → let f := s.ax[n].fbk
    let fits (l : Int) : Prop := -(2 : Int) ^ 31 ≤ l / (f.cprVal : Int) ∧ l / (f.cprVal : Int) < (2 : Int) ^ 31
    (∀ i : Fin 4, ∀ p : Pin, f.accept i p = if f.filtOf i ≤ p.held then p.level else f.levels.getLsbD i.val) ∧
    (∀ pa pb : Pin, let a := f.accept 0 pa; let b := f.accept 1 pb
      f.freshEdge s.cref → f.mode = .quad → bits f.ctrl 3 2 = 0 → f.tooSoon s.cref = false →
      (bits f.ctrl 9 8 = 0 ∨ f.levels.getLsbD 2 = false) → ((a != f.levels.getLsbD 0) != (b != f.levels.getLsbD 1)) = true →
      let fwd : Bool := ((if a != f.levels.getLsbD 0 then a != b else a == b) != bit f.ctrl 5)
      fits (f.pos + if fwd then 1 else -1) →
      answers (exec (.countingEdge n pa pb) s) fun t => t.ax[n].fbk.pos = f.pos + (if fwd then 1 else -1) ∧
        t.ax[n].fbk.levels.getLsbD 0 = a ∧ t.ax[n].fbk.levels.getLsbD 1 = b ∧ t.ax[n].fbk.edgeAt = some s.cref ∧
        t.flt = s.flt ∧ SameButAxis n { s with out := t.out } t) ∧
    (∀ pa pb : Pin, let a := f.accept 0 pa; let b := f.accept 1 pb
      f.freshEdge s.cref → f.mode = .quad → (bits f.ctrl 9 8 = 0 ∨ f.levels.getLsbD 2 = false) →
      (a = (!f.levels.getLsbD 0) ∧ b = (!f.levels.getLsbD 1) ∨
        ((a != f.levels.getLsbD 0) || (b != f.levels.getLsbD 1)) = true ∧ f.tooSoon s.cref = true) →
      answers (exec (.countingEdge n pa pb) s) fun t => t.ax[n].fbk.pos = f.pos ∧ t.ax[n].fbk.sticky.getLsbD 0 = true ∧
        t.ax[n].fbk.leak = satInc f.leak ∧ t.ax[n].fbk.refAt = some s.cref ∧ t.ax[n].fbk.edgeAt = some s.cref) ∧
    (∀ (pu pv pw : Pin) (j k : Fin 6), let lv := setBitW (setBitW (setBitW f.levels 0 (f.accept 0 pu)) 1 (f.accept 1 pv)) 2 (f.accept 2 pw)
      f.freshEdge s.cref → f.mode = .hall → f.sector = some j → f.lossHall = false → f.tooSoon s.cref = false →
      hallSector { f with levels := lv }.code = some k → k.val = (j.val + 1) % 6 → lv ≠ f.levels →
      fits (f.pos + if bit f.ctrl 5 then -1 else 1) →
      answers (exec (.hallCodeChange n pu pv pw) s) fun t => t.ax[n].fbk.pos = f.pos + (if bit f.ctrl 5 then -1 else 1) ∧
        t.ax[n].fbk.sector = some k ∧ t.ax[n].fbk.hallInvalid = false ∧ t.ax[n].fbk.levels = lv ∧
        SameButAxis n { s with out := t.out } t)

/-- 05 R143 to R146: an index event, QI accepted high with its gate where that did not hold before, captures the position and
becomes pending in the cluster; under IDX_MODE 3 it brings the count to IDX_VAL; a selected QX edge captures; a preset is
taken in HOLD and rejected outside it; arming arms. Each is the first action of its CKP edge here.
05 R139 to R141, R152: after its final sample a valid SSI frame is taken, bit by bit as QB stood at its sample times, and
ends an SSI loss; an invalid one counts as missed; the leaky counter falls by one at CREF mod 400,000 = 0 and ends its loss
at 0; and a Hall code invalid for HALL_INV_T raises FEEDBACK_LOSS. -/
def Obligations.IndexPresetAndSsiEvents : Prop :=
  (∀ (s : State) (n : AxisId), s.axOn n = true → let f := s.ax[n].fbk
    (∀ i : Pin, f.freshEdge s.cref → f.mode = .quad → bits f.ctrl 9 8 = 1 → f.gateOk = true → f.idxHeld = false → f.accept 2 i = true →
      answers (exec (.indexEvent n i) s) fun t => t.ax[n].fbk.idxLo = BitVec.ofNat 32 f.count ∧ t.ax[n].fbk.idxHi = f.rev ∧
        t.ax[n].fbk.count = f.count ∧ t.ax[n].fbk.sticky.getLsbD 2 = true ∧ t.ax[n].fbk.idxHeld = true ∧
        (∀ j : EngId, t.ax[n].clu.eng[j].ev.getLsbD 8 = true) ∧ SameButAxis n s t) ∧
    (∀ i : Pin, f.freshEdge s.cref → f.mode = .quad → bits f.ctrl 9 8 = 3 → f.gateOk = true → f.idxHeld = false → f.accept 2 i = true →
      f.count < f.cprVal → bits f.idxCfg 23 0 < f.cprVal →
      answers (exec (.indexEvent n i) s) fun t => t.ax[n].fbk.count = bits f.idxCfg 23 0 ∧ t.ax[n].fbk.idxErr = BitVec.ofInt 32 f.idxD ∧
        t.ax[n].fbk.idxLo = BitVec.ofNat 32 f.count) ∧
    (∀ i : Pin, f.mode = .quad → f.idxHeld = true → f.accept 2 i = true → f.gateOk = true →
      answers (exec (.indexEvent n i) s) fun t => t.ax[n].fbk.count = f.count ∧ t.ax[n].fbk.idxLo = f.idxLo ∧ t.ax[n].clu = s.ax[n].clu) ∧
    (∀ x : Pin, f.freshEdge s.cref → f.mode ≠ .ssi → f.accept 3 x ≠ f.levels.getLsbD 3 → bit f.ctrl (if f.accept 3 x then 13 else 14) = true →
      answers (exec (.auxCapture n x) s) fun t =>
        t.ax[n].fbk.auxLo = BitVec.ofNat 32 f.count ∧ t.ax[n].fbk.auxHi = f.rev ∧ t.ax[n].fbk.sticky = f.sticky ||| 0x08#8 ∧ SameButAxis n s t) ∧
    (f.freshEdge s.cref → s.inHold n = true → f.mode ≠ .ssi → bits f.presetLo 23 0 < f.cprVal → answers (exec (.preset n) s) fun t =>
        t.ax[n].fbk = { f with count := bits f.presetLo 23 0, rev := f.presetHi, since := f.since ||| 0x80#8, edge := t.ax[n].fbk.edge } ∧
        SameButAxis n s t) ∧
    ((s.inHold n = false ∨ f.mode = .ssi ∨ f.cprVal ≤ bits f.presetLo 23 0) →
      answers (exec (.preset n) s) fun t => t.ax[n].fbk = { f with sticky := f.sticky ||| 0x80#8, edge := t.ax[n].fbk.edge } ∧ SameButAxis n s t) ∧
    (answers (exec (.idxArm n) s) fun t => t.ax[n].fbk = { f with idxArm := true, edge := t.ax[n].fbk.edge } ∧ SameButAxis n s t)) ∧
  (∀ (s : State) (n : AxisId), let f := s.ax[n].fbk
    (∀ (t0 : Nat) (qb : List (Nat × Bool)), f.ssi = some t0 → f.mode = .ssi → t0 + f.ssiFinal + 1 ≤ s.cref →
      qbAt qb 0 = true → qbAt qb f.ssiFinal = false → answers (exec (.ssiFrameEnd n qb) s) fun t =>
      t.ax[n].fbk.ssi = none ∧ t.ax[n].fbk.ssiRaw = BitVec.ofNat 64 (f.ssiBits qb) ∧ t.ax[n].fbk.ssiMiss = 0 ∧
      t.ax[n].fbk.lossIll = false ∧ t.ax[n].fbk.ssiLastBad = false ∧ t.ax[n].fbk.ssiTrigAt = t0 ∧ SameButAxis n { s with flt := t.flt } t) ∧
    (∀ (t0 : Nat) (qb : List (Nat × Bool)), f.ssi = some t0 → f.mode = .ssi → t0 + f.ssiFinal + 1 ≤ s.cref →
      (qbAt qb 0 = false ∨ qbAt qb f.ssiFinal = true) → answers (exec (.ssiFrameEnd n qb) s) fun t =>
      t.ax[n].fbk.ssi = none ∧ t.ax[n].fbk.ssiLastBad = true ∧ t.ax[n].fbk.ssiMiss = f.ssiMiss + 1 ∧ t.ax[n].fbk.pos = f.pos ∧
      t.ax[n].fbk.sticky = f.sticky ||| 0x20#8) ∧
    (∀ (t0 : Nat) (qb : List (Nat × Bool)), f.ssi = some t0 → s.cref < t0 + f.ssiFinal + 1 → exec (.ssiFrameEnd n qb) s = .next s) ∧
    (s.axOn n = true → f.mode = .quad ∨ f.mode = .hall → f.leak ≠ 0#8 → s.cref % 400000 = 0 → f.leakAt ≠ some s.cref →
      answers (exec (.leakTick n) s) fun t =>
      t.ax[n].fbk.leak = f.leak - 1#8 ∧ t.ax[n].fbk.lossIll = (f.lossIll && f.leak ≠ 1#8) ∧ t.ax[n].fbk.pos = f.pos ∧ t.flt.raised = s.flt.raised) ∧
    (s.cref % 400000 ≠ 0 → exec (.leakTick n) s = .next s) ∧
    (s.axOn n = true → f.mode = .hall → f.hallInvalid = true → f.lossHall = false → f.hallInvAt + f.hallInvT ≤ s.cref →
      answers (exec (.hallInvalidTimeout n) s) fun t =>
      t.ax[n].fbk.lossHall = true ∧ t.flt.raised = s.flt.raised ++ [axisSrc n 7] ∧ t.ax[n].fbk.pos = f.pos))

/-! The control chain (06, 07). Every binary32 operation is the one that log entry 11 names. -/

/-- 06 R160, R164, R169 to R171: E0 takes its oldest frame into the sensing words; for a sample of a current step with all three phases
measured it publishes i = −(code − offset) × 200 µV / (gain × R_SHUNT), notes DEGRADED from HEM, and makes the current step due.
In which order the products round is the model's choice (log entry 11). -/
def Obligations.SampleConditioningPublishesTheCurrents : Prop :=
  ∀ (s : State) (n : AxisId) (f : SampleIn) (rest : List SampleIn), Stored s → StageRuns s n →
    s.ax[n].clu.frames = f :: rest →
    answers (exec (.sampleConditioning n) s) fun t => t.ax[n].clu.frames = rest ∧
      t.e n 0 16 = f.frame.i.a.signExtend 32 ∧ t.e n 0 17 = f.frame.i.b.signExtend 32 ∧ t.e n 0 18 = f.frame.i.c.signExtend 32 ∧
      t.e n 0 19 = f.win ∧ t.e n 0 20 = vsWord f.frame.vs.a ∧ t.e n 0 24 = f.fb[0] ∧ t.e n 0 29 = f.fb[5] ∧
      t.e n 0 34 = fieldAt 0 (bits s.ax[n].sns.cfgIn 1 0) ∧ (∀ m : AxisId, m ≠ n → t.ax[m] = s.ax[m]) ∧ t.hst = s.hst ∧
      (∀ b : Boundary, f.frame.cal = false → f.frame.boundary = true → f.closing = some b → b.peak = false → bit f.win 1 = false → bits f.win 6 4 = 0 →
        t.e n 0 0 = F32.negate (F32.fmul (F32.fdiv (F32.lit 200 1000000) (F32.fmul (F32.lit (gainOf (bits s.ax[n].sns.cfgIn 1 0)) 1) (s.param n 0 64)))
          (F32.ofInt (f.frame.i.a.toInt - s.ax[n].sns.ofs.a.toInt))) ∧
        t.e n 0 4 = F32.fadd (F32.fadd (t.e n 0 0) (t.e n 0 1)) (t.e n 0 2) ∧ bit (t.e n 0 3) 7 = bit f.win 11 ∧
        t.ax[n].ch.curDue = true ∧ t.ax[n].ch.thisPc = b.pcount ∧ t.ax[n].ch.thisHold = f.frame.at_)

/-- 06 R164, R172, R181, R183: a due current step rotates the conditioned currents by the angle predicted for their hold, publishes a new
observer angle, and, where the axis is controlled, hands E6's three duty words to the generator; it falls due no more. (A start attempt that has failed goes to its safe state first, R205.) -/
def Obligations.CurrentStepRotatesAndModulates : Prop :=
  ∀ (s : State) (n : AxisId), Stored s → StageRuns s n → s.ax[n].ch.curDue = true → s.ax[n].ch.failDue = false →
    answers (exec (.currentStep n) s) fun t => t.ax[n].ch.curDue = false ∧ t.ax[n].ch.lastHold = some s.ax[n].ch.thisHold ∧
      t.e n 1 2 = (clarke (s.e n 0 0) (s.e n 0 1) (s.e n 0 2)).1 ∧ t.e n 1 3 = (clarke (s.e n 0 0) (s.e n 0 1) (s.e n 0 2)).2 ∧
      t.e n 1 4 = s.e n 4 2 ∧
      t.e n 1 0 = F32.fadd (F32.fmul (t.e n 1 2) (s.cosT 0 (s.e n 4 2))) (F32.fmul (t.e n 1 3) (s.sinT 1 (s.e n 4 2))) ∧
      t.ax[n].ch.halves = [] ∧ t.e n 2 4 = F32.fmul (F32.ofInt (bits (s.e n 0 33) 27 16 : Nat)) (F32.lit 25 1000) ∧
      (s.controls n = true → ∃ a b c, t.ax[n].pwm.dutyWait = some (a, b, c) ∧ t.e n 6 0 = a ∧ t.e n 6 1 = b ∧ t.e n 6 2 = c) ∧
      (s.controls n = false → t.ax[n].pwm.dutyWait = s.ax[n].pwm.dutyWait) ∧ t.out = s.out

/-- 06 R164, R167, R191: a due speed step takes MODE_REQ and writes it to 0, changes the mode where E12 accepts it and notes REFUSE 8
where it does not, and, out of STARTING and with no sweep on the axis, forms the d-axis reference within ID_MIN and 0.
06 R164, R187: a due position step in POSITION and RUN with no segment at hand publishes the following error, which stops at the
ends of an int32, and E10 writes its own outputs over again; in another mode it writes no word. -/
def Obligations.SpeedAndPositionStepsFollow : Prop :=
  (∀ (s : State) (n : AxisId), Stored s → StageRuns s n → s.ax[n].ch.spdDue = true →
    answers (exec (.speedStep n) s) fun t => t.ax[n].ch.spdDue = false ∧ t.ax[n].ch.lastSpd = some s.ax[n].ch.thisHold ∧
      t.e n 12 18 = 0#32 ∧
      (∀ m, bit (s.e n 12 18) 31 = true → modeOf (bits (s.e n 12 18) 3 0) = some m → modeAllowed s.ax[n].ch m (bit (s.e n 12 18) 4) = true →
        t.ax[n].ch.mode = m ∧ t.ax[n].ch.reduced = bit (s.e n 12 18) 4) ∧
      (∀ m, bit (s.e n 12 18) 31 = true → modeOf (bits (s.e n 12 18) 3 0) = some m → modeAllowed s.ax[n].ch m (bit (s.e n 12 18) 4) = false →
        t.ax[n].ch.mode = s.ax[n].ch.mode ∧ t.ax[n].ch.reduced = s.ax[n].ch.reduced ∧ t.ax[n].ch.refuse = 8#8) ∧
      (bit (s.e n 12 18) 31 = false → t.ax[n].ch.mode = s.ax[n].ch.mode ∧ t.ax[n].ch.reduced = s.ax[n].ch.reduced) ∧
      (s.ax[n].ch.st ≠ .starting → s.sweepOn n = none → F32.isFinite (s.refWordOf n 12 17) = true → t.e n 5 0 = clampF (s.param n 12 65) 0#32 (s.refWordOf n 12 17)) ∧
      t.ax[n].ch.st = s.ax[n].ch.st ∧ t.out = s.out) ∧
  (∀ (s : State) (n : AxisId), Stored s → StageRuns s n → s.ax[n].ch.posDue = true →
    answers (exec (.positionStep n) s) fun t => t.ax[n].ch.posDue = false ∧
      (s.ax[n].ch.mode ≠ .position → t.sig = s.sig) ∧
      (s.ax[n].ch.mode = .position → s.ax[n].ch.st = .run → s.ax[n].ch.reduced = false → s.ax[n].ch.seg = none → s.segDepth n = 0 →
        (let dl := ((join64 (s.e n 9 1) (s.e n 9 0)) - (join64 (s.e n 4 8) (s.e n 4 7))).toInt
         (-2147483648 ≤ dl → dl ≤ 2147483647 → (t.e n 9 2).toInt = dl) ∧ (2147483647 < dl → (t.e n 9 2).toInt = 2147483647) ∧
         (dl < -2147483648 → (t.e n 9 2).toInt = -2147483648)) ∧
        t.e n 10 0 = s.own n 10 0 ∧ t.e n 10 1 = s.own n 10 1 ∧
        ∀ a, a ≠ sigAddr n 9 2 → a ≠ sigAddr n 8 0 → a ≠ sigAddr n 10 0 → a ≠ sigAddr n 10 1 → a ≠ sigAddr n 10 2 → a ≠ sigAddr n 10 3 → t.sig.rd a = s.sig.rd a))

/-- 07 R202, R205, R206, R209, R215, R216; 06 R179, R180: once T_ALIGN has passed the end of alignment begins the ramp; an attempt
that a current step has found to fail goes to its safe state and waits, or after the last ends in HOLD with START_FAIL, or on
a FAN axis raises START_FAIL once and waits; once RETRY_WAIT has passed the next attempt begins; a stop that is at one of its
ends ends in HOLD; and the chain's conditions raise their sources once their times have passed, and not before. -/
def Obligations.StartStopAndChainEventsComplete : Prop :=
  ∀ (s : State) (n : AxisId), let c := s.ax[n].ch
    (c.st = .starting → c.start = .align → c.sinceStart s.cref 8 = true →
      answers (exec (.alignmentEnd n) s) fun t => t.ax[n].ch.start = .ramp ∧ t.ax[n].ch.travel = some 0#32 ∧
      t.ax[n].ch.psi[0] = F32.fmul (F32.fadd (s.param n 3 67) (F32.fmul (s.param n 3 65) (s.attemptI n))) (s.cosT 0 c.thetaF) ∧
      (Mem.wf zeroAt s.sig = true → t.e n 3 0 = c.thetaF ∧ ∀ a, a ≠ sigAddr n 3 0 → t.sig.rd a = s.sig.rd a) ∧ t.flt = s.flt) ∧
    (c.sinceStart s.cref 8 = false → exec (.alignmentEnd n) s = .next s) ∧
    (c.st = .starting → c.start = .align ∨ c.start = .ramp → c.failDue = true → c.attempt < triesOf c.startRec →
      answers (exec (.startAttemptFail n) s) fun t => t.ax[n].ch.start = .wait ∧ t.ax[n].ch.st = .starting ∧ t.ax[n].ch.startAt = s.cref ∧
        t.ax[n].ch.attempt = c.attempt ∧ t.flt = s.flt) ∧
    (c.st = .starting → c.start = .align ∨ c.start = .ramp → c.failDue = true → triesOf c.startRec ≤ c.attempt → c.mode ≠ .fan →
      answers (exec (.startAttemptFail n) s) fun t => t.ax[n].ch.st = .hold ∧ axisSrc n 9 ∈ t.flt.raised) ∧
    (c.st = .starting → c.start = .align ∨ c.start = .ramp → c.failDue = true → triesOf c.startRec ≤ c.attempt → c.mode = .fan →
      answers (exec (.startAttemptFail n) s) fun t => t.ax[n].ch.st = .starting ∧ t.ax[n].ch.start = .wait ∧ t.ax[n].ch.failRaised = true ∧
        t.flt.raised = s.flt.raised ++ (if c.failRaised then [] else [axisSrc n 9])) ∧
    (c.failDue = false → exec (.startAttemptFail n) s = .next s) ∧
    (c.st = .starting → c.start = .wait → c.hardBrake = false → c.sinceStart s.cref 40 = true → c.attempt < triesOf c.startRec →
      answers (exec (.retryWaitEnd n) s) fun t => t.ax[n].ch.st = .starting ∧ t.ax[n].ch.attempt = c.attempt + 1 ∧
        t.ax[n].ch.startRec = s.startRecord n ∧ (t.ax[n].ch.start = .align ∨ t.ax[n].ch.start = .ramp)) ∧
    (s.stallDue n = true → s.flt.met.getLsbD (axisSrc n 10) = false →
      answers (exec (.stall n) s) fun t => t.flt.raised = s.flt.raised ++ [axisSrc n 10] ∧ t.ax = s.ax) ∧
    (s.stallDue n = false → exec (.stall n) s = .next s) ∧
    (s.stopDone n = true → answers (exec (.stopEnd n) s) fun t => t.ax[n].ch.st = .hold ∧ t.ax[n].ch.shortBrake = false) ∧
    (s.stopDone n = false → exec (.stopEnd n) s = .next s) ∧
    (s.tachWatched n = true → secsPassed (s.cref - c.tachAt) (wordAt (s.stopRecord n) 36) = true → s.flt.met.getLsbD (1152 + n.val) = false →
      answers (exec (.tachLoss n) s) fun t => t.flt.raised = s.flt.raised ++ [1152 + n.val] ∧ t.ax = s.ax) ∧
    (s.plausDue n = true → s.flt.met.getLsbD (axisSrc n 8) = false →
      answers (exec (.feedbackPlaus n) s) fun t => t.flt.raised = s.flt.raised ++ [axisSrc n 8] ∧ t.ax = s.ax) ∧
    (s.plausDue n = false → exec (.feedbackPlaus n) s = .next s) ∧
    (s.wordLate n = true → s.flt.met.getLsbD (axisSrc n 7) = false →
      answers (exec (.wordSourceTimeout n) s) fun t => t.flt.raised = s.flt.raised ++ [axisSrc n 7] ∧ t.ax[n].ch.wordValid = false) ∧
    (s.wordLate n = false → exec (.wordSourceTimeout n) s = .next s)

/-- 07 R212 to R214, R218: GOV_PERIOD after the last one a governor tick takes the registers as written, writes the mask, which
keeps its value while a hard reaction runs, and writes no word while its loop stays inactive; a mask not written for four
periods is stale; after T_HARD a hard short brake ends below its hysteresis and is else extended by T_HARD. -/
def Obligations.GovernorTicksComplete : Prop :=
  ∀ s : State,
    (s.sup = .ready → s.gov.tickAt + s.gov.period ≤ s.cref → answers (exec .govTick s) fun t =>
      t.gov.ctrlNow = s.gov.ctrl ∧ t.gov.cfgNow = s.gov.cfg ∧ t.gov.brkNow = s.gov.brk ∧ t.gov.tickAt = s.cref ∧
      bits t.gov.lvlNow 11 0 = bits s.gov.lvl 11 0 ∧ bits t.gov.lvlNow 27 16 = bits s.gov.lvlNow 27 16 ∧
      (s.gov.hard = true → t.gov.mask = s.gov.mask) ∧ t.gov.stale = false ∧ t.gov.maskAt = s.cref ∧
      (bit s.gov.ctrl 0 = false → t.gov.active = false) ∧ (bit s.gov.ctrl 0 = false → s.gov.active = false → t.sig = s.sig) ∧
      (bit s.gov.ctrl 0 = true → s.gov.active = false → t.gov.active = decide (bits s.gov.lvl 11 0 ≤ s.govV)) ∧
      (∀ a, (∀ n : AxisId, a ≠ sigAddr n 12 1) → Mem.wf zeroAt s.sig = true → t.sig.rd a = s.sig.rd a) ∧ t.ax = s.ax ∧ t.bank = s.bank) ∧
    (s.cref < s.gov.tickAt + s.gov.period → exec .govTick s = .next s) ∧
    (s.gov.maskAt + 4 * s.gov.period ≤ s.cref → exec .govMaskStale s = .next { s with gov := { s.gov with stale := true } }) ∧
    (s.cref < s.gov.maskAt + 4 * s.gov.period → exec .govMaskStale s = .next s) ∧
    (s.gov.hard = true → s.gov.hardAt + s.gov.tHard ≤ s.cref → s.govV + 4 * bits s.gov.cfgNow 23 16 < bits s.gov.lvlNow 27 16 →
      answers (exec .hardBrakeEnd s) fun t => t.gov.hard = false ∧ ∀ n : AxisId, s.ax[n].ch.hardBrake = true → t.ax[n].ch.hardRelease = true) ∧
    (s.gov.hard = true → s.gov.hardAt + s.gov.tHard ≤ s.cref → bits s.gov.lvlNow 27 16 ≤ s.govV + 4 * bits s.gov.cfgNow 23 16 →
      exec .hardBrakeEnd s = .next { s with gov := { s.gov with hardAt := s.gov.hardAt + s.gov.tHard } }) ∧
    (s.cref < s.gov.hardAt + s.gov.tHard → exec .hardBrakeEnd s = .next s)

/-! The YEI engines (09). -/

/-- 09 R246, R248, R250: the integer instructions, as an engine issues them from its instruction SRAM: their results
and flags; all else unchanged. -/
def Obligations.IntegerInstructionsCompute : Prop :=
  ∀ (s : State) (n : AxisId) (j : EngId) (d a b : GReg) (i : BitVec 16),
    let x := s.eng n j
    let p := x.rd a
    let C := x.flags.getLsbD 2
    let V := x.flags.getLsbD 3
    let Q := x.flags.getLsbD 4
    let X := x.flags.getLsbD 5
    (∀ c q, (c = .add n j d a b ∧ q = x.rd b) ∨ (c = .addi n j d a i ∧ q = i.signExtend 32) →
      Gives s n j c d (p + q) (decide (2 ^ 32 ≤ p.toNat + q.toNat)) (outside32 (p.toInt + q.toInt)) Q X) ∧
    (let q := x.rd b
     Gives s n j (.sub n j d a b) d (p - q) (decide (p.toNat < q.toNat)) (outside32 (p.toInt - q.toInt)) Q X) ∧
    (∀ c q, (c = .cmp n j a b ∧ q = x.rd b) ∨ (c = .cmpi n j a i ∧ q = i.signExtend 32) →
      Issues s c n j → ∃ f, exec c s = .next (s.wrote n j 0 0#32 f) ∧
        FlagsAre f (decide (p = q)) (p - q).msb (decide (p.toNat < q.toNat)) (outside32 (p.toInt - q.toInt)) Q X) ∧
    Gives s n j (.and n j d a b) d (p &&& x.rd b) C V Q X ∧ Gives s n j (.andi n j d a i) d (p &&& i.setWidth 32) C V Q X ∧
    Gives s n j (.or n j d a b) d (p ||| x.rd b) C V Q X ∧ Gives s n j (.ori n j d a i) d (p ||| i.setWidth 32) C V Q X ∧
    Gives s n j (.xor n j d a b) d (p ^^^ x.rd b) C V Q X ∧ Gives s n j (.xori n j d a i) d (p ^^^ i.setWidth 32) C V Q X ∧
    (Issues s (.lui n j d i) n j → exec (.lui n j d i) s = .next (s.wrote n j d (i ++ 0#16) x.flags)) ∧
    (∀ k, k = (x.rd b).toNat % 32 →
      Gives s n j (.shl n j d a b) d (BitVec.ofNat 32 (p.toNat * 2 ^ k)) (decide (0 < k) && p.getLsbD (32 - k)) V Q X ∧
      Gives s n j (.shr n j d a b) d (BitVec.ofNat 32 (p.toNat / 2 ^ k)) (decide (0 < k) && p.getLsbD (k - 1)) V Q X ∧
      Gives s n j (.sra n j d a b) d (BitVec.ofInt 32 (p.toInt / 2 ^ k)) (decide (0 < k) && p.getLsbD (k - 1)) V Q X) ∧
    (∀ k m, k = i.toNat % 32 → m = i.toNat / 32 % 4 → Issues s (.shi n j d a i) n j → ∃ v c, exec (.shi n j d a i) s =
        .next (s.wrote n j d v (setF (setF (setF x.flags 0 (v = 0#32)) 1 v.msb) 2 c)).bump ∧
      (m = 0 → v = BitVec.ofNat 32 (p.toNat * 2 ^ k) ∧ c = (decide (0 < k) && p.getLsbD (32 - k))) ∧
      (m = 1 → v = BitVec.ofNat 32 (p.toNat / 2 ^ k) ∧ c = (decide (0 < k) && p.getLsbD (k - 1))) ∧
      (m = 2 → v = BitVec.ofInt 32 (p.toInt / 2 ^ k) ∧ c = (decide (0 < k) && p.getLsbD (k - 1)))) ∧
    (let q := x.rd b
     Gives s n j (.mul n j d a b) d (p * q) C V Q X ∧
     Gives s n j (.mulh n j d a b) d ((p.signExtend 64 * q.signExtend 64).extractLsb' 32 32) C V Q X ∧
     (q = 0#32 → Gives s n j (.div n j d a b) d 0#32 C true Q X) ∧
     (p = 0x80000000#32 → q = 0xFFFFFFFF#32 → Gives s n j (.div n j d a b) d 0x80000000#32 C true Q X) ∧
     (q ≠ 0#32 → (p ≠ 0x80000000#32 ∨ q ≠ 0xFFFFFFFF#32) → Gives s n j (.div n j d a b) d (BitVec.ofInt 32 (p.toInt.tdiv q.toInt)) C false Q X) ∧
     (∃ v : Word, v.toInt = Min.min p.toInt q.toInt ∧ Gives s n j (.min n j d a b) d v C V Q X) ∧
     (∃ v : Word, v.toInt = Max.max p.toInt q.toInt ∧ Gives s n j (.max n j d a b) d v C V Q X))

/-- 09 R250: the Q31 instructions give the exact result saturated to int32, a product rounded to nearest, and set Q where they saturate;
a QMUL or QMAC whose product lies halfway between two words may give either. -/
def Obligations.SaturatingInstructionsCompute : Prop :=
  ∀ (s : State) (n : AxisId) (j : EngId) (d a b : GReg),
    let x := s.eng n j
    let p := (x.rd a).toInt
    let q := (x.rd b).toInt
    let C := x.flags.getLsbD 2
    let V := x.flags.getLsbD 3
    let Q := x.flags.getLsbD 4
    let X := x.flags.getLsbD 5
    (∀ c (v : Int), (c = .qadd n j d a b ∧ v = p + q) ∨ (c = .qsub n j d a b ∧ v = p - q) ∨ (c = .qneg n j d a ∧ v = -p) ∨
        (c = .qabs n j d a ∧ v = (p.natAbs : Nat)) ∨ (c = .qshl n j d a b ∧ v = p * 2 ^ ((x.rd b).toNat % 32)) →
      Issues s c n j → ∃ w : Word, w.toInt = clip32 v ∧ Gives s n j c d w C V (Q || outside32 v) X) ∧
    (∀ c (v0 : Int), (c = .qmul n j d a b ∧ v0 = 0) ∨ (c = .qmac n j d a b ∧ v0 = (x.rd d).toInt) →
      Issues s c n j → ∃ (r : Int) (w : Word) (f : BitVec 6), 2 * (2 ^ 31 * r - p * q).natAbs ≤ 2 ^ 31 ∧ w.toInt = clip32 (v0 + r) ∧
        exec c s = .next (s.wrote n j d w f).bump ∧
        FlagsAre f (decide (w = 0#32)) w.msb C V (Q || outside32 (v0 + r)) X)

/-- 09 R248, R250: the binary32 instructions write their result and set no flag but X; a NaN operand gives the one NaN or, in FMIN
and FMAX, the other operand; TSIN and TCOS give what the bound on their error allows. -/
def Obligations.FloatInstructionsCompute : Prop :=
  ∀ (s : State) (n : AxisId) (j : EngId) (d a b : GReg),
    let x := s.eng n j
    let p := x.rd a
    let q := x.rd b
    (∀ c v, (c = .fadd n j d a b ∧ v = F32.add p q) ∨ (c = .fsub n j d a b ∧ v = F32.sub p q) ∨ (c = .fmul n j d a b ∧ v = F32.mul p q) ∨
        (c = .fma n j d a b ∧ v = F32.fma (x.rd d) p q) ∨ (c = .fdiv n j d a b ∧ v = F32.div p q) →
      Issues s c n j → ∃ f, exec c s = .next (s.wrote n j d v.1 f) ∧ (F32.isNaN p = true ∨ F32.isNaN q = true → v.1 = 0x7FC00000#32) ∧
        FlagsAre f (x.flags.getLsbD 0) (x.flags.getLsbD 1) (x.flags.getLsbD 2) (x.flags.getLsbD 3) (x.flags.getLsbD 4) (x.flags.getLsbD 5 || v.2)) ∧
    (∀ c v, (c = .fsqrt n j d a ∧ v = F32.sqrt p) ∨ (c = .ftoi n j d a ∧ v = F32.toI32 p) →
      Issues s c n j → ∃ f, exec c s = .next (s.wrote n j d v.1 f) ∧
        FlagsAre f (x.flags.getLsbD 0) (x.flags.getLsbD 1) (x.flags.getLsbD 2) (x.flags.getLsbD 3) (x.flags.getLsbD 4) (x.flags.getLsbD 5 || v.2)) ∧
    (Issues s (.fmin n j d a b) n j → ∃ v, exec (.fmin n j d a b) s = .next (s.wrote n j d v x.flags) ∧ (F32.isNaN p = true → F32.isNaN q = false → v = F32.flush q) ∧
      (F32.isNaN q = true → F32.isNaN p = false → v = F32.flush p) ∧ (F32.lt p q = true → v = F32.flush p) ∧ (F32.lt q p = true → v = F32.flush q)) ∧
    (Issues s (.fmax n j d a b) n j → ∃ v, exec (.fmax n j d a b) s = .next (s.wrote n j d v x.flags) ∧ (F32.isNaN p = true → F32.isNaN q = false → v = F32.flush q) ∧
      (F32.isNaN q = true → F32.isNaN p = false → v = F32.flush p) ∧ (F32.lt p q = true → v = F32.flush q) ∧ (F32.lt q p = true → v = F32.flush p)) ∧
    (Issues s (.fabs n j d a) n j → ∃ v, exec (.fabs n j d a) s = .next (s.wrote n j d v x.flags) ∧ (F32.isNaN p = true → v = 0x7FC00000#32) ∧
      (F32.isNaN p = false → F32.isZero p = false → v = p &&& 0x7FFFFFFF#32)) ∧
    (Issues s (.fneg n j d a) n j → ∃ v, exec (.fneg n j d a) s = .next (s.wrote n j d v x.flags) ∧ (F32.isNaN p = true → v = 0x7FC00000#32) ∧
      (F32.isNaN p = false → F32.isZero p = false → v = p ^^^ 0x80000000#32)) ∧
    (Issues s (.fcmp n j a b) n j → ∃ f, exec (.fcmp n j a b) s = .next (s.wrote n j 0 0#32 f) ∧
      FlagsAre f (F32.eq p q) (F32.lt p q) false (F32.isNaN p || F32.isNaN q) (x.flags.getLsbD 4) (x.flags.getLsbD 5)) ∧
    (Issues s (.itof n j d a) n j → exec (.itof n j d a) s = .next (s.wrote n j d (F32.ofQ p.toInt 1 0).1 x.flags)) ∧
    (Issues s (.qtof n j d a) n j → exec (.qtof n j d a) s = .next (s.wrote n j d (F32.ofQ p.toInt 1 (-31)).1 x.flags)) ∧
    (Issues s (.ftoq n j d a) n j → ∃ f, exec (.ftoq n j d a) s = .next (s.wrote n j d (F32.toQ31 p).1 f) ∧
      FlagsAre f (x.flags.getLsbD 0) (x.flags.getLsbD 1) (x.flags.getLsbD 2) (x.flags.getLsbD 3) (x.flags.getLsbD 4 || (F32.toQ31 p).2) (x.flags.getLsbD 5)) ∧
    (Issues s (.tsin n j d a) n j → ∃ w, exec (.tsin n j d a) s = .next (s.wrote n j d (F32.trig w (F32.sinRef p.toNat)) x.flags).bump) ∧
    (Issues s (.tcos n j d a) n j → ∃ w, exec (.tcos n j d a) s = .next (s.wrote n j d (F32.trig w (F32.cosRef p.toNat)) x.flags).bump) ∧
    (Issues s (.tatan n j d a b) n j → ∃ v f, exec (.tatan n j d a b) s = .next (s.wrote n j d v f).bump ∧ (F32.isZero p = true → F32.isZero q = true → v = 0#32) ∧
      FlagsAre f (x.flags.getLsbD 0) (x.flags.getLsbD 1) (x.flags.getLsbD 2) (x.flags.getLsbD 3) (x.flags.getLsbD 4)
        (x.flags.getLsbD 5 || F32.isNaN p || F32.isNaN q))

/-- 09 R250, R252, R262 to R265: control flow, the waiting for events, posts, FENCE, BRK and the CSRs, as an engine issues them;
a condition or a CSR number that is not in the tables is an illegal instruction.
09 R260, R262 to R265: a WAITEV returns with the pending events of its mask and begins an activation; the oldest post of an engine
to a cluster, once its earlier stores there have arrived, or one of the supervisor, reaches its mailbox or, where that holds eight, is dropped with MBOX_OVF. -/
def Obligations.ControlInstructionsAndEventsComplete : Prop :=
  (∀ (s : State) (n : AxisId) (j : EngId),
    let x := s.eng n j
    (∀ cond imm t, Issues s (.b n j cond imm) n j → condHolds x.flags cond.val = some t → exec (.b n j cond imm) s = .next (s.modEng n j fun y =>
      { y with pc := if t then y.pc + 1 + (imm.signExtend 32).setWidth 11 else y.pc + 1 })) ∧
    (∀ t : BitVec 26, Issues s (.call n j t) n j → exec (.call n j t) s = .next (s.modEng n j fun y =>
      { y with g := y.g.set 31 ((y.pc + 1).setWidth 32), pc := t.setWidth 11 })) ∧
    (∀ a, Issues s (.jr n j a) n j → exec (.jr n j a) s = .next (s.modEng n j fun y => { y with pc := (x.rd a).setWidth 11 })) ∧
    (∀ d a, Issues s (.waitev n j d a) n j → answers (exec (.waitev n j d a) s) fun t => (t.eng n j).st = .waiting ∧ (t.eng n j).wait = some (d, x.rd a) ∧
      (t.eng n j).pc = x.pc + 1 ∧ (t.eng n j).g = x.g ∧ t.sig = s.sig ∧ ∀ m : AxisId, m ≠ n → t.ax[m] = s.ax[m]) ∧
    (∀ a b, Issues s (.post n j a b) n j → exec (.post n j a b) s = .next { s.modEng n j (fun y => { y with pc := y.pc + 1, seq := y.seq + 1 }) with
      posts := s.posts ++ [{ to_ := Fin.ofNat 64 (bits (x.rd a) 9 4), eng := Fin.ofNat 16 (bits (x.rd a) 3 0), sender := (n, j), val := x.rd b, seq := x.seq }] }) ∧
    (Issues s (.fence n j) n j → exec (.fence n j) s = .next (s.modEng n j fun y => { y with pc := y.pc + 1, fence := !y.stores.isEmpty })) ∧
    (Issues s (.brk n j) n j → s.engDebug = false → exec (.brk n j) s = .next (s.modEng n j fun y => { y with pc := y.pc + 1 })) ∧
    (Issues s (.brk n j) n j → s.engDebug = true → answers (exec (.brk n j) s) fun t => (t.eng n j).st = .halted ∧ (t.eng n j).haltedFrom = .active ∧
      (t.eng n j).pc = x.pc + 1) ∧
    (∀ d csr v, Issues s (.csrr n j d csr) n j → s.csr n j csr.toNat = some v → answers (exec (.csrr n j d csr) s) fun t =>
      (t.eng n j).g = (if d = 0 then x.g else x.g.set d v) ∧ (t.eng n j).pc = x.pc + 1 ∧ (t.eng n j).flags = x.flags ∧
      (t.eng n j).mbox = (if csr = 2 then x.mbox.drop 1 else x.mbox) ∧
      (t.eng n j).crefHi = (if csr = 6 then BitVec.ofNat 32 (s.cref / 2 ^ 32) else x.crefHi) ∧ SameButAxis n s t) ∧
    (∀ a csr, Issues s (.csrw n j a csr) n j → csr.toNat ≤ 9 → exec (.csrw n j a csr) s = .next (s.modEng n j fun y =>
      { y with pc := y.pc + 1, flags := if csr = 0 then (x.rd a).setWidth 6 else y.flags })) ∧
    (∀ c : Instr, ∀ i : BitVec 8, 9 < i.toNat → ∀ a d : GReg, ∀ cond : Fin 32, 10 < cond.val → ∀ imm,
      (c = .csrw n j a i ∨ c = .csrr n j d i ∨ c = .b n j cond imm) → Issues s c n j → exec c s = .next (s.illegal n j))) ∧
  (∀ (s : State),
    (∀ (n : AxisId) (j : EngId) d m, s.axOn n = true → s.enginesRun = true → s.epochHeld = false → (s.eng n j).st = .waiting →
      (s.eng n j).wait = some (d, m) → s.evPend n j &&& m ≠ 0#32 → (s.evPend n j &&& m).getLsbD 0 = false →
      answers (exec (.waitevReturn n j) s) fun t => (t.eng n j).st = .active ∧ (t.eng n j).wait = none ∧ (t.eng n j).act = (s.eng n j).act + 1#32 ∧
        (t.eng n j).actAt = s.cref ∧ (t.eng n j).ev = (s.eng n j).ev &&& ~~~ (s.evPend n j &&& m) ∧ (t.eng n j).mbox = (s.eng n j).mbox ∧
        (d ≠ 0 → (t.eng n j).g[d] = s.evPend n j &&& m) ∧ (∀ r, r ≠ d → (t.eng n j).g[r] = (s.eng n j).g[r]) ∧
        (t.eng n j).pc = (s.eng n j).pc ∧ SameButAxis n s t) ∧
    (∀ (n m : AxisId) (j : EngId) (l r : List Post) (p : Post), s.posts = l ++ p :: r → p.sender = (n, j) → p.to_ = m →
      (∀ q ∈ l, q.sender ≠ (n, j) ∨ q.to_ ≠ m) → s.aheadOf n j m.val p.seq = false →
      (s.axOn m = true → (s.eng m p.eng).st ≠ .stopped → (s.eng m p.eng).mbox.length < 8 →
        exec (.mboxPostArrival (.engine n j m)) s = .next { s.modEng m p.eng (fun y =>
          { y with mbox := y.mbox ++ [(fieldAt 4 n.val ||| fieldAt 0 j.val, p.val)] }) with posts := l ++ r }) ∧
      (s.axOn m = true → (s.eng m p.eng).st ≠ .stopped → 8 ≤ (s.eng m p.eng).mbox.length →
        exec (.mboxPostArrival (.engine n j m)) s = .next { s.modEng m p.eng (fun y => { y with sticky := y.sticky ||| 8#7 }) with posts := l ++ r }) ∧
      (s.axOn m = false ∨ (s.eng m p.eng).st = .stopped →
        exec (.mboxPostArrival (.engine n j m)) s = .next { s with posts := l ++ r })) ∧
    (∀ (m : AxisId) (j : EngId) v, s.sup = .ready → s.axOn m = true → (s.eng m j).st ≠ .stopped → (s.eng m j).mbox.length < 8 →
      exec (.mboxPostArrival (.supervisor m j v)) s = .next (s.modEng m j fun y => { y with mbox := y.mbox ++ [(0x80000000#32, v)] })))

/-- 09 R253 to R256, R259, R260: loads and stores of the engine's private words at once; a posted store and a load of another
cluster's word in their time, a fifth store in flight and a fifth reserved access of a coordination cluster waiting; a store
that arrives writes the word that it names, and no other of the engine's private words, and it waits for what the engine
sent to the same cluster before it. -/
def Obligations.LoadsAndStoresReachTheirTargets : Prop :=
  ∀ (s : State) (n : AxisId) (j : EngId),
    (∀ (d a : GReg) (imm : BitVec 16) (k : Nat), let x := s.eng n j; let w := x.rd a + imm.signExtend 32
      w.toNat / 4 = k → 1024 ≤ k → k < 2048 →
      (x.stores = [] → s.injected 1 (16 * n.val + j.val) = false →
        (Issues s (.ld n j d a imm) n j → exec (.ld n j d a imm) s = .next (s.wrote n j d (x.priv.rd k) x.flags)) ∧
        (d.val % 2 = 0 → k % 2 = 0 → Issues s (.ld2 n j d a imm) n j → exec (.ld2 n j d a imm) s = .next (s.modEng n j fun y =>
          { y with g := (if d = 0 then y.g else y.g.set d (x.priv.rd k)).set (nextReg d) (x.priv.rd (k + 1)), pc := y.pc + 1 }))) ∧
      (Issues s (.st n j d a imm) n j →
        exec (.st n j d a imm) s = .next (s.modEng n j fun y => { y with priv := y.priv.wr k (x.rd d), pc := y.pc + 1 })) ∧
      (d.val % 2 = 0 → k % 2 = 0 → Issues s (.st2 n j d a imm) n j → exec (.st2 n j d a imm) s = .next (s.modEng n j fun y =>
        { y with priv := (y.priv.wr k (x.rd d)).wr (k + 1) (x.rd (nextReg d)), pc := y.pc + 1 }))) ∧
    (∀ (d a : GReg) (imm : BitVec 16), let x := s.eng n j; let w := x.rd a + imm.signExtend 32
      0x100000 + 4 * 16384 * (n.val + 1) ≤ w.toNat → w.toNat < 0x500000 →
        (Issues s (.ld n j d a imm) n j → (s.ax[n].clu.role = false ∨ s.reserved n < 4) →
          exec (.ld n j d a imm) s = .next (s.modEng n j fun y => { y with pc := y.pc + 1, load := some { addr := w, d := d, two := false } })) ∧
        (Issues s (.st n j d a imm) n j → (s.ax[n].clu.role = false ∨ s.reserved n < 4) → x.stores.length < 4 →
          exec (.st n j d a imm) s = .next (s.modEng n j fun y =>
            { y with pc := y.pc + 1, seq := y.seq + 1, stores := y.stores ++ [{ addr := w, val := x.rd d, val2 := none, seq := x.seq }] })) ∧
        (Issues s (.st n j d a imm) n j → 4 ≤ x.stores.length → exec (.st n j d a imm) s = .next s) ∧
        (Issues s (.ld n j d a imm) n j → s.ax[n].clu.role = true → 4 ≤ s.reserved n → exec (.ld n j d a imm) s = .next s)) ∧
    (∀ (l : PLoad) k, (s.eng n j).load = some l → l.two = false → (s.eng n j).stores = [] → s.storesAhead n j l = false → target n j l.addr = .ctm k →
      s.injected 2 n.val = false →
      exec (.fabricLoadReturn n j) s = .next (s.modEng n j fun y =>
        { y with load := none, g := if l.d = 0 then y.g else y.g.set l.d (s.targetRead n j (.ctm k)) })) ∧
    (∀ (l : PLoad), (s.eng n j).load = some l → s.storesAhead n j l = true → exec (.fabricLoadReturn n j) s = .next s) ∧
    (∀ (p : PStore) rest k, (s.eng n j).stores = p :: rest → p.val2 = none → target n j p.addr = .ctm k →
      s.aheadOf n j n.val p.seq = false → Mem.wf zeroAt s.ax[n].clu.ctm = true →
      answers (exec (.postedStoreArrival n j n) s) fun t => (t.eng n j).stores = rest ∧ t.ax[n].clu.ctm.rd k = p.val ∧
        (∀ i, i ≠ k → t.ax[n].clu.ctm.rd i = s.ax[n].clu.ctm.rd i) ∧ ((t.eng n j).fence = true → rest ≠ []) ∧
        (t.eng n j).priv = (s.eng n j).priv ∧ t.sig = s.sig ∧ SameButAxis n s t) ∧
    (∀ (p : PStore) (m : AxisId), (s.eng n j).stores.find? (fun q => decide ((target n j q.addr).cluster n = m.val)) = some p →
      s.aheadOf n j m.val p.seq = true → exec (.postedStoreArrival n j m) s = .next s)

/-- 09 R251, R255, R264 to R268: an activation longer than its budget, one still open after four carrier periods, an
uncorrectable error or an illegal instruction starts the recovery of a vendor engine's cluster, which ends in HOLD or SAFE, or
stops an open engine with its flag; a corrected error counts.
09 R270 to R273: ENGINE_LOAD with a correct image starts the open engine at its entry with its budget; one with a false CRC changes no
engine; ENGINE_STOP zeroes the engine. -/
def Obligations.EngineErrorsLoadsAndStops : Prop :=
  (∀ (s : State) (n : AxisId) (j : EngId),
    (s.engLive n j = true → (s.eng n j).budget.toNat < s.actLen n j → (s.eng n j).missed = false → answers (exec (.deadline n j) s) fun t => axisSrc n 11 ∈ t.flt.raised ∧
      (t.eng n j).missed = true ∧ t.ax[n].clu.miss.getLsbD j.val = true ∧ (t.eng n j).st = (s.eng n j).st ∧ t.sig = s.sig) ∧
    (s.actLen n j ≤ (s.eng n j).budget.toNat → exec (.deadline n j) s = .next s) ∧
    (s.engLive n j = true → 8 * (s.eng n j).period ≤ s.actLen n j → s.isOpen n j = false → answers (exec (.wedge n j) s) fun t => t.ax[n].clu.recovering = true ∧
      ((s.eng n j).missed = false → axisSrc n 11 ∈ t.flt.raised)) ∧
    (s.engLive n j = true → 8 * (s.eng n j).period ≤ s.actLen n j → s.isOpen n j = true → answers (exec (.wedge n j) s) fun t => (t.eng n j).st = .stopped ∧
      t.ax[n].clu.miss.getLsbD (16 + j.val) = true ∧ t.ax[n].clu.recovering = false ∧ t.ax[n].ch.st = s.ax[n].ch.st) ∧
    (s.actLen n j < 8 * (s.eng n j).period → exec (.wedge n j) s = .next s) ∧
    (s.illegalMet n j = true → s.ax[n].clu.recovering = false →
      (s.isOpen n j = false → answers (exec (.illegalInstruction n j) s) fun t => t.ax[n].clu.recovering = true ∧ axisSrc n 12 ∈ t.flt.raised ∧
        t.ax[n].clu.lastCause = 3#2 ∧ t.ax[n].clu.lastEngine.toNat = j.val ∧ t.ax[n].clu.recoverCnt = s.ax[n].clu.recoverCnt + 1#8 ∧
        t.ax[n].clu.ctm = [] ∧ (∀ i : EngId, (t.eng n i).st = .stopped ∧ (t.eng n i).priv = [] ∧ (t.eng n i).mbox = [])) ∧
      (s.isOpen n j = true → answers (exec (.illegalInstruction n j) s) fun t => (t.eng n j).st = .stopped ∧ (t.eng n j).sticky.getLsbD 5 = true ∧
        t.ax[n].clu.recovering = false ∧ t.flt = s.flt)) ∧
    (s.axOn n = true → s.ax[n].clu.recovering = false →
      (s.isOpen n j = false → answers (exec (.engineEcc n j .dmem false) s) fun t => t.ax[n].clu.recovering = true ∧ axisSrc n 12 ∈ t.flt.raised ∧
        t.ax[n].clu.lastCause = 2#2) ∧
      (s.isOpen n j = true → answers (exec (.engineEcc n j .dmem false) s) fun t => (t.eng n j).st = .stopped ∧ (t.eng n j).sticky.getLsbD 6 = true)) ∧
    (∀ area, s.axOn n = true → answers (exec (.engineEcc n j area true) s) fun t => t.ax[n].clu.corrCnt = satInc s.ax[n].clu.corrCnt ∧
      t.eng n j = s.eng n j ∧ t.flt.raised = s.flt.raised) ∧
    (s.ax[n].clu.recovering = true → answers (exec (.clusterRecoveryComplete n) s) fun t => t.ax[n].clu.recovering = false ∧
      t.ax[n].ch.st = (if s.ax[n].clu.ctrl.getLsbD 3 then .hold else .safe) ∧ t.out = s.out)) ∧
  (∀ (s u : State) (h : DescHdr) (n : AxisId) (j : EngId), Takes h s u → u.axOn n = true → u.isOpen n j = true →
    (∀ budget image, budget ≠ 0#32 → budget.toNat < 1048576 → 20 ≤ image.length → image.length ≤ 16400 → image.length % 4 = 0 → dataCheck h 4 image.length = none →
      u.ax[n].clu.recovering = false → imgOk image image.length = true →
      s.spelled h (.engineLoad h (BitVec.ofNat 8 n.val) (BitVec.ofNat 8 j.val) budget (BitVec.ofNat 32 image.length) (crc32c image) image) = true → answers (exec (.engineLoad h (BitVec.ofNat 8 n.val) (BitVec.ofNat 8 j.val) budget (BitVec.ofNat 32 image.length) (crc32c image) image) s) fun t =>
        (t.eng n j).st = .active ∧ (t.eng n j).loaded = true ∧ (t.eng n j).pc = BitVec.ofNat 11 (imgEntry image) ∧ (t.eng n j).budget = budget.setWidth 20 ∧
        (t.eng n j).act = 1#32 ∧ (∀ i : Nat, i < imgInstrs image → (t.eng n j).imem.rd i = wordAt image (16 + 4 * i)) ∧ t.bank = u.bank ∧ t.can = u.can) ∧
    (∀ budget image crc, budget ≠ 0#32 → budget.toNat < 1048576 → 20 ≤ image.length → image.length ≤ 16400 →
      dataCheck h 4 image.length = none → u.ax[n].clu.recovering = false → crc ≠ crc32c image →
      s.spelled h (.engineLoad h (BitVec.ofNat 8 n.val) (BitVec.ofNat 8 j.val) budget (BitVec.ofNat 32 image.length) crc image) = true → exec (.engineLoad h (BitVec.ofNat 8 n.val) (BitVec.ofNat 8 j.val) budget (BitVec.ofNat 32 image.length) crc image) s = .next (u.done h .crc)) ∧
    (∀ budget len crc image, h.dataAddr.toNat % 4 ≠ 0 →
      s.spelled h (.engineLoad h (BitVec.ofNat 8 n.val) (BitVec.ofNat 8 j.val) budget len crc image) = true → exec (.engineLoad h (BitVec.ofNat 8 n.val) (BitVec.ofNat 8 j.val) budget len crc image) s = .next (u.done h .badArg)) ∧
    (s.spelled h (.engineStop h (BitVec.ofNat 8 n.val) (BitVec.ofNat 8 j.val)) = true → answers (exec (.engineStop h (BitVec.ofNat 8 n.val) (BitVec.ofNat 8 j.val)) s) fun t =>
      (t.eng n j).st = .stopped ∧ (t.eng n j).priv = [] ∧ (t.eng n j).imem = [] ∧ (t.eng n j).g = Vector.replicate 32 0#32 ∧ t.bank = u.bank ∧ t.can = u.can))

/-! Descriptors (11). -/

/-- 11 R316, R317, R322, R332; 12 R356; 17 R473: a descriptor that is held back waits; one of a failed chain ends ABORTED, one whose FLAGS are not
allowed BAD_ARG, one that SERVICE mode does not serve DENIED, a timed one that comes too late ABORTED; any other does its work. -/
def Obligations.DescriptorsAreTakenInOrder : Prop :=
  ∀ (s u : State) (h : DescHdr),
    (∀ op m, (s.accept h = none ∨ s.spelled h (.nop h) = false → exec (.nop h) s = .next s) ∧
      (s.accept h = none ∨ s.spelled h (.badDescriptor h op) = false → exec (.badDescriptor h op) s = .next s) ∧
      (s.accept h = none ∨ s.spelled h (.axisStateRun h m) = false → exec (.axisStateRun h m) s = .next s)) ∧
    (Takes h s u → (∀ d ∈ u.hst.inflight, d.mute = false) →
      (s.spelled h (.nop h) = true → answers (exec (.nop h) s) fun t => Completes h.src h.tag .ok 0#32 (h.flags.getLsbD 1) u t ∧ t.ax = s.ax ∧ t.sig = s.sig ∧ t.bank = s.bank) ∧
      (s.spelled h (.heartbeat h) = true → answers (exec (.heartbeat h) s) fun t => Completes h.src h.tag .ok 0#32 (h.flags.getLsbD 1) u t ∧ t.hst.hbArmed = true ∧ t.hst.hbAt = s.cref ∧
        t.hst.hostLost = false ∧ t.ax = s.ax ∧ t.sig = s.sig ∧ t.bank = s.bank) ∧
      (∀ op, s.spelled h (.badDescriptor h op) = true → answers (exec (.badDescriptor h op) s) fun t => Completes h.src h.tag .badArg 0#32 (h.flags.getLsbD 1) u t ∧ t.ax = s.ax ∧ t.sig = s.sig)) ∧
    (∀ q t m, h.src = .sq q → s.accept h = some t →
      (t.hst.sq[q].chainFail = true → s.spelled h (.nop h) = true → exec (.nop h) s = .next ((t.setChainFail h.src false).done h .aborted 0xFF#32)) ∧
      (t.hst.sq[q].chainFail = false → h.flags.toNat / 16 ≠ 0 → s.spelled h (.nop h) = true → exec (.nop h) s = .next (t.done h .badArg)) ∧
      (t.hst.sq[q].chainFail = false → h.flags.toNat / 16 = 0 → h.flags.getLsbD 2 = true → s.spelled h (.nop h) = true → exec (.nop h) s = .next (t.done h .badArg)) ∧
      (t.hst.sq[q].chainFail = false → h.flags.toNat / 16 = 0 → s.sup = .service → s.spelled h (.axisStateRun h m) = true → exec (.axisStateRun h m) s = .next (t.done h .denied)) ∧
      (t.hst.sq[q].chainFail = false → h.flags.toNat / 16 = 0 → h.flags.getLsbD 2 = true → s.sup = .ready → t.axesCheck m = none →
        (h.time.toNat < s.alm.time.toNat + 2000 → s.spelled h (.axisStateRun h m) = true → exec (.axisStateRun h m) s = .next (t.done h .aborted 1#32)) ∧
        (s.alm.time.toNat + 2000 ≤ h.time.toNat → s.spelled h (.axisStateRun h m) = true → exec (.axisStateRun h m) s = .next (t.setAct h (.timed (.axisStateRun h m))))))

/-- 11 R319, R322 to R324: a timed SIGNAL_WRITE or AXIS_MODE begins at its start edge and writes its words 4 ce later; a pulse writes VALUE_ON 4 ce after its start edge and
VALUE_OFF, with its completion, 4 ce after its stop edge; an AXIS_STATE, an AXIS_MODE or a SEAM_OPEN that waits for a slot, whose timeout has run out, ends with TIMEOUT, which
changes no axis. -/
def Obligations.TimedStartsPulsesAndTimeouts : Prop :=
  ∀ (s : State) (d : InFlight), Oldest s d →
    (∀ h i, (∃ es, i = .signalWrite h es) ∨ (∃ m mode red, i = .axisMode h m mode red) → d.act = .timed i → h.time ≤ s.alm.time →
      exec (.timedStart d.src d.tag) s = .next (s.modInflight (fun e => e = d) fun e => { e with act := .begun i s.cref, since := s.cref })) ∧
    (∀ h a v at_, d.act = .begun (.signalWrite h [(a, v)]) at_ → at_ + 2 ≤ s.cref → Stored s → s.sigCheck [(a, v)] = none →
      s.unloaded (sigAxis a.toNat) (sigEng a.toNat) = false → answers (exec (.timedStart d.src d.tag) s) fun t =>
      t.sig.rd a.toNat = v ∧ (∀ x, x ≠ a.toNat → t.sig.rd x = s.sig.rd x) ∧ t.bank = s.bank ∧ t.out = s.out) ∧
    (∀ a on at_ off stop off_, d.act = .pulse a (some (on, at_)) off stop off_ → at_ + 2 ≤ s.cref → Stored s →
      s.axOn (sigAxis a.toNat) = true → s.noWords (sigAxis a.toNat) (sigEng a.toNat) = false →
      answers (exec (.timedStart d.src d.tag) s) fun t => t.sig.rd a.toNat = on ∧ (∀ x, x ≠ a.toNat → t.sig.rd x = s.sig.rd x) ∧
        t.hst.cplWait = s.hst.cplWait ∧ t.bank = s.bank ∧ t.out = s.out) ∧
    (∀ a on off stop, d.act = .pulse a on off stop none → stop ≤ s.alm.time → exec (.pulseStopEdge d.src d.tag) s =
      .next (s.modInflight (fun e => e = d) fun e => { e with act := .pulse a on off stop (some s.cref) })) ∧
    (∀ a off stop at_, d.act = .pulse a none off stop (some at_) → at_ + 2 ≤ s.cref → d.mute = false → Stored s →
      s.axOn (sigAxis a.toNat) = true → s.noWords (sigAxis a.toNat) (sigEng a.toNat) = false →
      answers (exec (.pulseStopEdge d.src d.tag) s) fun t => t.sig.rd a.toNat = off ∧ (∀ x, x ≠ a.toNat → t.sig.rd x = s.sig.rd x) ∧
        Completes d.src d.tag .ok 0#32 (d.flags.getLsbD 1) s t ∧ t.bank = s.bank) ∧
    (∀ m, ((∃ r, d.act = .axisRun m r) ∨ (∃ r, d.act = .axisMode m r) ∨ (∃ fl, d.act = .seamOpen m fl)) → d.expired s.cref = true → d.mute = false → answers (exec (.descriptorTimeout d.src d.tag) s) fun t =>
      Completes d.src d.tag .timeout 0#32 (d.flags.getLsbD 1) s t ∧ t.ax = s.ax ∧ t.sig = s.sig ∧ t.bank = s.bank) ∧
    (d.act = .fetched → (∀ e ∈ s.hst.inflight, e.src = d.src → e.tag = d.tag → e = d) → exec (.descriptorTimeout d.src d.tag) s = .next s)

/-- 11 R326 to R328; 06 R166, R168: AXIS_STATE HOLD stops its axes and takes SAFE ones to HOLD, and where one is in a Fitting stops
that and completes CONFLICT; AXIS_STATE RUN charges its axes if each may leave
HOLD, and else changes no STATE; AXIS_MODE writes MODE_REQ; AXIS_PROFILE writes the record that it
reads to CTM, and one whose CRC does not match nothing. -/
def Obligations.AxisDescriptorsComplete : Prop :=
  ∀ (s u : State) (h : DescHdr), Takes h s u →
    (∀ m, u.axesCheck m = none → u.roleCheck m = none → u.fits = [] →
      (∀ n ∈ axesOf m, u.outstanding n = false ∧ u.ax[n].clu.recovering = false) → s.spelled h (.axisStateHold h m) = true → answers (exec (.axisStateHold h m) s) fun t =>
        (∀ n ∈ axesOf m, (u.ax[n].ch.st = .safe ∨ u.ax[n].ch.st = .starting ∨ u.ax[n].ch.st = .hold → t.ax[n].ch.st = .hold) ∧
          (u.ax[n].ch.st = .run ∨ u.ax[n].ch.st = .stopping → t.ax[n].ch.st = .stopping)) ∧
        (∀ n : AxisId, n ∉ axesOf m → t.ax[n] = u.ax[n]) ∧ t.bank = u.bank) ∧
    (∀ m, u.axesCheck m = none → u.roleCheck m = none → (∃ n ∈ axesOf m, u.outstanding n = true ∨ u.ax[n].clu.recovering = true) →
      s.spelled h (.axisStateHold h m) = true → exec (.axisStateHold h m) s = .next (u.done h .faulted)) ∧
    (∀ m, u.axesCheck m = none → u.roleCheck m = none → (∃ n ∈ axesOf m, u.inAnyFit n = true) → (∀ d ∈ u.hst.inflight, d.mute = false) →
      (∀ n ∈ axesOf m, u.outstanding n = false ∧ u.ax[n].clu.recovering = false) → s.spelled h (.axisStateHold h m) = true →
      answers (exec (.axisStateHold h m) s) fun t => (∃ e ∈ t.hst.cplWait, e.src = h.src ∧ e.tag = h.tag ∧ e.status = .conflict) ∧
        (∀ n ∈ axesOf m, u.inAnyFit n = true → t.ax[n].ch.st ≠ .run)) ∧
    (∀ m, u.runCheck m = none → axesOf m ≠ [] → (∀ n ∈ axesOf m, u.exitCheck n u.ax[n].ch.mode = none) → s.spelled h (.axisStateRun h m) = true → answers (exec (.axisStateRun h m) s) fun t =>
        (∀ n ∈ axesOf m, t.ax[n].ch.st = .charging ∧ t.ax[n].pwm.charging = true ∧ t.hst.halted.getLsbD n.val = false) ∧
        (∀ n : AxisId, n ∉ axesOf m → t.ax[n] = u.ax[n] ∧ t.hst.halted.getLsbD n.val = u.hst.halted.getLsbD n.val) ∧
        t.sig = u.sig ∧ t.hst.cplWait = u.hst.cplWait) ∧
    (∀ m n code st, u.runCheck m = none → n ∈ axesOf m → u.exitCheck n u.ax[n].ch.mode = some (code, st) →
      s.spelled h (.axisStateRun h m) = true → answers (exec (.axisStateRun h m) s) fun t => t.ax[n].ch.refuse.toNat = code % 256 ∧ (∀ k : AxisId, t.ax[k].ch.st = u.ax[k].ch.st)) ∧
    (∀ m mode red, u.modeCheck m mode red = none → axesOf m ≠ [] → Stored u → s.spelled h (.axisMode h m mode red) = true → answers (exec (.axisMode h m mode red) s) fun t =>
        (∀ n ∈ axesOf m, t.e n 12 18 = 0x80000000#32 ||| (red.setWidth 32 <<< 4) ||| mode.setWidth 32 ∧ t.ax[n].ch.modeWait = true) ∧
        (∀ x, (∀ n ∈ axesOf m, x ≠ sigAddr n 12 18) → t.sig.rd x = u.sig.rd x) ∧ (∀ n : AxisId, t.ax[n].ch.mode = u.ax[n].ch.mode)) ∧
    (∀ m mode red, 3 < mode.toNat ∨ 1 < red.toNat → s.spelled h (.axisMode h m mode red) = true → exec (.axisMode h m mode red) s = .next (u.done h .badArg)) ∧
    (∀ (n : AxisId) rec bytes, Stored u → rec.toNat ≤ 1 → u.axOn n = true → u.ax[n].clu.role = false → dataCheck h 16 48 = none → bytes.length = 48 →
      (if rec = 0#8 then startOk bytes else stopOk bytes) = true →
      (s.spelled h (.axisProfile h (BitVec.ofNat 8 n.val) rec (crc32c bytes) bytes) = true → answers (exec (.axisProfile h (BitVec.ofNat 8 n.val) rec (crc32c bytes) bytes) s) fun t =>
        (∀ i < 12, t.ax[n].clu.ctm.rd ((if rec = 0#8 then 0x1280 else 0x12B0) / 4 + i) = wordAt bytes (4 * i)) ∧
        (∀ x, (x < (if rec = 0#8 then 0x1280 else 0x12B0) / 4 ∨ (if rec = 0#8 then 0x1280 else 0x12B0) / 4 + 12 ≤ x) →
          t.ax[n].clu.ctm.rd x = u.ax[n].clu.ctm.rd x) ∧ t.sig = u.sig ∧ SameButAxis n { u with hst := t.hst } t) ∧
      (∀ crc, crc ≠ crc32c bytes → s.spelled h (.axisProfile h (BitVec.ofNat 8 n.val) rec crc bytes) = true → exec (.axisProfile h (BitVec.ofNat 8 n.val) rec crc bytes) s = .next (u.done h .crc)))

/-- 11 R324, R325, R329: SIGNAL_WRITE writes its words in order and no other; SIGNAL_PULSE needs TIMED and a window; SEGMENT_PUSH fills the slot
after the queue's last and raises the depth; SEGMENT_FLUSH empties the queues. -/
def Obligations.SignalAndSegmentDescriptorsComplete : Prop :=
  ∀ (s u : State) (h : DescHdr),
    (∀ es, Takes h s u → Stored u → u.sigCheck es = none → u.haltCheck (u.motionAxes (.signalWrite h es)) = none →
      s.spelled h (.signalWrite h es) = true → answers (exec (.signalWrite h es) s) fun t =>
        (∀ l a v r, es = l ++ (a, v) :: r → (∀ e ∈ r, e.1 ≠ a) →
          t.sig.rd a.toNat = if u.unloaded (sigAxis a.toNat) (sigEng a.toNat) then u.sig.rd a.toNat else v) ∧
        (∀ x, (∀ e ∈ es, e.1.toNat ≠ x) → t.sig.rd x = u.sig.rd x) ∧ (∀ k : AxisId, t.ax[k].clu = u.ax[k].clu) ∧ t.bank = u.bank) ∧
    (∀ es st info, Takes h s u → u.sigCheck es = some (st, info) → s.spelled h (.signalWrite h es) = true → exec (.signalWrite h es) s = .next (u.done h st info)) ∧
    (∀ a on off stop, Takes h s u → s.spelled h (.signalPulse h a on off stop) = true → exec (.signalPulse h a on off stop) s = .next (u.done h .badArg)) ∧
    (∀ a on off stop, TakesTimed h s u → u.writeCheck a.toNat on = none → u.writeCheck a.toNat off = none →
      u.haltCheck (u.motionAxes (.signalPulse h a on off stop)) = none →
      (stop ≤ h.time → s.spelled h (.signalPulse h a on off stop) = true → exec (.signalPulse h a on off stop) s = .next (u.done h .badWindow)) ∧
      (h.time < stop → h.time.toNat < u.alm.time.toNat + 2000 → s.spelled h (.signalPulse h a on off stop) = true → exec (.signalPulse h a on off stop) s = .next (u.done h .aborted 1#32)) ∧
      (h.time < stop → u.alm.time.toNat + 2000 ≤ h.time.toNat → stop.toNat < h.time.toNat + 3 →
        s.spelled h (.signalPulse h a on off stop) = true → exec (.signalPulse h a on off stop) s = .next (u.done h .ok 0x80000000#32)) ∧
      (h.time.toNat + 3 ≤ stop.toNat → u.alm.time.toNat + 2000 ≤ h.time.toNat →
        s.spelled h (.signalPulse h a on off stop) = true → exec (.signalPulse h a on off stop) s = .next (u.setAct h (.timed (.signalPulse h a on off stop))))) ∧
    (∀ (n : AxisId) seg, Takes h s u → Stored u → u.segCheck (BitVec.ofNat 8 n.val) seg = none →
      s.spelled h (.segmentPush h (BitVec.ofNat 8 n.val) seg) = true → answers (exec (.segmentPush h (BitVec.ofNat 8 n.val) seg) s) fun t =>
        (t.e n 10 1).toNat = u.segDepth n + 1 ∧ t.segDepth n = u.segDepth n + 1 ∧ t.segHead n = u.segHead n ∧
        (∀ i < 10, t.ax[n].clu.ctm.rd ((0x1000 + 40 * ((u.segHead n + u.segDepth n) % 16)) / 4 + i) = wordAt seg (4 * i)) ∧
        (∀ x, x ≠ sigAddr n 10 1 → t.sig.rd x = u.sig.rd x)) ∧
    (∀ m, Takes h s u → Stored u → u.axesCheck m = none → u.roleCheck m = none → s.spelled h (.segmentFlush h m) = true → answers (exec (.segmentFlush h m) s) fun t =>
        (∀ n ∈ axesOf m, t.e n 10 1 = 0#32 ∧ t.segDepth n = 0 ∧ t.ax[n].ch.seg = none) ∧
        (∀ x, (∀ n ∈ axesOf m, x ≠ sigAddr n 10 1) → t.sig.rd x = u.sig.rd x) ∧
        (∀ n : AxisId, n ∉ axesOf m → t.ax[n] = u.ax[n]) ∧ t.bank = u.bank)

/-- 11 R335 to R339: a telemetry stream opens with RP, WP and SEQ at 0; the sample of a selected event, once it is due, with room advances WP by its record and SEQ by one, one without
room is dropped and counted; RP follows the host while WP - RP stays within the ring; a close ends the stream. -/
def Obligations.TelemetryStreamsComplete : Prop :=
  ∀ (s u : State) (h : DescHdr),
    (∀ stream cnt event ref decim vector list ringAddr ringSize listCrc watermark, Takes h s u →
      u.telCheck h stream cnt event ref vector list ringAddr ringSize listCrc watermark = none → (i : Fin 32) → stream = BitVec.ofNat 8 i.val →
      s.spelled h (.telOpen h stream cnt event ref decim vector list ringAddr ringSize listCrc watermark) = true → answers (exec (.telOpen h stream cnt event ref decim vector list ringAddr ringSize listCrc watermark) s) fun t =>
        t.hst.tel[i].isOpen = true ∧ t.hst.tel[i].wp = 0#32 ∧ t.hst.tel[i].rp = 0#32 ∧ t.hst.tel[i].seq = 0#32 ∧ t.hst.tel[i].ringAddr = ringAddr ∧
        t.hst.tel[i].ringSize = ringSize.toNat ∧ t.hst.tel[i].list = list.take cnt.toNat ∧ t.hst.tel[i].drop = u.hst.tel[i].drop ∧
        (∀ k : Fin 32, k ≠ i → t.hst.tel[k] = u.hst.tel[k]) ∧ t.ax = u.ax ∧ t.sig = u.sig ∧ t.out = u.out) ∧
    (∀ i : Fin 32, Takes h s u → u.sysOn 76 = true → s.spelled h (.telClose h (BitVec.ofNat 8 i.val)) = true → answers (exec (.telClose h (BitVec.ofNat 8 i.val)) s) fun t => t.hst.tel[i].isOpen = false ∧
        (∀ k : Fin 32, k ≠ i → t.hst.tel[k] = u.hst.tel[k]) ∧ t.ax = u.ax ∧ t.sig = u.sig) ∧
    (∀ (i : Fin 32) at_, s.telDue s.hst.tel[i] = some at_ → s.epochHeldAt at_ = false → let x := s.hst.tel[i]; let len := sampleLen x.list.length
      (s.bar0 = true → x.gapDrops = 0 → x.pad len = 0 → len + 48 ≤ x.free → answers (exec (.telSample i) s) fun t =>
        t.hst.tel[i].wp = x.wp + BitVec.ofNat 32 len ∧ t.hst.tel[i].seq = x.seq + 1#32 ∧ t.hst.tel[i].drop = x.drop ∧
        (s.out ++ [Output.hostWrite (x.ringAddr + BitVec.ofNat 64 (x.wp.toNat % x.ringSize)) (s.sampleBytes i at_)]) <+: t.out ∧ t.ax = s.ax ∧ t.sig = s.sig) ∧
      (x.free < len + 48 → answers (exec (.telSample i) s) fun t => t.hst.tel[i].wp = x.wp ∧ t.hst.tel[i].seq = x.seq + 1#32 ∧
        t.hst.tel[i].drop = satInc x.drop ∧ t.out = s.out ∧ t.ax = s.ax ∧ t.sig = s.sig)) ∧
    (∀ (i : Fin 32) v, s.bar0 = true → s.sysOn 76 = true →
      ((s.hst.tel[i].wp - v).toNat ≤ s.hst.tel[i].ringSize → exec (.telRpWrite i v) s =
        .next { s with hst := { s.hst with tel := s.hst.tel.set i { s.hst.tel[i] with rp := v } } }) ∧
      (s.hst.tel[i].ringSize < (s.hst.tel[i].wp - v).toNat → answers (exec (.telRpWrite i v) s) fun t =>
        t.hst.rpBad.getLsbD i.val = true ∧ t.hst.tel = s.hst.tel ∧ t.out = s.out))

/-! Fittings, Patterns and the coordination role (08). -/

/-- 08 R219 to R222, R237, R238: an accepted Fitting charges its axes, or waits for its start edge; its sweep begins on all its axes at once, leaves
a pending or committed Pattern for each, and stops them; a holdover that lasts ends it with partial Patterns. -/
def Obligations.FittingsRunAndComplete : Prop :=
  ∀ (s u : State) (h : DescHdr),
    (∀ (c : Instr) k op, (c = .motorId h op ∧ k = .motorId) ∨ (c = .inertia h op ∧ k = .inertia) ∨ (c = .ripple h op ∧ k = .ripple) ∨
        (c = .resonance h op ∧ k = .resonance) → s.spelled h c = true → u.fitChecks h k op = none →
      (Takes h s u → u.fitExit k op = none → answers (exec c s) fun t => t.fits = u.fits ++ [{ hdr := h, kind := k, op := op }] ∧
        (∀ n ∈ axesOf op.axes, t.ax[n].ch.st = .charging ∧ findPat t.img.pend n k = none) ∧
        (∀ n : AxisId, n ∉ axesOf op.axes → t.ax[n] = u.ax[n]) ∧ t.sig = u.sig ∧ t.hst.cplWait = u.hst.cplWait) ∧
      (Takes h s u → ∀ n code st, u.fitExit k op = some (n, code, st) → exec c s = .next ((u.refuse n code).done h st (fieldAt 0 code))) ∧
      (h.flags.getLsbD 2 = true → Takes { h with flags := h.flags &&& 0xFB#8 } s u → u.fitExit k op = none → answers (exec c s) fun t =>
        t.fits = u.fits ++ [{ hdr := h, kind := k, op := op }] ∧ t.ax = u.ax ∧ t.sig = u.sig)) ∧
    (∀ src tag f, s.fitOf src tag = some f → Stored s →
      (f.started = false → f.ending = none → (f.hdr.flags.getLsbD 2 = true → f.hdr.time ≤ s.alm.time) →
        (f.op.cross = true → s.alm.st = .locked ∨ s.alm.st = .master) →
        (∀ n ∈ axesOf f.op.axes, s.ax[n].gdr.bstLive = 7#3 ∧ s.ax[n].sns.calRun = false ∧
          (s.ax[n].ch.st = .hold → s.exitCheck n (fitMode f.kind) = none)) → answers (exec (.fittingStart src tag) s) fun t =>
          (∀ n ∈ axesOf f.op.axes, t.ax[n].ch.st = .run ∧ t.ax[n].ch.mode = fitMode f.kind ∧ (f.kind ≠ .motorId → t.e n 8 0 = f.op.fitSpd)) ∧
          (∃ g, t.fitOf src tag = some g ∧ g.started = true ∧ g.startTime = s.alm.time ∧ g.op = f.op) ∧
          (∀ n : AxisId, n ∉ axesOf f.op.axes → t.ax[n] = s.ax[n]) ∧ t.out = s.out) ∧
      (s.fitTime f (s.chargeNs f) = false → exec (.fittingStart src tag) s = .next s) ∧
      (∀ bad : Dword, f.started = true → f.ending = none → s.sweepsOver f = true → answers (exec (.sweepComplete src tag bad) s) fun t =>
        ∀ n ∈ axesOf f.op.axes, t.ax[n].ch.st ≠ .run ∧
          (f.op.commit = false → ∃ p, findPat t.img.pend n f.kind = some p ∧ p.partial_ = false ∧ p.setId = f.op.setId) ∧
          (f.op.commit = true → bad.getLsbD n.val = false → findPat t.img.pend n f.kind = none ∧
            ∃ p, t.current n f.kind = some p ∧ p.partial_ = false ∧ p.setId = f.op.setId))) ∧
    (∀ f ∈ s.fits, f.started = true → f.ending = none → s.holdoverOver f = true →
      answers (exec (.almHoldoverExpiry f.hdr.src f.hdr.tag) s) fun t =>
        ∀ n ∈ axesOf f.op.axes, t.ax[n].ch.st ≠ .run ∧ ∃ p, findPat t.img.pend n f.kind = some p ∧ p.partial_ = true) ∧
    (s.alm.st ≠ .holdover → s.alm.st ≠ .lost → ∀ src tag, exec (.almHoldoverExpiry src tag) s = .next s)

/-- 08 R226, R228 to R231, R236: a Pattern is written, committed under the next GENERATION, read or
discarded; a ripple table is committed from CTM and becomes P₀; a commit whose read-back fails leaves the current Pattern and the axis as they are. -/
def Obligations.PatternDescriptorsComplete : Prop :=
  ∀ (s u : State) (h : DescHdr), Takes h s u →
    (∀ select axis kind setId (bad : Dword), select.toNat < 2 → u.selectCheck select axis kind setId = none →
      (∀ e, u.selected select axis kind setId = [e] → e.pat.partial_ = false → 64 ≤ e.pat.bytes.length →
        (bad.getLsbD e.axis.val = false → s.spelled h (.patternCommit h select axis kind setId bad) = true → answers (exec (.patternCommit h select axis kind setId bad) s) fun t => findPat t.img.pend e.axis e.kind = none ∧
          ∃ p, t.current e.axis e.kind = some p ∧ p.payload = e.pat.payload ∧
            p.generation = (match u.current e.axis e.kind with | some q => q.generation + 1#32 | none => 1#32)) ∧
        (bad.getLsbD e.axis.val = true → s.spelled h (.patternCommit h select axis kind setId bad) = true → answers (exec (.patternCommit h select axis kind setId bad) s) fun t => t.img.pend = u.img.pend ∧
          t.current e.axis e.kind = u.current e.axis e.kind ∧ t.ax = u.ax ∧ t.sig = u.sig)) ∧
      (u.selected select axis kind setId = [] → s.spelled h (.patternCommit h select axis kind setId bad) = true → exec (.patternCommit h select axis kind setId bad) s = .next (u.done h .conflict)) ∧
      ((∃ e ∈ u.selected select axis kind setId, e.pat.partial_ = true) → s.spelled h (.patternCommit h select axis kind setId bad) = true → exec (.patternCommit h select axis kind setId bad) s = .next (u.done h .partialRes)) ∧
      (s.spelled h (.patternDiscard h select axis kind setId) = true → answers (exec (.patternDiscard h select axis kind setId) s) fun t => t.img.store = u.img.store ∧ t.ax = u.ax ∧ t.sig = u.sig ∧
        ∀ e, e ∈ t.img.pend ↔ e ∈ u.img.pend ∧ e ∉ u.selected select axis kind setId)) ∧
    (∀ (n : AxisId) (bad : Dword), u.axOn n = true → u.ripLoaded n = true →
      (bad.getLsbD n.val = false → s.spelled h (.patternCommitCtm h (BitVec.ofNat 8 n.val) 2#8 bad) = true → answers (exec (.patternCommitCtm h (BitVec.ofNat 8 n.val) 2#8 bad) s) fun t =>
        ∃ p, t.current n .ripple = some p ∧ p.flags.getLsbD 1 = true ∧ p.setId = 0#32 ∧
          ∀ b < 1024, wordAt p.bytes (192 + 4 * b) = u.ax[n].clu.ctm.rd b ∧
            t.ax[n].clu.p0.rd b = if covered p.payload b then u.ax[n].clu.ctm.rd b else 0#32) ∧
      (bad.getLsbD n.val = true → s.spelled h (.patternCommitCtm h (BitVec.ofNat 8 n.val) 2#8 bad) = true → answers (exec (.patternCommitCtm h (BitVec.ofNat 8 n.val) 2#8 bad) s) fun t =>
        t.current n .ripple = u.current n .ripple ∧ t.ax = u.ax ∧ t.sig = u.sig)) ∧
    (∀ (n : AxisId) (bad : Dword), u.axOn n = true → u.ripLoaded n = false →
      s.spelled h (.patternCommitCtm h (BitVec.ofNat 8 n.val) 2#8 bad) = true → exec (.patternCommitCtm h (BitVec.ofNat 8 n.val) 2#8 bad) s = .next (u.done h .conflict)) ∧
    (∀ len data k, u.patternWriteCheck h len data = none → kindOf? (byteAt data 6) = some k → s.spelled h (.patternWrite h len data) = true → answers (exec (.patternWrite h len data) s) fun t =>
      findPat t.img.pend (Fin.ofNat 64 (wordAt data 12).toNat) k = some { bytes := data } ∧ t.img.store = u.img.store ∧ t.ax = u.ax ∧ t.sig = u.sig) ∧
    (∀ (n : AxisId) kind k which q addr maxLen, h.src = .sq q → u.axOn n = true → kindOf? kind = some k → (which.toNat ≤ 1 ∨ which = 2#8 ∧ k = .ripple) → addr.toNat % 4 = 0 →
      (∀ p, u.readPattern n k which = some p → p.bytes ≠ [] → p.bytes.length ≤ maxLen.toNat →
        s.spelled h (.patternRead h (BitVec.ofNat 8 n.val) kind which addr maxLen) = true → answers (exec (.patternRead h (BitVec.ofNat 8 n.val) kind which addr maxLen) s) fun t =>
          t.out = u.out ++ [Output.hostWrite addr p.bytes] ∧ t.img = u.img ∧ t.ax = u.ax ∧ t.sig = u.sig) ∧
      (u.readPattern n k which = none → s.spelled h (.patternRead h (BitVec.ofNat 8 n.val) kind which addr maxLen) = true → exec (.patternRead h (BitVec.ofNat 8 n.val) kind which addr maxLen) s = .next (u.done h .conflict)))

/-- 08 R240, R241, R243: a cluster takes the coordination role with its engines stopped and zeroed and its gates off, and leaves it in HOLD; a lens
map has FORMAT 0 in CTM while activations that began before it run on, and stands there whole from 0x8000 where none does. -/
def Obligations.CoordinationCommandsComplete : Prop :=
  ∀ (s u : State) (h : DescHdr) (n : AxisId), Takes h s u → Stored u → u.axOn n = true → u.variant.openEngines = true →
    (u.ax[n].clu.role = false → u.ax[n].clu.recovering = false → u.ax[n].ch.st = .hold → u.inAnyFit n = false → u.hasPending n = false →
      s.spelled h (.coordRoleSet h (BitVec.ofNat 8 n.val)) = true → answers (exec (.coordRoleSet h (BitVec.ofNat 8 n.val)) s) fun t => t.ax[n].clu.role = true ∧ t.ax[n].clu.ctm = [] ∧ allOff t.ax[n] ∧
        (∀ j : EngId, (t.eng n j).st = .stopped ∧ (t.eng n j).imem = [] ∧ (t.eng n j).priv = []) ∧
        (∀ a, 16384 * n.val ≤ a → a < 16384 * n.val + 16384 → t.sig.rd a = 0#32) ∧
        (∀ a, a < 16384 * n.val ∨ 16384 * n.val + 16384 ≤ a → t.sig.rd a = u.sig.rd a) ∧
        (∀ k : AxisId, k ≠ n → t.ax[k] = u.ax[k]) ∧ t.bank = u.bank) ∧
    (u.ax[n].clu.role = true → s.spelled h (.coordRoleSet h (BitVec.ofNat 8 n.val)) = true → exec (.coordRoleSet h (BitVec.ofNat 8 n.val)) s = .next (u.done h .conflict)) ∧
    (u.ax[n].clu.role = false → s.spelled h (.coordRoleClear h (BitVec.ofNat 8 n.val)) = true → exec (.coordRoleClear h (BitVec.ofNat 8 n.val)) s = .next (u.done h .conflict)) ∧
    (u.ax[n].clu.role = true → s.spelled h (.coordRoleClear h (BitVec.ofNat 8 n.val)) = true → answers (exec (.coordRoleClear h (BitVec.ofNat 8 n.val)) s) fun t => t.ax[n].clu.role = false ∧ t.ax[n].ch.st = .hold ∧
      (∀ g : Fin 6, g.val < 3 → t.ax[n].gdr.gates[g].on = false) ∧ (∀ j : EngId, j.val < 14 → (t.eng n j).st = .waiting) ∧ (t.eng n 14).st = .stopped ∧ (t.eng n 15).st = .stopped ∧
      (∀ k : AxisId, k ≠ n → t.ax[k] = u.ax[k]) ∧ t.bank = u.bank) ∧
    (∀ table, u.ax[n].clu.role = true → table.length = 16932 → spanCheck h.src h.dataAddr 16932 = none → wordAt table 16928 = crc32c (table.take 16928) → (wordAt table 4).toNat < u.variant.axes →
      (wordAt table 12).toNat < u.variant.axes → lensOk table = true →
      (∀ d ∈ u.hst.inflight, ∀ m w b, d.act ≠ .lensMap m w b) →
      (u.openActs n ≠ [] → s.spelled h (.lensMap h (BitVec.ofNat 8 n.val) 16932#32 table) = true → answers (exec (.lensMap h (BitVec.ofNat 8 n.val) 16932#32 table) s) fun t => t.ax[n].clu.ctm.rd 8192 = 0#32 ∧
        (∀ i ≠ 8192, t.ax[n].clu.ctm.rd i = u.ax[n].clu.ctm.rd i) ∧ t.hst.cplWait = u.hst.cplWait ∧ t.sig = u.sig) ∧
      (u.openActs n = [] → s.spelled h (.lensMap h (BitVec.ofNat 8 n.val) 16932#32 table) = true → answers (exec (.lensMap h (BitVec.ofNat 8 n.val) 16932#32 table) s) fun t =>
        (∀ i < 4233, t.ax[n].clu.ctm.rd (8192 + i) = wordAt table (4 * i)) ∧ (∀ i, i < 8192 ∨ 12425 ≤ i → t.ax[n].clu.ctm.rd i = u.ax[n].clu.ctm.rd i) ∧
        t.sig = u.sig ∧ SameButAxis n { u with hst := t.hst } t))

/-! Seams and snapshots (10). -/

/-- 10 R281 to R288, R295, R296: a Seam is opened in the lowest FREE slot under a new generation, takes checked entries, is armed, staged and cancelled; until
it commits, none of this changes an axis or a signal word. -/
def Obligations.SeamsAreBuiltAndStaged : Prop :=
  ∀ (s u : State) (h : DescHdr) (k : Fin 64),
    (Takes h s u →
      (∀ axes flags, flags.toNat < 2 → u.axesCheck axes = none → u.seam.slot[k].st = .free → (∀ j : Fin 64, j < k → u.seam.slot[j].st ≠ .free) →
        s.spelled h (.seamOpen h axes flags) = true → exec (.seamOpen h axes flags) s = .next ((u.modSlot k fun x => { gen := x.gen + 1#10, st := .opened, axes := axes, segGo := flags.getLsbD 0 }).done h .ok
          (((u.seam.slot[k].gen + 1#10) ++ BitVec.ofNat 6 k.val).setWidth 32))) ∧
      (∀ axes flags, flags.toNat < 2 → u.axesCheck axes = none → (∀ j : Fin 64, u.seam.slot[j].st ≠ .free ∧ u.seam.slot[j].st ≠ .retiring) →
        s.spelled h (.seamOpen h axes flags) = true → exec (.seamOpen h axes flags) s = .next (u.done h .noSpace)) ∧
      (∀ axes flags, flags.toNat < 2 → u.axesCheck axes = none → (∀ j : Fin 64, u.seam.slot[j].st ≠ .free) → (∃ j : Fin 64, u.seam.slot[j].st = .retiring) →
        s.spelled h (.seamOpen h axes flags) = true → answers (exec (.seamOpen h axes flags) s) fun t => t.seam = u.seam ∧ t.hst.cplWait = u.hst.cplWait ∧ t.ax = u.ax ∧ t.sig = u.sig) ∧
      (∀ handle nE bytes, u.slotOf? handle = some k → u.seam.slot[k].st = .opened → 1 ≤ nE.toNat → nE.toNat ≤ 256 → dataCheck h 16 (16 * nE.toNat) = none →
        (∀ crc, crc ≠ crc32c (bytes.take (16 * nE.toNat)) → s.spelled h (.seamAdd h handle nE crc bytes) = true → exec (.seamAdd h handle nE crc bytes) s = .next (u.done h .crc)) ∧
        (let new := (List.range nE.toNat).map (entryAt bytes); let all := u.seam.slot[k].entries ++ new.map (·.1)
         (∀ c ∈ u.entryChecks u.seam.slot[k].entries new, c = none) → (all.filter fun e => !isExpect e).length ≤ 256 → (all.filter isExpect).length ≤ 16 →
           s.spelled h (.seamAdd h handle nE (crc32c (bytes.take (16 * nE.toNat))) bytes) = true → answers (exec (.seamAdd h handle nE (crc32c (bytes.take (16 * nE.toNat))) bytes) s) fun t => t.seam.slot[k].entries = all ∧
             t.seam.slot[k].st = .opened ∧ (∀ j : Fin 64, j ≠ k → t.seam.slot[j] = u.seam.slot[j]) ∧ t.ax = u.ax ∧ t.sig = u.sig)) ∧
      (∀ handle point fl ref at_ step, u.slotOf? handle = some k → u.armCheck handle point fl ref at_ step = none →
        s.spelled h (.seamArm h handle point fl ref at_ step) = true → answers (exec (.seamArm h handle point fl ref at_ step) s) fun t => t.seam.slot[k].st = .armed ∧ t.seam.slot[k].hdr = some h ∧
          t.seam.slot[k].point = point ∧ t.seam.slot[k].at_ = at_ ∧ t.seam.slot[k].entries = u.seam.slot[k].entries ∧ t.ax = u.ax ∧ t.sig = u.sig ∧
          t.hst.cplWait = u.hst.cplWait) ∧
      (∀ handle, u.slotOf? handle = some k → (u.seam.slot[k].st = .opened ∨ u.seam.slot[k].waits = true) → s.spelled h (.seamCancel h handle) = true → answers (exec (.seamCancel h handle) s) fun t =>
        t.seam.slot[k].st = .retiring ∧ t.seam.abortCnt = satInc u.seam.abortCnt ∧ t.ax = u.ax ∧ t.sig = u.sig) ∧
      (∀ handle, u.slotOf? handle = some k → u.seam.slot[k].st ≠ .opened → u.seam.slot[k].waits = false →
        s.spelled h (.seamCancel h handle) = true → exec (.seamCancel h handle) s = .next (u.done h .conflict))) ∧
    (s.seam.slot[k].st = .armed → s.seam.slot[k].staging = false → s.stagingHeld k = false →
      exec (.stagingStart k) s = .next (s.modSlot k fun x => { x with staging := true })) ∧
    (s.stagingHeld k = true → exec (.stagingStart k) s = .next s) ∧
    (s.seam.slot[k].st = .armed → s.seam.slot[k].staging = true →
      ((∀ e ∈ s.seam.slot[k].entries, s.restage s.seam.slot[k].entries e = false) → s.seamLate s.seam.slot[k] = false →
        exec (.stagingComplete k) s = .next (s.modSlot k fun x => { x with st := .staged, stagedAt := s.cref })) ∧
      ((∀ e ∈ s.seam.slot[k].entries, s.restage s.seam.slot[k].entries e = false) → s.seamLate s.seam.slot[k] = true → s.seam.slot[k].defer = false →
        answers (exec (.stagingComplete k) s) fun t => t.seam.slot[k].st = .retiring ∧ t.seam.abortCnt = satInc s.seam.abortCnt ∧ t.ax = s.ax ∧ t.sig = s.sig) ∧
      ((∃ e ∈ s.seam.slot[k].entries, s.restage s.seam.slot[k].entries e = true) → answers (exec (.stagingComplete k) s) fun t =>
        t.seam.slot[k].st = .retiring ∧ t.seam.abortCnt = satInc s.seam.abortCnt ∧ t.ax = s.ax ∧ t.sig = s.sig))

/-- 10 R289 to R293: SEAM_DECISION, SEAM_COMMIT, SEAM_EPOCH and SEAM_RETIRE complete. At its decision, 4 cp before its point, a
Seam aborts, which changes no axis, or leaves STAGED and will commit; the commit edge writes its registers and the epoch edge
its signal words, all at one instant, under a new epoch or that of the Seams that share T; the slot is FREE again once no
older activation runs, and where no SEAM_OPEN waits for it, it stays so. -/
def Obligations.SeamsCommitWhole : Prop :=
  ∀ (s : State) (k : Fin 64) (x : SeamSlot), s.seam.slot[k] = x →
    (x.st = .staged → s.seamPoint x = true →
      ((∀ n ∈ axesOf x.members, s.seamBlocked n = false) → (∀ e ∈ x.expects, s.expectHolds e = true) → s.baseBad x = none →
        exec (.seamDecision k) s = .next (s.modSlot k fun y => { y with st := .retiring, decided := true, dueT := s.cref + 4 })) ∧
      ((∃ n ∈ axesOf x.members, s.seamBlocked n = true) ∨ (∃ e ∈ x.expects, s.expectHolds e = false) ∨ s.baseBad x ≠ none →
        answers (exec (.seamDecision k) s) fun t => t.seam.slot[k].st = .retiring ∧ t.seam.slot[k].going = false ∧
          t.seam.abortCnt = satInc s.seam.abortCnt ∧ t.ax = s.ax ∧ t.sig = s.sig ∧ t.bank = s.bank)) ∧
    (x.st ≠ .staged → exec (.seamDecision k) s = .next s) ∧
    (x.going = true → x.t = none → x.dueT = s.cref → answers (exec (.seamCommit k) s) fun t => t.seam.slot[k].t = some s.cref ∧
      t.seam.slot[k].tAlm = s.alm.time ∧ t.sig = s.sig ∧ (∀ n : AxisId, n ∉ axesOf x.members → t.ax[n] = s.ax[n]) ∧
      (∀ (n : AxisId) l e r, x.entries = l ++ e :: r → e.kind = 2#8 → e.addr = BitVec.ofNat 32 (0x80000 + 0x2000 * n.val + 4) →
        e.mask = 0xFFFFFFFF#32 → (∀ f ∈ r, f.kind = 2#8 → f.addr ≠ e.addr) → t.ax[n].pwm.shadow.per = e.value.setWidth 16)) ∧
    (x.going = false ∨ x.dueT ≠ s.cref → exec (.seamCommit k) s = .next s) ∧
    (∀ at_, x.going = true → x.t = some at_ → at_ + 2 ≤ s.cref → Stored s → answers (exec (.seamEpoch k) s) fun t => t.seam.slot[k].st = .retiring ∧
      t.seam.slot[k].going = false ∧ t.seam.commitCnt = satInc s.seam.commitCnt ∧
      (t.seam.epoch = if ∃ j : Fin 64, j ≠ k ∧ s.seam.slot[j].st = .retiring ∧ s.seam.slot[j].going = false ∧ s.seam.slot[j].t = some at_ ∧
          s.seam.slot[j].epoch = s.seam.epoch.toNat then s.seam.epoch else s.seam.epoch + 1#32) ∧
      (x.segGo = false →
        (∀ l e r, x.entries = l ++ e :: r → e.kind = 1#8 → e.mask = 0xFFFFFFFF#32 → (∀ f ∈ r, f.kind = 1#8 → f.addr ≠ e.addr) →
          s.axOn (sigAxis e.addr.toNat) = true → s.noWords (sigAxis e.addr.toNat) (sigEng e.addr.toNat) = false → t.sig.rd e.addr.toNat = e.value) ∧
        (∀ a, (∀ e ∈ x.entries, e.kind = 1#8 → e.addr.toNat ≠ a) → (∀ n : AxisId, a ≠ sigAddr n 4 73) → t.sig.rd a = s.sig.rd a)) ∧
      (∀ n ∈ axesOf x.members, x.segGo = true → s.axOn n = true → s.ax[n].clu.role = false → s.ax[n].ch.seg = none → s.segDepth n ≠ 0 →
        segOk (s.headSeg n) = true → byteAt (s.headSeg n) 24 = 2#8 → (∀ e ∈ x.entries, e.kind ≠ 3#8) →
        t.ax[n].ch.seg = some { seg := s.headSeg n, beganAt := at_, ended := none })) ∧
    (x.st = .retiring → x.going = false → (x.t.isSome = true → s.olderRuns x.epoch = false) →
      (∀ d ∈ s.hst.inflight, ∀ m g, d.act ≠ .seamOpen m g) → exec (.seamRetire k) s = .next (s.modSlot k fun y => { gen := y.gen })) ∧
    (∀ l d r m g, x.st = .retiring → x.going = false → (x.t.isSome = true → s.olderRuns x.epoch = false) →
      s.hst.inflight = l ++ d :: r → (∀ e ∈ l, ∀ a b, e.act ≠ .seamOpen a b) → d.act = .seamOpen m g → answers (exec (.seamRetire k) s) fun t =>
        t.seam.slot[k] = { gen := x.gen + 1#10, st := .opened, axes := m, segGo := g } ∧ (∀ j : Fin 64, j ≠ k → t.seam.slot[j] = s.seam.slot[j]) ∧
        t.ax = s.ax ∧ t.sig = s.sig) ∧
    (x.st = .retiring → x.going = false → x.t.isSome = true → s.olderRuns x.epoch = true → exec (.seamRetire k) s = .next s)

/-- 10 R297, R298: an accepted snapshot waits; on T its registers are latched, with CREF and the Almanac time; on E(T) these and the
signal words are written, and it completes. -/
def Obligations.SnapshotsCaptureOneInstant : Prop :=
  ∀ (s : State),
    (∀ (u : State) (h : DescHdr) trigger event ref cnt handle at_ list dest, Takes h s u →
      let x : Snap := { hdr := h, trigger := trigger, event := event, ref := ref, handle := handle, at_ := at_,
                        list := list.take (if cnt = 0#8 then 256 else cnt.toNat), dest := dest, from_ := s.cref }
      (u.snapCheck x = none → s.spelled h (.snapshot h trigger event ref cnt handle at_ list dest) = true → answers (exec (.snapshot h trigger event ref cnt handle at_ list dest) s) fun t =>
        t.seam.snaps = u.seam.snaps ++ [x] ∧ t.seam.slot = u.seam.slot ∧ t.ax = u.ax ∧ t.sig = u.sig ∧ t.hst.cplWait = u.hst.cplWait) ∧
      (∀ st info, u.snapCheck x = some (st, info) → s.spelled h (.snapshot h trigger event ref cnt handle at_ list dest) = true → exec (.snapshot h trigger event ref cnt handle at_ list dest) s = .next (u.done h st info))) ∧
    (∀ (x : Snap) l r q, s.seam.snaps = l ++ x :: r → (∀ y ∈ l, y.hdr.src ≠ x.hdr.src ∨ y.hdr.tag ≠ x.hdr.tag) → x.hdr.src = .sq q →
      (x.regs = none → s.snapNow x = true → s.commitDue = false → answers (exec (.snapshotCapture x.hdr.src x.hdr.tag) s) fun t =>
        t.seam.snaps = s.seam.snaps.map (fun y => if y = x then { x with
          t := some (s.cref, s.alm.time), regs := some (x.list.map fun w => if bit w 31 then s.snapValue w else 0#32) } else y) ∧
        t.out = s.out ∧ t.ax = s.ax ∧ t.sig = s.sig) ∧
      (∀ at_ alm regs, x.t = some (at_, alm) → x.regs = some regs → at_ + 2 ≤ s.cref → s.epochHeldAt at_ = false → answers (exec (.snapshotCapture x.hdr.src x.hdr.tag) s) fun t => t.seam.snaps = l ++ r ∧ t.seam.snapDone = satInc s.seam.snapDone ∧
        t.out = s.out ++ [Output.hostWrite x.dest (dwordBytes (BitVec.ofNat 64 at_) ++ dwordBytes alm ++
          ((x.list.zip regs).map fun p => if bit p.1 31 then p.2 else s.snapValue p.1).flatMap wordBytes)] ∧
        t.ax = s.ax ∧ t.sig = s.sig))

/-! CAN controllers and the Almanac (12). -/

/-- 12 R345 to R354: a controller comes up only with a legal bit timing; a frame waits, goes out, is repeated or is lost at bus-off, from which the controller
comes back on command with both error counts 0; an accepted frame is written to the ring. -/
def Obligations.CanControllersComplete : Prop :=
  ∀ (s u : State) (h : DescHdr) (c : CanId), let k := s.can[c]
    (∀ v, s.canOn c = true → bit k.ctrl 0 = false → bit v 0 = true →
      (k.cfgOk = true → answers (exec (.canEnable c v) s) fun t => t.can[c].ctrl = (v &&& 0x1E#32) ||| 1#32 ∧ t.can[c].nbt = k.nbt ∧ t.can[c].tx = k.tx ∧
        (∀ d : CanId, d ≠ c → t.can[d] = s.can[d]) ∧ t.ax = s.ax) ∧
      (k.cfgOk = false → answers (exec (.canEnable c v) s) fun t => bit t.can[c].ctrl 0 = false ∧ bit t.can[c].sticky 27 = true)) ∧
    (∀ fl len id data, Takes h s u → u.canSendCheck h (BitVec.ofNat 8 c.val) fl len id = none →
      s.spelled h (.canSend h (BitVec.ofNat 8 c.val) fl len id data) = true → answers (exec (.canSend h (BitVec.ofNat 8 c.val) fl len id data) s) fun t => t.hst.cplWait = u.hst.cplWait ∧ t.out = u.out ∧
        ∃ b, t.can[c].tx = u.can[c].tx ++ [b] ∧ b.id = u.can[c].txCount ∧ b.owner = .send h.src h.tag ∧ b.frame.id = id.setWidth 29 ∧
          b.frame.ide = fl.getLsbD 0 ∧ b.frame.fdf = fl.getLsbD 1 ∧ (fl.getLsbD 3 = false → data.length = len.toNat → b.frame.data = data)) ∧
    (∀ b tdcv age, k.tx.find? (fun x => x.id = b.id) = some b → s.canSends c = true → k.tried b (s.sofCref age) = true → answers (exec (.canFrameSent c b.id tdcv age) s) fun t =>
      t.out = s.out ++ [Output.canFrame c b.frame] ∧ t.can[c].tx = (Can.settleOwn { k with tx := dropFirst (fun x => x.id = b.id) k.tx } s.cref).tx ∧ t.can[c].tec.toNat = k.tec.toNat - 1 ∧
      t.can[c].rec_ = k.rec_ ∧ t.ax = s.ax) ∧
    (∀ b age, k.tx.find? (fun x => x.id = b.id) = some b → s.canSends c = true → k.mayGo b (s.sofCref age) = true → b.late = false →
      (exec (.canTxRetry c b.id false age) s = .next { s with can := s.can.set c { k with
        tx := modFirst (fun x => x.id = b.id) (fun x => { x with retries := x.retries + 1 }) k.tx } }) ∧
      (k.tec.toNat < 128 → answers (exec (.canTxRetry c b.id true age) s) fun t => t.can[c].tec.toNat = k.tec.toNat + 8 ∧ t.can[c].busOff = false ∧
        t.can[c].tx.length = k.tx.length ∧ t.out = s.out)) ∧
    (s.canOn c = true → bit k.ctrl 0 = true → k.busOff = false → k.tecOver = true → answers (exec (.busOff c) s) fun t => t.can[c].busOff = true ∧ t.can[c].tx = [] ∧ t.can[c].own = [] ∧
      (∀ e ∈ t.hst.cplWait, e.src ≠ .tun c) ∧ t.can[c].ctrl = k.ctrl ∧ t.ax = s.ax ∧ t.out = s.out) ∧
    (s.canOn c = true → k.busOff = true → exec (.canRecover c) s = .next { s with can := s.can.set c { k with recovering := true, recoverAt := s.cref } }) ∧
    (s.canOn c = true → k.busOff = false → exec (.canRecover c) s = .next s) ∧
    (s.canOn c = true → k.busOff = true → k.recovering = true → k.recoverAt + k.recoverCp ≤ s.cref →
      exec (.busOffRecovered c) s = .next { s with can := s.can.set c { k with busOff := false, recovering := false, tec := 0#8, rec_ := 0#8 } }) ∧
    (∀ a, s.canSends c = true → answers (exec (.canRxError c a) s) fun t => t.can[c].rec_.toNat = Nat.min 255 (k.rec_.toNat + a.toNat) ∧ t.can[c].tec = k.tec ∧ t.ax = s.ax) ∧
    (∀ f i age, s.canTakes c f = true → s.tunFrame c f = none → s.refFrame c f = none → f.rtr = false → k.filterOf f = some i → k.rx = [] →
      (s.bar0 = true → bit k.rxCfg 31 = true → k.rxUsed < 2 ^ bits k.rxCfg 3 0 → answers (exec (.canFrameReceived c f age) s) fun t => t.can[c].wp = k.wp + 1#32 ∧ t.can[c].rx = [] ∧
        (s.out ++ [Output.hostWrite (join64 k.rxHi k.rxLo + BitVec.ofNat 64 (80 * (k.wp.toNat % 2 ^ bits k.rxCfg 3 0)))
          (rxRecord { frame := f, filter := i.val, sof := s.sofTime age })]) <+: t.out) ∧
      (2 ^ bits k.rxCfg 3 0 ≤ k.rxUsed → answers (exec (.canFrameReceived c f age) s) fun t => t.can[c].wp = k.wp ∧ t.out = s.out ∧
        t.can[c].rx = [{ frame := f, filter := i.val, sof := s.sofTime age }])) ∧
    (∀ v, s.bar0 = true → s.canOn c = true →
      ((k.wp - v).toNat ≤ 2 ^ bits k.rxCfg 3 0 → k.rx = [] → exec (.canRxRpWrite c v) s = .next { s with can := s.can.set c { k with rp := v } }) ∧
      (2 ^ bits k.rxCfg 3 0 < (k.wp - v).toNat → answers (exec (.canRxRpWrite c v) s) fun t => bit t.can[c].sticky 25 = true ∧ t.can[c].rp = k.rp))

/-- 12 R355 to R359: a tunnel's frames: an urgent command is carried out, a descriptor waits to be decoded under its TAG, window data is written at its
OFFSET, and a frame that is not of its form counts as bad and does nothing else. -/
def Obligations.TunnelFramesComplete : Prop :=
  ∀ (s : State) (c : CanId) (f : CanFrame), Stored s → bit s.can[c].ctrl 1 = true → f.fdf = true → f.rtr = false →
    (s.tunFrame c f = some 0 → f.data.length = 4 →
      (s.urgentAxes (bits (wordAt f.data 0) 31 24) (bits (wordAt f.data 0) 7 0) = none → answers (exec (.tunnelUrgent c f) s) fun t =>
        t.hst.urgBad = satInc s.hst.urgBad ∧ t.ax = s.ax) ∧
      (∀ m, s.urgentAxes (bits (wordAt f.data 0) 31 24) (bits (wordAt f.data 0) 7 0) = some m → answers (exec (.tunnelUrgent c f) s) fun t =>
        t.hst.urgCnt = s.hst.urgCnt + 1#16 ∧ ∀ n ∈ axesOf m, t.hst.halted.getLsbD n.val = true)) ∧
    (s.tunFrame c f = some 0 → f.data.length ≠ 4 → answers (exec (.tunnelUrgent c f) s) fun t => t.ax = s.ax ∧ t.hst = s.hst ∧
      (bits s.can[c].cnt 23 16 < 255 → bits t.can[c].cnt 23 16 = bits s.can[c].cnt 23 16 + 1)) ∧
    (s.tunFrame c f = some 1 → f.data.length = 64 →
      (s.hst.inflight.filter fun d => d.src = RingSrc.tun c && d.act = Act.fetched).length < 16 → answers (exec (.tunnelDescriptor c f) s) fun t =>
        t.hst.inflight = s.hst.inflight ++ [{ s.newEntry (.tun c) f.data with follows := s.can[c].chainDrop }] ∧ t.hst.cplWait = s.hst.cplWait ∧ t.ax = s.ax ∧ t.sig = s.sig) ∧
    (s.tunFrame c f = some 1 → f.data.length = 64 →
      16 ≤ (s.hst.inflight.filter fun d => d.src = RingSrc.tun c && d.act = Act.fetched).length → answers (exec (.tunnelDescriptor c f) s) fun t =>
        t.hst.cplWait = s.hst.cplWait ++ [{ src := .tun c, tag := byteAt f.data 3 ++ byteAt f.data 2, status := .noSpace }] ∧
        t.can[c].chainDrop = (byteAt f.data 1).getLsbD 3 ∧ t.ax = s.ax ∧ t.sig = s.sig) ∧
    (s.tunFrame c f = some 2 → f.data.length = 64 → (wordAt f.data 0).toNat % 4 = 0 → (wordAt f.data 0).toNat ≤ 65476 →
      answers (exec (.tunnelWindowData c f) s) fun t => (∀ i < 60, t.can[c].window.rd ((wordAt f.data 0).toNat + i) = byteAt f.data (4 + i)) ∧
        (∀ a, a < (wordAt f.data 0).toNat ∨ (wordAt f.data 0).toNat + 60 ≤ a → t.can[c].window.rd a = s.can[c].window.rd a) ∧ t.hst = s.hst ∧ t.ax = s.ax) ∧
    (s.tunFrame c f = some 2 → f.data.length = 64 → ((wordAt f.data 0).toNat % 4 ≠ 0 ∨ 65476 < (wordAt f.data 0).toNat) →
      answers (exec (.tunnelWindowData c f) s) fun t => t.can[c].window = s.can[c].window ∧ t.hst = s.hst ∧ t.ax = s.ax)

/-- 12 R361 to R370; 18 R491: setting the time, the roles, the master's references, a slave's steering by them and its holdover, and the edges of SYNCIN
and SYNCOUT. -/
def Obligations.AlmanacCommandsComplete : Prop :=
  ∀ (s u : State) (h : DescHdr), s.almOn = true → let a := s.alm
    (s.almSlave = false → answers (exec .almSet s) fun t => t.alm.time = a.set ∧ t.alm.stepped = true ∧ t.alm.sticky.getLsbD 4 = true ∧ t.ax = s.ax ∧ t.sig = s.sig) ∧
    (s.almSlave = true → answers (exec .almSet s) fun t => t.alm.time = a.time ∧ t.alm.sticky.getLsbD 7 = true) ∧
    (∀ v, Takes h s u →
      (u.almSlave = false → s.spelled h (.wallTimeSet h v) = true → answers (exec (.wallTimeSet h v) s) fun t => t.alm.time = v ∧ t.alm.sticky.getLsbD 4 = true ∧ t.ax = u.ax ∧ t.sig = u.sig) ∧
      (u.almSlave = true → s.spelled h (.wallTimeSet h v) = true → exec (.wallTimeSet h v) s = .next (u.done h .conflict))) ∧
    (∀ v, (almRole v ≠ almRole a.ctrl ∨ bits v 5 4 ≠ bits a.ctrl 5 4) →
      (almRole v = 1 → answers (exec (.almRoleWrite v) s) fun t => t.alm.st = .holdover ∧ t.alm.following = false ∧ t.alm.time = a.time) ∧
      (almRole v = 0 → answers (exec (.almRoleWrite v) s) fun t => t.alm.st = .off ∧ t.alm.following = false ∧ t.alm.time = a.time) ∧
      (almRole v = 2 → (let c : CanId := Fin.ofNat 4 (bits v 5 4); s.canOn c = true ∧ bit s.can[c].ctrl 0 = true ∧ bit s.can[c].ctrl 2 = false) →
        answers (exec (.almRoleWrite v) s) fun t => t.alm.st = .master ∧ t.alm.yielded = false ∧ t.alm.time = a.time)) ∧
    (∀ v, almRole v = 2 → bit s.can[(Fin.ofNat 4 (bits v 5 4) : CanId)].ctrl 0 = false → answers (exec (.almRoleWrite v) s) fun t =>
      t.alm.ctrl = a.ctrl ∧ t.alm.st = a.st ∧ t.alm.sticky.getLsbD 7 = true) ∧
    (a.st = .master → a.refNext ≤ s.cref → s.canSends s.almChan = true → answers (exec .almReferenceDue s) fun t => t.alm.seq = a.seq + 1#16 ∧ t.alm.prevSof = none ∧
      t.alm.stepped = false ∧ t.alm.refFirst = false ∧ t.out = s.out ∧ ∃ f : CanFrame, t.can[s.almChan] = s.can[s.almChan].post .reference f s.cref ∧ f.data.length = 16 ∧
        f.id.toNat = (bits a.id 28 0 + bits a.ctrl 15 12) % 2 ^ 29 ∧ (∀ m, a.prevSof = some m → f.data.take 8 = dwordBytes m) ∧
        byteAt f.data 8 = a.seq.setWidth 8 ∧ (byteAt f.data 11).getLsbD 0 = (!a.refFirst && !a.stepped) ∧ (byteAt f.data 11).getLsbD 1 = a.stepped) ∧
    (∀ (f : CanFrame) off age, s.canTakes s.almChan f = true → s.refFrame s.almChan f = some off → f.rtr = false → f.fdf = true → f.data.length = 16 → s.almSlave = true →
      (a.following = false → a.stamps = [] → answers (exec (.almReferenceReceived f age) s) fun t => t.alm.following = true ∧ t.alm.follow = off ∧
        t.alm.misses = 0 ∧ t.alm.time = a.time) ∧
      (∀ l : RefStamp, let o : Int := ((l.stamp.toNat : Int) - bits a.cfg 15 0) - (dwordAt f.data 0).toNat
        a.following = true → a.follow = off → a.stamps = [l] → l.off = off → l.stamped = true → l.seq + 1#16 = byteAt f.data 9 ++ byteAt f.data 8 →
        ms a.interval ≤ 2 * (s.sofCref age - l.at_) → (byteAt f.data 11).getLsbD 0 = true → (byteAt f.data 11).getLsbD 1 = false →
        (o.natAbs ≤ 1000 → answers (exec (.almReferenceReceived f age) s) fun t => t.alm.st = .locked ∧ t.alm.offset.toInt = o ∧ t.alm.time = a.time ∧ t.alm.misses = 0) ∧
        (10000 < o.natAbs → answers (exec (.almReferenceReceived f age) s) fun t => t.alm.st = .locked ∧ t.alm.sticky.getLsbD 4 = true ∧
          t.alm.time = BitVec.ofInt 64 ((a.time.toNat : Int) - o)))) ∧
    (s.almSlave = true → s.missDue = true → (a.misses ≠ 2 → answers (exec .almReferenceMissed s) fun t => t.alm.misses = a.misses + 1 ∧ t.alm.st = a.st ∧ t.alm.time = a.time) ∧
      (a.misses = 2 → a.yielded = false → a.st = .locked → answers (exec .almReferenceMissed s) fun t => t.alm.st = .holdover ∧ t.alm.time = a.time) ∧
      (a.misses = 2 → a.yielded = true → answers (exec .almReferenceMissed s) fun t => t.alm.st = .master ∧ t.alm.yielded = false)) ∧
    (s.lossDue = true → answers (exec .almLost s) fun t => t.alm.st = .lost ∧ t.alm.sticky.getLsbD 3 = true ∧ t.alm.time = a.time) ∧
    (∀ p : Pin, p.level ≠ a.syncLevel → bits a.syncCfg 7 0 ≤ p.held →
      (p.level = bit a.syncCfg 31 → exec (.syncinEdge p) s = .next { s with alm := { a with syncLevel := p.level } }) ∧
      (p.level ≠ bit a.syncCfg 31 → s.frameLock = false → exec (.syncinEdge p) s = .next { s with alm := { a with
        syncLevel := p.level, syncCnt := a.syncCnt + 1#64, syncTs := a.time, syncAt := some s.cref, syncEdges := (s.cref, a.syncCnt + 1#64) :: a.syncEdges.filter fun e => decide (s.cref ≤ e.1 + 16) } }) ∧
      (p.level ≠ bit a.syncCfg 31 → s.frameLock = true → answers (exec (.syncinEdge p) s) fun t => t.alm.syncCnt = a.syncCnt + 1#64 ∧ t.alm.lockFirst = false ∧
      (let e := Alm.phaseError { a with syncTs := a.time }
       (e.natAbs ≤ 6553600 → t.alm.lockRun = a.lockRun + 1) ∧ (65536000 < e.natAbs → t.alm.frameLocked = false ∧ t.alm.lockRun = 0)))) ∧
    (s.lockLapsed = true → exec .frameLockTimeout s = .next { s with alm := { a with frameLocked := false, lockRun := 0, lockFirst := true, phase := 0 } }) ∧
    exec .syncZero s = .next { s with alm := { a with zeroArmed := true } } ∧
    (a.zeroArmed = true → a.set ≤ a.time → exec .syncZeroApply s = .next { s with alm := { a with syncCnt := 0#64, zeroArmed := false } }) ∧
    (a.time < a.set → exec .syncZeroApply s = .next s) ∧
    (a.soutHas a.soutNext = true → a.soutAt a.soutNext ≤ 65536 * a.time.toNat → almPer a.soutPer = 0 ∨ 65536 * a.time.toNat < a.soutAt (a.soutNext + 1) →
      exec .syncoutPulse s = .next { s with out := s.out ++ [Output.syncout (!bit a.soutCfg 30)], alm := { a with
        soutNext := a.soutNext + 1, soutEnd := some (s.cref + Nat.max 1 (bits a.soutCfg 15 0)) } }) ∧
    (∀ e, a.soutEnd = some e → e ≤ s.cref → exec .syncoutPulseEnd s = .next { s with out := s.out ++ [Output.syncout (bit a.soutCfg 30)], alm := { a with soutEnd := none } })

/-! Serial ports and general-purpose ports (13). -/

/-- 13 R380 to R395: a schedule is written and triggered, a transfer waits its turn, its select falls and rises, what it received is deposited or written
to the host; the slave port offers and takes words; the general-purpose ports follow their owner. -/
def Obligations.SerialAndGeneralPortsComplete : Prop :=
  ∀ (s u : State) (h : DescHdr),
    (∀ (p k : Fin 8) sel trig ref format shift width len dest tx mask val, Takes h s u → trig ≠ 0xFF#8 →
      u.schedCheck (BitVec.ofNat 8 (p.val + 1)) (BitVec.ofNat 8 k.val) sel trig ref format shift width len dest = none →
      s.spelled h (.spSchedule h (BitVec.ofNat 8 (p.val + 1)) (BitVec.ofNat 8 k.val) sel trig ref format shift width len dest tx mask val) = true → answers (exec (.spSchedule h (BitVec.ofNat 8 (p.val + 1)) (BitVec.ofNat 8 k.val) sel trig ref format shift width len dest tx mask val) s) fun t =>
        (let y := t.ser.port[p].slot[k]
         y.en = true ∧ y.pend = false ∧ y.trig = trig ∧ y.sel = sel.setWidth 2 ∧ y.len = len.toNat ∧ y.dest = dest ∧ y.tx = tx ∧ y.mask = mask ∧ y.val = val) ∧
        (∀ q : Fin 8, q ≠ p → t.ser.port[q] = u.ser.port[q]) ∧ t.ax = u.ax ∧ t.sig = u.sig) ∧
    (∀ p k : Fin 8, let x := s.ser.port[p]; let y := x.slot[k]
      s.sysOn 74 = true → x.en = true → y.en = true → s.schedDue y = true → answers (exec (.scheduleTrigger p k) s) fun t =>
        (let z := t.ser.port[p].slot[k]
         z.pend = true ∧ z.overrun = (if y.pend then satInc y.overrun else y.overrun) ∧ z.dest = y.dest ∧ z.tx = y.tx) ∧ t.ax = s.ax ∧ t.sig = s.sig ∧ t.out = s.out) ∧
    (∀ (p : Fin 8) sel len tx rxAddr, Takes h s u → u.spCheck h (BitVec.ofNat 8 (p.val + 1)) sel len rxAddr = none →
      s.spelled h (.spTransfer h (BitVec.ofNat 8 (p.val + 1)) sel len tx rxAddr) = true → answers (exec (.spTransfer h (BitVec.ofNat 8 (p.val + 1)) sel len tx rxAddr) s) fun t => t.hst.cplWait = u.hst.cplWait ∧ t.out = u.out ∧
        t.ser.port[p].queue = u.ser.port[p].queue ++ [{ src := h.src, tag := h.tag, sel := sel.setWidth 2, len := len.toNat
                                                        tx := fit ((len.toNat + 7) / 8) tx, rxAddr := rxAddr }]) ∧
    (∀ p : Fin 8, let x := s.ser.port[p]
      s.sysOn 74 = true → x.en = true → x.job = none →
      (∀ k : Fin 8, x.slot[k].pend = true → (∀ i : Fin 8, i < k → x.slot[i].pend = false) → x.idled x.slot[k].sel s.cref = true → answers (exec (.portTransferStart p) s) fun t =>
        t.ser.port[p].job = some (.sched k, x.slot[k]) ∧ t.ser.port[p].slot[k].pend = false ∧ t.ser.port[p].queue = x.queue ∧
        t.out = s.out ++ [Output.spTx p x.slot[k].sel (spMode (x.cfgOf x.slot[k].sel)) (x.slot[k].txBits (bit (x.cfgOf x.slot[k].sel) 31))]) ∧
      ((∀ k : Fin 8, x.slot[k].pend = false) → ∀ q rest, x.queue = q :: rest → x.idled q.sel s.cref = true → answers (exec (.portTransferStart p) s) fun t =>
        t.ser.port[p].busy = true ∧ t.ser.port[p].queue = rest ∧ t.out = s.out ++ [Output.spTx p q.sel (spMode (x.cfgOf q.sel)) ((wireBits q.tx).take q.len)])) ∧
    (∀ (p : Fin 8) rx, s.sysOn 74 = true → s.ser.port[p].endAt ≤ s.cref →
      (∀ q tag addr late x, s.ser.port[p].job = some (.desc (.sq q) tag addr late, x) → addr ≠ 0#64 → rx.take x.len ≠ [] →
        answers (exec (.portTransferEnd p rx) s) fun t => t.ser.port[p].busy = false ∧ t.ser.port[p].job = none ∧
          t.out = s.out ++ [Output.hostWrite addr (packBits (rx.take x.len))] ∧ t.sig = s.sig) ∧
      (∀ k (x : SpSlot), s.ser.port[p].job = some (.sched k, x) →
        ((BitVec.ofNat 32 (rxValue (bit (s.ser.port[p].cfgOf x.sel) 31) (rx.take x.len)) &&& x.mask) ≠ x.val → answers (exec (.portTransferEnd p rx) s) fun t =>
          t.ser.port[p].slot[k].chkFail = satInc s.ser.port[p].slot[k].chkFail ∧ t.sig = s.sig ∧ t.ax = s.ax) ∧
        ((BitVec.ofNat 32 (rxValue (bit (s.ser.port[p].cfgOf x.sel) 31) (rx.take x.len)) &&& x.mask) = x.val → x.angle = false → 1 ≤ x.len → x.len ≤ 32 → Stored s → s.axOn (sigAxis x.dest.toNat) = true →
          s.noWords (sigAxis x.dest.toNat) (sigEng x.dest.toNat) = false → answers (exec (.portTransferEnd p rx) s) fun t =>
            t.sig.rd x.dest.toNat = BitVec.ofNat 32 (rxValue (bit (s.ser.port[p].cfgOf x.sel) 31) (rx.take x.len)) ∧ (∀ a, a ≠ x.dest.toNat → t.sig.rd a = s.sig.rd a) ∧
            (t.eng (sigAxis x.dest.toNat) (sigEng x.dest.toNat)).ev.getLsbD 10 = true ∧ t.ser.port[p].busy = false))) ∧
    (s.sysOn 74 = true → bit s.ser.spsCfg 31 = false → ∀ v, bit v 31 = true → bits v 28 27 ≠ 1 → bits s.ser.spsBuf 9 0 ≤ 959 →
      bits s.ser.spsBuf 19 10 + spsTxN s.ser.spsBuf ≤ 1024 →
      exec (.spsEnable v) s = .next { s with ser := { s.ser with spsCfg := (v &&& 0x7BFF0000#32) ||| 0x80000000#32 } }) ∧
    (s.sysOn 74 = true → bit s.ser.spsCfg 31 = true → (answers (exec .spsSelectFall s) fun t => t.ser.spsActive = true ∧
        ∃ w, t.out = s.out ++ [Output.spsTx (w :: s.spsWords)]) ∧
      (s.ser.spsActive = true → ∀ words clocked, words.length ≤ 64 → answers (exec (.spsSelectRise words 0 0#32 clocked) s) fun t =>
        t.ser.spsActive = false ∧ t.ser.spsCnt = s.ser.spsCnt + 1#16 ∧
        (let e := spsEng s.ser.spsCfg
         bits s.ser.spsCfg 28 27 = 1 → s.spsOwnerRuns = true → s.axOn e.1 = true → s.noWords e.1 e.2 = false → bits s.ser.spsBuf 9 0 ≤ 959 → Stored s →
           ∀ i < words.length, t.sig.rd (sigAddr e.1 e.2.val (bits s.ser.spsBuf 9 0 + 1 + i)) = words.getD i 0#32))) ∧
    (s.sysOn 74 = true →
      (∀ (i : Fin 32) (p : Pin), bit s.ser.gpLevel i.val ≠ p.level → bits s.ser.gpCfg[i] 23 16 ≤ p.held → answers (exec (.gpInputChange i p) s) fun t => bit t.ser.gpLevel i.val = p.level ∧ bit t.ser.gpEdge i.val = true ∧
        t.ser.gpOut = s.ser.gpOut ∧ t.ax = s.ax) ∧
      (∀ (i : Fin 32) e, s.ser.gpEnd[i] = some e → e ≤ s.cref → answers (exec (.gpPulseEnd i) s) fun t => bit t.ser.gpOut i.val = false ∧ t.ser.gpEnd[i] = none) ∧
      (∀ v, let host (i : Fin 32) : Prop := s.gpEngine s.ser.gpCfg[i] = false ∧ gpFunc s.ser.gpCfg[i] ≠ 3
        (answers (exec (.gpOutWrite v) s) fun t => ∀ i, (host i → bit t.ser.gpOut i.val = bit v i.val) ∧ (¬ host i → bit t.ser.gpOut i.val = bit s.ser.gpOut i.val)) ∧
        (answers (exec (.gpSet v) s) fun t => ∀ i, (host i → bit t.ser.gpOut i.val = (bit s.ser.gpOut i.val || bit v i.val)) ∧ (¬ host i → bit t.ser.gpOut i.val = bit s.ser.gpOut i.val)) ∧
        (answers (exec (.gpClr v) s) fun t => ∀ i, (host i → bit t.ser.gpOut i.val = (bit s.ser.gpOut i.val && !bit v i.val)) ∧ (¬ host i → bit t.ser.gpOut i.val = bit s.ser.gpOut i.val))))

/-! Power states, domains and the fan (14). -/

/-- 14 R404 to R412: a request for a power state acts or is refused as the table has it; entry gates the axes and domains that it does not keep; a wake
from SLEEP records its source and starts the module; a domain is requested, powers up and comes up in HOLD or SAFE.
14 R417, R418: the fan check looks for edges, kicks three times, raises FAN_FAIL, and clears it after ten good seconds. -/
def Obligations.PowerStatesDomainsAndFan : Prop :=
  (∀ s : State,
    (s.bar0 = true → s.supUp = true → s.dbgHalts = false →
      (s.pwr.mode = .doze → answers (exec .reqRun s) fun t => t.pwr.mode = .waking ∧ t.ax = s.ax ∧ t.pwr.pdOn = s.pwr.pdOn) ∧
      (s.pwr.mode = .enteringDoze → exec .reqRun s = .next { s with pwr := { s.pwr with runHeld := true } }) ∧
      (s.pwr.mode = .active → s.restOk false = true → exec .reqDoze s = .next { s with pwr := { s.pwr with mode := .enteringDoze, runHeld := false } }) ∧
      (s.pwr.mode = .active → s.restOk false = false → exec .reqDoze s = .next { s with pwr := { s.pwr with reqReject := true } }) ∧
      (s.pwr.mode = .active ∨ s.pwr.mode = .doze → s.restOk true = true → answers (exec .reqSleep s) fun t => t.pwr.mode = .enteringSleep ∧
        t.pwr.wakeHeld = 0#7 ∧ t.pwr.pdOn = s.pwr.pdOn) ∧
      (s.pwr.mode = .active ∨ s.pwr.mode = .doze → s.restOk true = false → exec .reqSleep s = .next { s with pwr := { s.pwr with reqReject := true } })) ∧
    (s.pwr.mode = .enteringDoze → s.pwr.runHeld = false → answers (exec .powerStateEntryComplete s) fun t => t.pwr.mode = .doze ∧
      (∀ n ∈ s.dozeAxes, t.axOn n = false) ∧ (∀ n : AxisId, n ∉ s.dozeAxes → t.axOn n = s.axOn n) ∧ t.cref = s.cref) ∧
    (s.pwr.mode = .enteringSleep → s.pwr.wakeHeld = 0#7 → answers (exec .powerStateEntryComplete s) fun t => t.pwr.mode = .sleep ∧ t.sup = .held ∧
      t.pwr.pdOn = 0#80 ∧ t.cref = 0 ∧ t.alm.time = 0#64 ∧ t.sec.otp = s.sec.otp) ∧
    (s.pwr.mode = .waking → (∀ k < 72, s.pwr.dozeGated.getLsbD k = true → s.pwr.pdReq.getLsbD k = true → s.pwr.pdOn.getLsbD k = true) →
      answers (exec .wakeComplete s) fun t => t.pwr.mode = .active ∧ t.pwr.dozeGated = 0#80) ∧
    (∀ k c, (c = .wakeN ∧ k = 0 ∧ bit s.pwr.wakeCfg 4 = true ∧ s.pwr.wakeDrive = false) ∨
        (∃ d : CanId, c = .canWake d ∧ k = 1 + d.val ∧ s.hasCan d = true ∧ bit s.pwr.wakeCfg d.val = true) ∨ (c = .wakeTimer ∧ k = 5 ∧ s.pwr.wakeTimer ≠ 0#32) →
      (s.pwr.mode = .sleep → answers (exec c s) fun t => t.pwr.mode = .start ∧ t.pwr.wakeCause.getLsbD k = true ∧ t.pwr.wakeDrive = true ∧ t.rst.getLsbD 5 = true ∧ t.ax = s.ax) ∧
      (s.pwr.mode = .enteringSleep → c ≠ .wakeTimer → answers (exec c s) fun t => t.pwr.mode = .enteringSleep ∧ t.pwr.wakeHeld.getLsbD k = true) ∧
      (s.pwr.mode = .active → exec c s = .next s)) ∧
    (∀ d : CanId, bit s.pwr.wakeCfg d.val = false → exec (.canWake d) s = .next s) ∧
    ((s.linked = true ∨ s.ckt (s.pwr.wakeAt + ms 100) = true) → exec .wakeNDriveEnd s = .next { s with pwr := { s.pwr with wakeDrive := false } }) ∧
    (∀ (which : Fin 3) v, s.bar0 = true → s.pwr.mode.live = true → s.sysOn 79 = true → s.dbgHalts = false →
      ((∃ k ∈ s.pdChanges which v, s.pwr.pdReq.getLsbD k = true ∧ s.pdRefused k = true) →
        exec (.pdReqWrite which v) s = .next { s with pwr := { s.pwr with reqReject := true } }) ∧
      ((∀ k ∈ s.pdChanges which v, s.pwr.pdReq.getLsbD k = true → s.pdRefused k = false) → answers (exec (.pdReqWrite which v) s) fun t =>
        (∀ i < pdBits which, s.pdWritable (pdBase which + i) = true → t.pwr.pdReq.getLsbD (pdBase which + i) = bit v i) ∧
        (∀ k ∈ s.pdChanges which v, s.pwr.pdReq.getLsbD k = true → t.pwr.pdOn.getLsbD k = false))) ∧
    (∀ n : AxisId, s.hasAxis n = true → s.axOn n = false → s.pdReady n.val = true →
      answers (exec (.domainPowerUpComplete ⟨n.val, by omega⟩) s) fun t => t.axOn n = true ∧ t.ax[n].ch.st = (if s.outstanding n then .safe else .hold) ∧
        (∀ m : AxisId, m ≠ n → t.axOn m = s.axOn m)) ∧
    (∀ b : BankId, s.hasBank b = true → s.bankOn b = false → s.pdReady (64 + b.val) = true →
      answers (exec (.domainPowerUpComplete ⟨64 + b.val, by omega⟩) s) fun t => t.bankOn b = true ∧ t.clk.ckl.getLsbD b.val = true)) ∧
  (∀ s : State,
    (s.pwr.fanStopped = false → s.sysOn 79 = true → answers (exec .fanTachEdge s) fun t => t.pwr.fanEdge = some s.cref ∧ t.pwr.fanSeq = .idle ∧ t.pwr.fanKicks = 0#2 ∧
      t.pwr.fanRunning = decide (30 ≤ s.fanDuty) ∧ (∀ e, s.pwr.fanEdge = some e → t.pwr.fanRpm = fanSpeed (s.cref - e)) ∧ t.pwr.fanFail = s.pwr.fanFail ∧ t.flt = s.flt ∧ t.ax = s.ax) ∧
    (s.pwr.fanSeq = .window → s.pwr.fanSeqAt + 2 * ms 1000 ≤ s.cref → s.pwr.fanKicks ≠ 3#2 →
      exec .fanWindowExpiry s = .next { s with pwr := { s.pwr with fanSeq := .kick, fanSeqAt := s.cref, fanKicks := s.pwr.fanKicks + 1#2 } }) ∧
    (s.pwr.fanSeq = .window → s.pwr.fanSeqAt + 2 * ms 1000 ≤ s.cref → s.pwr.fanKicks = 3#2 → answers (exec .fanWindowExpiry s) fun t => t.pwr.fanFail = true ∧ t.flt.met.getLsbD 1109 = true ∧
      (s.flt.met.getLsbD 1109 = false → t.flt.raised = s.flt.raised ++ [1109])) ∧
    (s.pwr.fanSeq ≠ .window → exec .fanWindowExpiry s = .next s) ∧
    (s.pwr.fanSeq = .kick → s.pwr.fanSeqAt + ms 1000 ≤ s.cref →
      exec .fanKickEnd s = .next { s with pwr := { s.pwr with fanSeq := .window, fanSeqAt := s.cref } }) ∧
    (∀ e, s.pwr.fanRunning = true → s.pwr.fanEdge = some e → e + 2 * ms 1000 ≤ s.cref → answers (exec .fanTachTimeout s) fun t => t.pwr.fanFail = true ∧ t.pwr.fanRunning = false ∧ t.flt.met.getLsbD 1109 = true) ∧
    (∀ e, s.pwr.fanFail = true → s.pwr.fanEdge = some e → s.cref ≤ e + 2 * ms 1000 → s.pwr.fanGoodSince + 10 * ms 1000 ≤ s.cref → answers (exec .fanFailClear s) fun t =>
      t.pwr.fanFail = false ∧ t.flt.met.getLsbD 1109 = false ∧ t.flt.raised = s.flt.raised) ∧
    (s.cref < s.pwr.fanGoodSince + 10 * ms 1000 → exec .fanFailClear s = .next s))

/-! Supply, rails, clocks and the supervisor (14, 15). -/

/-- 14 R396 to R403; 15 R429: the supply's events, the rails and the clocks: what each records and raises, and what a start or a loss of power leaves.
14 R402; 15 R423, R430; 17 R483: the supervisor's checks hold it in reset under the source that failed; it restarts through the boot ROM, and once ready
it decodes, with every present axis powered. -/
def Obligations.SupplyClocksAndSupervisorComplete : Prop :=
  (∀ s : State,
    (s.pwr.mode = .off → ∀ ok, answers (exec (.powerOn ok) s) fun t => t.pwr.mode = .start ∧ t.rst = 1#6 ∧ t.pwr.uv = false ∧ t.flt.thimble = true ∧
      (ok = false → t.flt.grave = true ∧ t.flt.met.getLsbD 1102 = true) ∧ (ok = true → t.flt.grave = s.flt.grave ∧ t.flt.raised = s.flt.raised) ∧
      (∀ n : AxisId, t.ax[n].gdr.latches = 0#16)) ∧
    (s.pwr.mode ≠ .off → ∀ ok, exec (.powerOn ok) s = .next s) ∧
    (s.pwr.mode ≠ .off → answers (exec .resetN s) fun t => t.pwr.mode = .start ∧ t.rst = s.rst ||| 2#6 ∧ t.cref = s.cref ∧ t.sec.otp = s.sec.otp ∧ t.sig = [] ∧
      t.hst.inflight = [] ∧ t.pwr.pdOn = 0#80 ∧ (∀ n : AxisId, t.ax[n].gdr.latches = s.ax[n].gdr.latches ∧ t.ax[n].ch.st = .hold ∧ t.ax[n].clu.ctm = [])) ∧
    (s.watched = true → answers (exec .vinUv s) fun t => t.pwr.uv = true ∧ t.flt.met.getLsbD 1088 = true ∧
      ∀ n : AxisId, s.hasAxis n = true → t.ax[n].ch.st = .hold ∨ t.ax[n].ch.st = .safe) ∧
    (s.watched = true → s.pwr.uv = true → (∀ b : BankId, s.bank[b].gateEn = false) → answers (exec .vinUvRecover s) fun t => t.pwr.uv = false ∧ t.flt.met.getLsbD 1088 = false ∧ t.flt.raised = s.flt.raised ∧
      ∀ n : AxisId, t.ax[n].ch = s.ax[n].ch) ∧
    (s.watched = true → answers (exec .powerLoss s) fun t => t.pwr.mode = .off ∧ t.sup = .held ∧ t.cref = 0 ∧ t.alm.time = 0#64 ∧ t.sec.otp = s.sec.otp ∧ t.sig = []) ∧
    (answers (exec .graveClear s) fun t => t.flt.grave = false ∧ t.flt.raised = [] ∧ t.pwr.mode = .off ∧ t.sec.otp = s.sec.otp) ∧
    (s.watched = true → ∀ above, answers (exec (.vinOvWarn above) s) fun t => t.pwr.ovWarn = above ∧ t.flt.met.getLsbD 1089 = above ∧
      t.flt.raised = (if above && !s.flt.met.getLsbD 1089 then s.flt.raised ++ [1089] else s.flt.raised) ∧ t.bank = s.bank ∧ t.ax = s.ax) ∧
    (s.pwr.rbOn = true → exec .rbReverse s = .next { s with pwr := { s.pwr with rbOn := false, rbRevCnt := satInc s.pwr.rbRevCnt } }) ∧
    (s.watched = true → exec .rbSwitchOn s = .next { s with pwr := { s.pwr with rbOn := true } }) ∧
    (s.railed = true → ∀ r, (answers (exec (.railFault r) s) fun t => t.pwr.rails.getLsbD (railIdx r) = false ∧ t.flt.met.getLsbD (1090 + railIdx r) = true ∧
        (∀ q, q ≠ r → t.pwr.rails.getLsbD (railIdx q) = s.pwr.rails.getLsbD (railIdx q)) ∧ t.ax = s.ax) ∧
      (answers (exec (.railRecover r) s) fun t => t.pwr.rails.getLsbD (railIdx r) = true ∧ t.flt.met.getLsbD (1090 + railIdx r) = false ∧ t.flt.raised = s.flt.raised)) ∧
    (s.pwr.mode ≠ .off → s.pwr.mode ≠ .sleep → answers (exec .vcoreLowReset s) fun t => t.pwr.vcoreLow = true ∧ t.sup = .held ∧ t.pwr.mode = .start ∧
      t.pwr.rails.getLsbD 4 = false ∧ t.pwr.pdOn = 0#80 ∧ t.sec.otp = s.sec.otp) ∧
    (∀ c, s.clocked c = true → c ≠ .ckh → (answers (exec (.clockLoss c) s) fun t => t.clk = (s.setClock c false).clk ∧ t.flt.met.getLsbD (clockSrc c) = true ∧
        t.flt.clockCut = !(t.clk.plle && t.clk.pllp) ∧ (∀ b : BankId, t.flt.clockCut = true → t.bank[b].gateEn = false)) ∧
      (answers (exec (.clockRelock c) s) fun t => t.clk = (s.setClock c true).clk ∧ t.flt.met.getLsbD (clockSrc c) = false ∧
        t.flt.clockCut = !(t.clk.plle && t.clk.pllp) ∧
        ((∀ b : BankId, s.bank[b].gateEn = false) → ∀ n : AxisId, t.ax[n].ch.st = s.ax[n].ch.st))) ∧
    (s.clocked .ckh = true →
      (s.clk.ckh = true → answers (exec (.clockLoss .ckh) s) fun t => t.clk = { s.clk with ckh := false } ∧ t.pwr.pdOn.getLsbD 72 = false ∧
        t.hst.linkUp = false ∧ t.hst.ready = false ∧ t.flt = s.flt ∧ t.bank = s.bank ∧ t.ax = s.ax) ∧
      (s.clk.ckh = false → answers (exec (.clockRelock .ckh) s) fun t => t.clk = { s.clk with ckh := true } ∧ t.pwr.pdOn.getLsbD 72 = true ∧
        t.hst.linkUp = !s.hst.perstLow ∧ t.flt = s.flt ∧ t.bank = s.bank ∧ t.ax = s.ax))) ∧
  (∀ s : State,
    (s.supRuns = true →
      (answers (exec .lockstepMismatch s) fun t => t.sup = .held ∧ t.hst.ready = false ∧ t.flt.lockstepAt = some s.cref ∧
        (s.flt.lockstepAt = none → t.flt.met.getLsbD 1100 = true) ∧
        (∀ c, s.flt.lockstepAt = some c → t.flt.met.getLsbD (if s.cref < c + 10 * ms 1000 then 1101 else 1100) = true) ∧ t.ax = s.ax ∧ t.bank = s.bank) ∧
      (s.sec.supHalted = false → answers (exec .supWatchdog s) fun t => t.sup = .held ∧ t.flt.met.getLsbD 1104 = true ∧ t.ax = s.ax ∧ t.bank = s.bank) ∧
      (s.sec.supHalted = true → exec .supWatchdog s = .next s) ∧
      (answers (exec .supEcc s) fun t => t.sup = .held ∧ t.flt.met.getLsbD 1105 = true ∧ t.ax = s.ax ∧ t.bank = s.bank)) ∧
    (s.supRuns = false → exec .lockstepMismatch s = .next s ∧ exec .supWatchdog s = .next s ∧ exec .supEcc s = .next s) ∧
    (s.sup = .held → s.ckt (s.flt.supHeldAt + us 10) = true → s.pwr.mode.live = true → answers (exec .supervisorRestart s) fun t => t.sup = .boot ∧ t.rst.getLsbD 2 = true ∧ t.sec.tokenOpen = false ∧
      t.sec.otp = s.sec.otp ∧ t.cref = s.cref) ∧
    (s.pwr.mode = .start → s.pwr.vcoreLow = false → ∀ inp, answers (exec (.railsGood inp) s) fun t => t.pwr.mode = .active ∧ t.clk.pllp = true ∧ t.clk.plle = true ∧
      t.clk.ckh = inp.refclk ∧ t.pwr.rails = 0x1F#5 ∧ (∀ n : AxisId, t.axOn n = false) ∧ t.sec.ready = true) ∧
    (s.sup = .boot → s.pwr.mode.live = true → s.sec.ready = true → ∀ inp, answers (exec (.supervisorReady inp) s) fun t => t.sup = .ready ∧ t.hst.ready = true ∧
      (s.pwr.pdReq = 0#80 → ∀ n : AxisId, s.hasAxis n = true → t.axOn n = true)))

/-! Faults (15). -/

/-- 15 R424 to R426, R432, R433: the oldest raised source reaches the collector, which sets its sticky bit, takes its scope to the safe state of its
class, and keeps the reaction outstanding; a raise in an open merge window counts there instead; windows close. -/
def Obligations.FaultsReactOnTheirScopes : Prop :=
  ∀ (s : State) (k : Nat) (l : List Nat), let c := s.actClass k (s.raisedClass k)
    let meets (w : MergeWin) : Bool := s.mergeOpen w && (w.scope.join (actScope k (s.actClass k (s.fltClass k)))).isSome
    (s.flt.raised = [] → exec .faultReaction s = .next s) ∧
    (s.flt.raised = k :: l → (srcListed k = false ∨ s.srcFitted k = false) → exec .faultReaction s = .next { s with flt := { s.flt with raised := l } }) ∧
    (s.flt.raised = k :: l → srcListed k = true → s.srcFitted k = true → s.flt.merge.find? meets = none →
      answers (exec .faultReaction s) fun t => t.flt.sticky.getLsbD k = true ∧ (∀ j, j ≠ k → t.flt.sticky.getLsbD j = s.flt.sticky.getLsbD j) ∧
        t.flt.mergeCnt = s.flt.mergeCnt ∧ t.cref = s.cref ∧ t.sec.otp = s.sec.otp ∧
        (c = 0 → t.ax = s.ax ∧ t.bank = s.bank ∧ t.flt.axisOut = s.flt.axisOut ∧ t.flt.bankOut = s.flt.bankOut ∧ t.flt.deviceOut = s.flt.deviceOut) ∧
        (1 ≤ c → t.isOut (actScope k c) = true ∧ ∀ n ∈ s.scopeAxes (actScope k c), t.ax[n].ch.st = .safe) ∧
        (c = 2 → ∀ b ∈ s.scopeBanks (actScope k c), t.bank[b].allow = false ∧ t.bank[b].gateEn = false) ∧
        (c = 4 → t.flt.grave = true ∧ ∀ b : BankId, t.bank[b].gateEn = false) ∧ (c ≤ 3 → t.flt.grave = s.flt.grave)) ∧
    (∀ w, s.flt.raised = k :: l → srcListed k = true → s.srcFitted k = true → s.flt.merge.find? meets = some w →
      answers (exec .faultReaction s) fun t => t.flt.sticky.getLsbD k = true ∧ t.flt.mergeCnt = satInc s.flt.mergeCnt ∧ t.flt.escWin = s.flt.escWin ∧
        t.flt.devVecAt = s.flt.devVecAt ∧ t.flt.merge.length = s.flt.merge.length) ∧
    (s.flt.merge.head?.any s.mergeOpen = false → exec .mergeWindowClose s = .next { s with flt := { s.flt with merge := s.flt.merge.drop 1 } }) ∧
    (s.flt.merge.head?.any s.mergeOpen = true → exec .mergeWindowClose s = .next s) ∧
    (∀ src : Fin 1536, (∀ w, s.escWinOf src.val = some w → w.opened + escLen (s.fltEsc src.val) ≤ s.cref) →
      exec (.escWindowClose src) s = .next { s with flt := { s.flt with escWin := s.flt.escWin.filter fun w => w.src ≠ src.val } })

/-- 15 R423, R426 to R428, R434, R441; 02 R63; 03 R85; 18 R501: FAULT_CLEAR clears the scopes whose causes are gone, and nothing while the GRAVE latch is
set; self-tests, each 100 ms after the one before, raise what failed; an injection arms; the locks set and change nothing else. -/
def Obligations.FaultCommandsComplete : Prop :=
  ∀ (s u : State) (h : DescHdr),
    (∀ m bk fl, Takes h s u →
      (m = 0#64 → bk = 0#8 → fl = 0#8 → s.spelled h (.faultClear h m bk fl) = true → exec (.faultClear h m bk fl) s = .next (u.done h .badArg)) ∧
      (¬(m = 0#64 ∧ bk = 0#8 ∧ fl = 0#8) → fl &&& 0xFE#8 = 0#8 → u.absentMask m = false → (∀ b : BankId, bk.getLsbD b.val = true → u.hasBank b = true) → u.offMask m = false →
        (u.flt.grave = true → s.spelled h (.faultClear h m bk fl) = true → exec (.faultClear h m bk fl) s = .next (u.done h .denied)) ∧
        (u.flt.grave = false → (∀ sc ∈ namedScopes m bk fl, u.remaining sc = []) → s.spelled h (.faultClear h m bk fl) = true → answers (exec (.faultClear h m bk fl) s) fun t =>
          (∀ sc ∈ namedScopes m bk fl, t.isOut sc = false) ∧ (∀ sc, sc ∉ namedScopes m bk fl → t.isOut sc = u.isOut sc) ∧
          t.flt.sticky = u.flt.sticky ∧ t.flt.escWin = u.flt.escWin ∧
          ((∀ b : BankId, u.bank[b].hot = false) → t.ax = u.ax ∧ t.bank = u.bank ∧ t.hst = (u.done h .ok).hst) ∧
          (∀ b : BankId, hottest u.bank[b].tempsIn.toList < 1840 → bankSrc b 2 ∉ u.flt.raised →
            (∀ e ∈ u.flt.reacted, e.2 = bankSrc b 2 → e.1 ∈ namedScopes m bk fl ∧ u.isOut e.1 = true) → t.bank[b].hot = false)) ∧
        (∀ k, u.flt.grave = false → (∃ sc ∈ namedScopes m bk fl, k ∈ u.remaining sc) → (∀ sc ∈ namedScopes m bk fl, ∀ j ∈ u.remaining sc, k ≤ j) →
          s.spelled h (.faultClear h m bk fl) = true → answers (exec (.faultClear h m bk fl) s) fun t =>
          (∀ sc, t.isOut sc = (u.isOut sc && !(decide (sc ∈ namedScopes m bk fl) && (u.remaining sc).isEmpty))) ∧ t.flt.sticky = u.flt.sticky ∧
          ((∀ b : BankId, u.bank[b].hot = false) → t.ax = u.ax ∧ t.bank = u.bank ∧ t.hst = (u.done h .faulted (BitVec.ofNat 32 k |||
            if (namedScopes m bk fl).any fun sc => u.isOut sc && (u.remaining sc).isEmpty then 0x80000000#32 else 0#32)).hst)))) ∧
    (s.awake = true → s.testDue s.flt.onlineAt = true →
      (∀ m, exec (.onlineSelftest true true m) s =
        .next { s with flt := { s.flt with onlineAt := some s.cref, raised := s.flt.raised ++ ((axesOf m).filter s.axOn).map fun n => axisSrc n 12 } }) ∧
      exec (.onlineSelftest false true 0#64) s = .next { s with flt := { s.flt with onlineAt := some s.cref, raised := s.flt.raised ++ [1102] } } ∧
      (s.supRuns = true → answers (exec (.onlineSelftest true false 0#64) s) fun t => t.sup = .held ∧ t.flt.met.getLsbD 1105 = true ∧ t.ax = s.ax ∧ t.bank = s.bank)) ∧
    (∀ b : BankId, s.awake = true → s.bankOn b = true → (bankAxes b).all s.atRest = true → s.testDue s.flt.holdTestAt[b] = true →
      (answers (exec (.holdSelftest b false) s) fun t => t.flt.met.getLsbD (bankSrc b 7) = true ∧ t.flt.stAt = s.flt.stAt ∧ t.ax = s.ax ∧
        (s.flt.met.getLsbD (bankSrc b 7) = false → t.flt.raised = s.flt.raised ++ [bankSrc b 7])) ∧
      (answers (exec (.holdSelftest b true) s) fun t => t.flt.met.getLsbD (bankSrc b 7) = false ∧ t.flt.raised = s.flt.raised ∧ t.ax = s.ax ∧
        ((∀ n ∈ bankAxes b, s.forced n = Forced.open) → t.flt.stAt[b] = some s.cref))) ∧
    (∀ b p, (bankAxes b).all s.atRest = false → exec (.holdSelftest b p) s = .next s) ∧
    (s.awake = true → s.selftestOld = true → answers (exec .selftestDue s) fun t => t.flt.met.getLsbD 1110 = true ∧ t.ax = s.ax ∧
      (s.flt.met.getLsbD 1110 = false → t.flt.raised = s.flt.raised ++ [1110])) ∧
    (s.selftestOld = false → exec .selftestDue s = .next s) ∧
    (∀ v, let armed : State := { s with flt := { s.flt with inj := (v ||| 0x80000000#32) &&& 0xCF0003FF#32 } }
      (s.injUnit (bits v 27 24) (bits v 9 0) = false → exec (.faultInject v) s = .next s) ∧
      (s.injUnit (bits v 27 24) (bits v 9 0) = true →
        (bits v 27 24 < 4 → exec (.faultInject v) s = .next armed) ∧
        (bits v 27 24 = 6 → (s.sysOn 77 = false → exec (.faultInject v) s = .next armed) ∧
          (s.sysOn 77 = true → answers (exec (.faultInject v) s) fun t => bit t.flt.inj 31 = false ∧
            t.flt.raised = (if bit v 30 then s.flt.raised else s.flt.raised ++ [1112]) ∧ t.sup = s.sup ∧ t.ax = s.ax ∧ t.bank = s.bank)) ∧
        (bits v 27 24 = 4 ∨ bits v 27 24 = 5 → s.supRuns = false ∨ s.sec.supHalted = true → exec (.faultInject v) s = .next armed) ∧
        (s.supRuns = true → s.sec.supHalted = false →
          (bits v 27 24 = 4 → bit v 30 = true → answers (exec (.faultInject v) s) fun t => bit t.flt.inj 31 = false ∧ t.flt.raised = s.flt.raised ∧ t.sup = s.sup ∧ t.ax = s.ax ∧ t.bank = s.bank) ∧
          (bits v 27 24 = 4 → bit v 30 = false → answers (exec (.faultInject v) s) fun t => bit t.flt.inj 31 = false ∧ t.sup = .held ∧ t.flt.met.getLsbD 1105 = true) ∧
          (bits v 27 24 = 5 → answers (exec (.faultInject v) s) fun t => bit t.flt.inj 31 = false ∧ t.sup = .held ∧ t.flt.lockstepAt = some s.cref)))) ∧
    exec .enclaveFault s = .next { s with flt := { s.flt with raised := s.flt.raised ++ [1112] } } ∧
    (∀ b : BankId, (s.bankOn b = true → exec (.gdrLockSet b) s = .next { s with bank := s.bank.set b { s.bank[b] with lock := true } }) ∧
      (s.bankOn b = false → exec (.gdrLockSet b) s = .next s)) ∧
    (∀ n : AxisId, (s.axOn n = true → answers (exec (.cmpLockSet n) s) fun t => t.ax[n].sns = { s.ax[n].sns with lock := true } ∧ SameButAxis n s t) ∧
      (s.axOn n = false → exec (.cmpLockSet n) s = .next s)) ∧
    exec .fltLockSet s = .next { s with flt := { s.flt with lock := true } } ∧
    (s.variant.tally = true → exec .tlyLockSet s = .next { s with tly := { s.tly with lock := true } }) ∧
    (s.variant.tally = false → exec .tlyLockSet s = .next s)

/-! Security and debug (16). -/

/-- 16 R442, R445 to R449, R452, R453: words of the OTP are read; OTP_PROGRAM checks every word before it burns one, and burns only what it was
asked; locks only set; a life-cycle step, RETURN only with a token that
passes its checks, burns both words of its pair and SCRAP blocks the banks at once. -/
def Obligations.OtpCommandsComplete : Prop :=
  ∀ (s u : State) (h : DescHdr) (q : Fin 64), h.src = .sq q → Stored s → Takes h s u →
    (∀ w c : BitVec 16, ∀ dest, (c = 0#16 ∨ 256 < c.toNat ∨ 2048 < w.toNat + c.toNat → s.spelled h (.otpRead h w c dest) = true → exec (.otpRead h w c dest) s = .next (u.done h .badArg)) ∧
      (c ≠ 0#16 → c.toNat ≤ 256 → w.toNat + c.toNat ≤ 2048 → s.spelled h (.otpRead h w c dest) = true → answers (exec (.otpRead h w c dest) s) fun t =>
        t.out = u.out ++ [Output.hostWrite dest ((List.range c.toNat).flatMap fun i => wordBytes (s.sec.otp.rd (w.toNat + i)))] ∧
        t.hst = (u.done h .ok).hst ∧ t.sec = u.sec ∧ t.ax = u.ax)) ∧
    (∀ (w : BitVec 16) (vs : List Word), 0 < vs.length → vs.length ≤ 64 → w.toNat + vs.length ≤ 2048 →
      let c := BitVec.ofNat 16 vs.length; let crc := crc32c (vs.flatMap wordBytes)
      (∀ x, u.otpRefused (otpWords w.toNat vs) = some x → ∀ f, s.spelled h (.otpProgram h w c crc vs f) = true → exec (.otpProgram h w c crc vs f) s = .next (u.done h .denied (fieldAt 0 x))) ∧
      (u.otpRefused (otpWords w.toNat vs) = none → s.spelled h (.otpProgram h w c crc vs none) = true → answers (exec (.otpProgram h w c crc vs none) s) fun t =>
        (∀ i < vs.length, t.sec.otp.rd (w.toNat + i) = s.sec.otp.rd (w.toNat + i) ||| vs.getD i 0#32) ∧
        (∀ a, a < w.toNat ∨ w.toNat + vs.length ≤ a → t.sec.otp.rd a = s.sec.otp.rd a) ∧ t.hst = (u.done h .ok).hst ∧ t.ax = u.ax) ∧
      (∀ i < vs.length, u.otpRefused (otpWords w.toNat vs) = none → s.spelled h (.otpProgram h w c crc vs (some (w.toNat + i))) = true → answers (exec (.otpProgram h w c crc vs (some (w.toNat + i))) s) fun t =>
        (∀ j < i, t.sec.otp.rd (w.toNat + j) = s.sec.otp.rd (w.toNat + j) ||| vs.getD j 0#32) ∧
        (∀ a, a < w.toNat ∨ w.toNat + i < a → t.sec.otp.rd a = s.sec.otp.rd a) ∧
        t.hst = (u.done h .faulted (BitVec.ofNat 32 (w.toNat + i))).hst) ∧
      (∀ crc' f, crc' ≠ crc → s.spelled h (.otpProgram h w c crc' vs f) = true → exec (.otpProgram h w c crc' vs f) s = .next (u.done h .crc))) ∧
    (∀ v, (s.bar0 = true → exec (.otpLockWrite v) s = .next { s with sec := { s.sec with otpLock := s.sec.otpLock ||| v.setWidth 7 } }) ∧
      (s.bar0 = false → exec (.otpLockWrite v) s = .next s)) ∧
    (∀ (g : BitVec 8) (cf : BitVec 8) token ok, (cf ≠ ~~~ g → s.spelled h (.lifecycle h g cf token ok) = true → exec (.lifecycle h g cf token ok) s = .next (u.done h .badArg)) ∧
      (u.lcStep g.toNat = none → s.spelled h (.lifecycle h g (~~~ g) token ok) = true → exec (.lifecycle h g (~~~ g) token ok) s = .next (u.done h .denied)) ∧
      (u.lcStep g.toNat ≠ none → g ≠ 5#8 → u.allRest = false → s.spelled h (.lifecycle h g (~~~ g) token ok) = true → exec (.lifecycle h g (~~~ g) token ok) s = .next (u.done h .conflict)) ∧
      (∀ code, u.lcStep g.toNat = some (some code) → u.allRest = true → s.spelled h (.lifecycle h g (~~~ g) token ok) = true → exec (.lifecycle h g (~~~ g) token ok) s = .next (u.done h .denied (fieldAt 0 code))) ∧
      (u.lcStep g.toNat = some none → g = 4#8 → u.allRest = true → (u.judgeToken true token ok).1 ≠ none →
        s.spelled h (.lifecycle h g (~~~ g) token ok) = true → exec (.lifecycle h g (~~~ g) token ok) s = .next ((u.judgeToken true token ok).2.done h .denied 5#32)) ∧
      (u.lcStep g.toNat = some none → (g = 5#8 ∨ u.allRest = true) → (g = 4#8 → (u.judgeToken true token ok).1 = none) →
        s.spelled h (.lifecycle h g (~~~ g) token ok) = true → answers (exec (.lifecycle h g (~~~ g) token ok) s) fun t =>
        t.sec.otp.rd (0x100 + 2 * (g.toNat - 1)) = 0xFFFFFFFF#32 ∧ t.sec.otp.rd (0x101 + 2 * (g.toNat - 1)) = 0xFFFFFFFF#32 ∧
        t.sec.lc = s.sec.lc ∧ t.sec.lcPending = true ∧ (g = 5#8 → t.sec.scrapped = true ∧ ∀ b : BankId, t.bank[b].gateEn = false) ∧
        (g ≠ 5#8 → t.bank = u.bank ∧ t.ax = u.ax ∧ t.hst = (u.done h .ok).hst)))

/-- 16 R455 to R460: a report, the identity key and its certificate, the challenge, a debug token that opens or is refused, and the accesses of the TAP,
each served as the life-cycle state and the token allow, and else refused with ERR. -/
def Obligations.IdentityAndDebugComplete : Prop :=
  ∀ (s u : State) (h : DescHdr) (q : Fin 64), h.src = .sq q →
    (Stored s → Takes h s u → ∀ addr,
      (∀ nonce, (u.sec.lc = 2#3 ∨ u.sec.lc = 3#3 → u.sec.certOk = true → s.spelled h (.report h addr nonce) = true → answers (exec (.report h addr nonce) s) fun t =>
          (∃ g, g.length = 96 ∧ t.out = u.out ++ [Output.hostWrite addr (u.reportBody nonce ++ g)]) ∧ t.hst = (u.done h .ok).hst ∧ t.sec = u.sec ∧ t.ax = u.ax) ∧
        (u.sec.lc ≠ 2#3 → u.sec.lc ≠ 3#3 → s.spelled h (.report h addr nonce) = true → exec (.report h addr nonce) s = .next (u.done h .denied))) ∧
      (u.sec.lc = 1#3 → u.identityBurnt = false → s.spelled h (.keygen h addr) = true → answers (exec (.keygen h addr) s) fun t => t.sec.sealed = true ∧ t.sec.identity = true ∧ t.sec.otp = u.sec.otp ∧
        (∃ g, g.length = 96 ∧ t.sec.pub = 4#8 :: g ∧ t.out = u.out ++ [Output.hostWrite addr (4#8 :: g)]) ∧ t.hst = (u.done h .ok).hst) ∧
      (u.sec.lc ≠ 1#3 ∨ u.identityBurnt = true → s.spelled h (.keygen h addr) = true → exec (.keygen h addr) s = .next (u.done h .denied)) ∧
      (∀ (len : BitVec 16) cert key, len ≠ 0#16 → len.toNat ≤ 4096 → cert.length = len.toNat → u.sec.lc = 1#3 → u.identityBurnt = false →
        (key = u.sec.pub → u.sec.sealed = true → s.spelled h (.certInstall h len cert key) = true → answers (exec (.certInstall h len cert key) s) fun t => t.sec.cert = cert ∧
          (∀ i < 12, t.sec.otp.rd (0x110 + i) = (wordsOf (sha384 cert)).getD i 0#32) ∧ t.hst = (u.done h .ok).hst) ∧
        (key ≠ u.sec.pub ∨ u.sec.sealed = false → s.spelled h (.certInstall h len cert key) = true → exec (.certInstall h len cert key) s = .next (u.done h .badArg))) ∧
      (u.sec.lc ≠ 0#3 → u.sec.cert ≠ [] → s.spelled h (.certRead h addr) = true → answers (exec (.certRead h addr) s) fun t => t.out = u.out ++ [Output.hostWrite addr u.sec.cert] ∧
        t.hst = (u.done h .ok (fieldAt 0 u.sec.cert.length)).hst ∧ t.sec = u.sec) ∧
      (u.sec.lc = 0#3 → s.spelled h (.certRead h addr) = true → exec (.certRead h addr) s = .next (u.done h .denied)) ∧
      (s.spelled h (.challenge h addr) = true → answers (exec (.challenge h addr) s) fun t => ∃ n, t.sec.nonce = some { val := n } ∧ t.out = u.out ++ [Output.hostWrite addr (wideBytes n)] ∧
        t.sec.otp = u.sec.otp ∧ t.hst = (u.done h .ok).hst)) ∧
    (Takes h s u → ∀ token ok,
      (∀ st info, u.tokenEarly false token = some (st, info) → s.spelled h (.debugTokenOpen h token ok) = true → exec (.debugTokenOpen h token ok) s = .next (u.done h st info)) ∧
      (∀ st info, u.tokenEarly false token = none → u.tokenLate false token ok = some (st, info) →
        s.spelled h (.debugTokenOpen h token ok) = true → answers (exec (.debugTokenOpen h token ok) s) fun t => t.sec = { u.sec with nonce := none } ∧ t.hst = (u.done h st info).hst) ∧
      (u.tokenEarly false token = none → u.tokenLate false token ok = none → s.spelled h (.debugTokenOpen h token ok) = true → answers (exec (.debugTokenOpen h token ok) s) fun t =>
        t.sec = { u.sec with nonce := none, tokenOpen := true, scope := u.sec.scope ||| (tokenScope token).setWidth 2 } ∧ t.hst = (u.done h .ok).hst ∧ t.ax = u.ax)) ∧
    (Takes h s u → u.sec.deferred = false → s.spelled h (.debugTokenClose h) = true → answers (exec (.debugTokenClose h) s) fun t => t.sec = { u.sec with tokenOpen := false, scope := 0#2, supHalted := false } ∧
      ∀ n : AxisId, u.hasAxis n = true → t.ax[n].clu.dbg = 0#16) ∧
    (s.pwr.mode ≠ .off →
      (exec (.jtagAccess .idcode) s = .next { s with sec := { s.sec with tapErr := false, tapData := s.idcode } }) ∧
      (∀ g, g ≠ .idcode → (s.dbgOpen (tapKind g) = false ∨ s.tapOn g = false) →
        exec (.jtagAccess g) s = .next { s with sec := { s.sec with tapErr := true, tapData := 0#32 } }) ∧
      (∀ o, s.dbgOpen .supervisor = true → s.tapOn (.register o) = true → answers (exec (.jtagAccess (.register o)) s) fun t =>
        t.sec.tapErr = false ∧ t.sec.tapData = (if o % 4 = 0 then s.readValue 2 o else 0#32) ∧ t.sec.jtagActive = true ∧ t.sec.otp = s.sec.otp) ∧
      (∀ n j, s.dbgOpen .engine = true → s.axOn n = true → answers (exec (.jtagAccess (.engine n j)) s) fun t => t.sec.tapErr = false ∧ t.sec.jtagActive = true ∧ t.ax = s.ax) ∧
      (s.dbgOpen .supervisor = true → s.sysOn 79 = true → ∀ b, answers (exec (.jtagAccess (.supervisor b)) s) fun t => t.sec.tapErr = false ∧ t.sec.supHalted = b) ∧
      (∀ m, s.dbgOpen .keep = true → (∀ n ∈ axesOf m, s.axOn n = true) →
        exec (.keepAlive m) s = .next { s with sec := { s.sec with keep := m, tapErr := false, jtagActive := true } }) ∧
      (∀ m, s.dbgOpen .keep = false → exec (.keepAlive m) s = .next { s with sec := { s.sec with tapErr := true, tapData := 0#32 } }) ∧
      (s.dbgOpen .scan = true → answers (exec (.extestSelect true) s) fun t => t.sec.extest = true ∧ ∀ b : BankId, t.bank[b].gateEn = false) ∧
      (s.dbgOpen .scan = false → exec (.extestSelect true) s = .next { s with sec := { s.sec with tapErr := true, tapData := 0#32 } }) ∧
      (answers (exec (.extestSelect false) s) fun t => t.sec.extest = false))

/-! Images and settings (17). -/

/-- 17 R469, R476 to R481: a session opens on the bank outside the running set, takes blocks in any order and stores each, in plaintext, in its bank, and ends with
the bank WRITTEN once every block is there and the SHA-384 of the payload is PAYLOAD_HASH; activation programs TRIAL, confirmation CONFIRMED; a trial that fails programs
REJECTED, and the module restarts. -/
def Obligations.ImageCommandsComplete : Prop :=
  ∀ (s u : State) (h : DescHdr),
    (Takes h s u → ∀ k : Fin 3, let kind : BitVec 8 := BitVec.ofNat 8 k.val
      (∀ len crc data sig, let b := padTo len.toNat data; let hdr := imgHeader b; let chk := u.beginCheck h kind len (crc32c b = crc) hdr sig
        (∀ st info, chk = some (st, info) → s.spelled h (.imageBegin h kind len crc data sig) = true → exec (.imageBegin h kind len crc data sig) s = .next (u.done h st info)) ∧
        (chk = none → s.spelled h (.imageBegin h kind len crc data sig) = true → answers (exec (.imageBegin h kind len crc data sig) s) fun t =>
          t.img.session[k] = some { toB := u.targetBank k, written := [] } ∧ t.img.bank[bankIdx k (u.targetBank k)].st = .writing ∧
          t.img.bank[bankIdx k (u.targetBank k)].hdr = some hdr ∧ t.img.bank[bankIdx k (u.targetBank k)].slots = u.sigSlots hdr ∧
          (∀ i : Fin 6, i ≠ bankIdx k (u.targetBank k) → t.img.bank[i] = u.img.bank[i]) ∧ t.img.runBank = u.img.runBank ∧
          t.hst = (u.done h .ok ((if u.targetBank k then 1#32 else 0#32) ||| fieldAt 16 (ImgBlocks hdr))).hst)) ∧
      (u.img.session[k] = none → (∀ i len d g r, s.spelled h (.imageBlock h kind i len d g r) = true → exec (.imageBlock h kind i len d g r) s = .next (u.done h .conflict)) ∧
        (∀ ok, s.spelled h (.imageEnd h kind ok) = true → exec (.imageEnd h kind ok) s = .next (u.done h .conflict)) ∧ (s.spelled h (.imageAbandon h kind) = true → exec (.imageAbandon h kind) s = .next (u.done h .conflict))) ∧
      (∀ x, u.img.session[k] = some x → let hdr := u.sessionHdr k x
        (∀ (i : BitVec 16) (len : Word) d g r,
          (ImgBlocks hdr ≤ i.toNat ∨ len.toNat ≠ blockLen hdr i.toNat → s.spelled h (.imageBlock h kind i len d g r) = true → exec (.imageBlock h kind i len d g r) s = .next (u.done h .badArg)) ∧
          (i.toNat < ImgBlocks hdr → len.toNat = blockLen hdr i.toNat → d.length = len.toNat → dataCheck h 1 len.toNat = none →
            (crc32c d ≠ hdr.blockCrcs.getD i.toNat 0#32 → s.spelled h (.imageBlock h kind i len d g r) = true → exec (.imageBlock h kind i len d g r) s = .next (u.done h .crc)) ∧
            (crc32c d = hdr.blockCrcs.getD i.toNat 0#32 →
              (hdr.transit = true → g = false → s.spelled h (.imageBlock h kind i len d g r) = true → answers (exec (.imageBlock h kind i len d g r) s) fun t => t.img.session[k] = none ∧
                t.img.bank[bankIdx k x.toB].st = .empty ∧ t.hst = (u.done h .sig).hst) ∧
              (hdr.transit = false ∨ g = true → s.spelled h (.imageBlock h kind i len d g r) = true → answers (exec (.imageBlock h kind i len d g r) s) fun t =>
                t.img.bank[bankIdx k x.toB] = u.img.bank[bankIdx k x.toB].setBlock i.toNat (if r then some (blockPlain hdr i.toNat d) else none) ∧
                (∀ b : Fin 6, b ≠ bankIdx k x.toB → t.img.bank[b] = u.img.bank[b]) ∧ ∃ y, t.img.session[k] = some y ∧
                y.toB = x.toB ∧ (∀ j, j ∈ y.written ↔ (j ∈ x.written ∧ j ≠ i.toNat) ∨ (j = i.toNat ∧ r = true)) ∧
                t.hst = (if r then u.done h .ok (fieldAt 0 (missing hdr y).length) else u.done h .faulted).hst)))) ∧
        (∀ ok, (∀ j l, missing hdr x = j :: l → s.spelled h (.imageEnd h kind ok) = true → exec (.imageEnd h kind ok) s = .next (u.done h .badArg (fieldAt 0 j))) ∧
          (missing hdr x = [] → (ok = true → u.img.bank[bankIdx k x.toB].hashed = true → s.spelled h (.imageEnd h kind ok) = true → answers (exec (.imageEnd h kind ok) s) fun t => t.img.session[k] = none ∧ t.img.bank[bankIdx k x.toB].st = .written ∧
              t.img.bank[bankIdx k x.toB].hdr = u.img.bank[bankIdx k x.toB].hdr ∧ t.hst = (u.done h .ok).hst) ∧
            (ok = false ∨ u.img.bank[bankIdx k x.toB].hashed = false → s.spelled h (.imageEnd h kind ok) = true → answers (exec (.imageEnd h kind ok) s) fun t => t.img.session[k] = none ∧ t.img.bank[bankIdx k x.toB].st = .empty ∧
              t.hst = (u.done h .sig).hst))) ∧
        (s.spelled h (.imageAbandon h kind) = true → answers (exec (.imageAbandon h kind) s) fun t => t.img.session[k] = none ∧ t.img.bank[bankIdx k x.toB].st = .empty ∧ t.hst = (u.done h .ok).hst ∧
          (∀ i : Fin 6, i ≠ bankIdx k x.toB → t.img.bank[i] = u.img.bank[i])))) ∧
    (Takes h s u → ∀ kinds sig hash,
      (∀ st info, u.activateCheck kinds sig hash = some (st, info) → s.spelled h (.imageActivate h kinds sig hash) = true → exec (.imageActivate h kinds sig hash) s = .next (u.done h st info)) ∧
      (∀ v, u.activateCheck kinds sig hash = none → u.setWith .written (namedKind kinds) = some v → s.spelled h (.imageActivate h kinds sig hash) = true → answers (exec (.imageActivate h kinds sig hash) s) fun t =>
        t.img.activated = true ∧ (∀ k : Fin 3, namedKind kinds k = true → t.img.bank[setBank v k].st = .trial) ∧
        (∀ i : Fin 6, (∀ k : Fin 3, namedKind kinds k = true → i ≠ setBank v k) → t.img.bank[i] = u.img.bank[i]) ∧ t.hst = (u.done h .ok).hst ∧ t.ax = u.ax)) ∧
    (s.img.activated = true → s.activateSent = true → s.img.actAt + ms 10 ≤ s.cref → answers (exec .activateRestart s) fun t => t.rst = s.rst ||| 8#6 ∧ t.pwr.mode = .start ∧ t.sec.otp = s.sec.otp ∧ t.cref = s.cref) ∧
    (s.img.activated = false ∨ s.activateSent = false → exec .activateRestart s = .next s) ∧
    (s.img.trial = true → s.img.awaitConfirm = false → s.trialOut = true → answers (exec .trialReadyTimeout s) fun t => t.rst = s.rst ||| 16#6 ∧ t.pwr.mode = .start ∧
      t.img.revertCause = 1#3 ∧ t.img.revertCnt = satInc s.img.revertCnt ∧ ∀ i : Fin 6, s.img.bank[i].st = .trial → t.img.bank[i].st = .rejected) ∧
    ((s.img.trial = false ∨ s.img.awaitConfirm = true ∨ s.trialOut = false) → exec .trialReadyTimeout s = .next s) ∧
    (s.img.trial = true → s.img.awaitConfirm = true → s.trialOut = true → answers (exec .trialConfirmTimeout s) fun t => t.img.revertWait = true ∧ t.img.revertCause = 2#3 ∧
      t.img.revertCnt = satInc s.img.revertCnt ∧ (∀ i : Fin 6, s.img.bank[i].st = .trial → t.img.bank[i].st = .rejected) ∧
      ∀ n : AxisId, s.hasAxis n = true → t.ax[n].ch.st ≠ .run) ∧
    (s.img.revertWait = true → (s.allRest = true ∨ s.ckt (s.img.revertAt + ms 2000) = true) → answers (exec .trialRevertRestart s) fun t => t.rst = s.rst ||| 16#6 ∧ t.pwr.mode = .start ∧ t.img.revertCause = s.img.revertCause) ∧
    (s.img.revertWait = false → exec .trialRevertRestart s = .next s) ∧
    (Takes h s u → ∀ f, (u.img.trial = false ∨ u.img.awaitConfirm = false → s.spelled h (.imageConfirm h f) = true → exec (.imageConfirm h f) s = .next (u.done h .conflict)) ∧
      (u.img.trial = true → u.img.awaitConfirm = true → s.spelled h (.imageConfirm h f) = true → answers (exec (.imageConfirm h f) s) fun t => t.img.trial = false ∧ t.img.awaitConfirm = false ∧
        (∀ i : Fin 6, t.img.bank[i].st = if u.img.bank[i].st = .trial then .confirmed else u.img.bank[i].st) ∧
        (∀ i : Fin 2, ∀ b, t.img.copy[i].block = some b → b.trial = 0#32) ∧ 
        (let left := (u.confirmSet.applyKeyOps (f.map (·.toNat))).2
         t.img.keyops = left.isSome ∧ (left = none → t.hst = (u.done h .ok).hst) ∧ ∀ w, left = some w → t.hst = (u.done h .faulted (fieldAt 0 w)).hst)))

/-- 17 R482, R485, R486: SETTINGS_WRITE writes one copy with its SEQ one above the newest and leaves the other; RELEASE ends preservation;
SETTINGS_READ writes the block asked for. -/
def Obligations.SettingsCommandsComplete : Prop :=
  ∀ (s u : State) (h : DescHdr) (q : Fin 64), h.src = .sq q → Takes h s u →
    (∀ (len : Word) data, let bs := padTo len.toNat data; let b := settingsOf bs
      (len.toNat ≤ 262144 → (wordAt bs 12).toNat + 64 = len.toNat → b.format = u.img.fmtFirmware → b.magicCyst = true →
        (b.crcOk = true → s.spelled h (.settingsWrite h len data) = true → answers (exec (.settingsWrite h len data) s) fun t => (∃ c, t.img.copy[u.copyDest].block = some c ∧ c.payload = b.payload ∧
            c.format = b.format ∧ c.seq = u.copyNext ∧ c.crcOk = true ∧ c.magicCyst = true ∧ c.trial = if u.img.trial then 0xFFFFFFFF#32 else 0#32) ∧
          t.img.copy[otherCopy u.copyDest] = u.img.copy[otherCopy u.copyDest] ∧ t.img.inUse = u.img.inUse ∧ t.hst = (u.done h .ok u.copyNext).hst ∧ t.ax = u.ax) ∧
        (b.crcOk = false → s.spelled h (.settingsWrite h len data) = true → exec (.settingsWrite h len data) s = .next (u.done h .crc))) ∧
      (262144 < len.toNat ∨ (wordAt bs 12).toNat + 64 ≠ len.toNat ∨ b.format ≠ u.img.fmtFirmware ∨ b.magicCyst = false →
        s.spelled h (.settingsWrite h len data) = true → exec (.settingsWrite h len data) s = .next (u.done h .badArg))) ∧
    (∀ i, u.newestCopy = some i → u.copyNext = u.copySeq i + 1#32 ∧ (u.img.preserved = none → u.copyDest ≠ i)) ∧
    (∀ i, u.img.preserved = some i → u.copyDest ≠ i) ∧
    (u.img.preserved = none → s.spelled h (.settingsRelease h) = true → exec (.settingsRelease h) s = .next (u.done h .conflict)) ∧
    (∀ i, u.img.preserved = some i → s.spelled h (.settingsRelease h) = true → answers (exec (.settingsRelease h) s) fun t => t.img.preserved = none ∧ t.img.copy = u.img.copy ∧ t.hst = (u.done h .ok).hst) ∧
    (∀ w addr max b, w.toNat ≤ 1 → u.settingsBlock w = some b →
      (b.length ≤ max.toNat → b ≠ [] → s.spelled h (.settingsRead h w addr max) = true → answers (exec (.settingsRead h w addr max) s) fun t => t.out = u.out ++ [Output.hostWrite addr b] ∧
        t.hst = (u.done h .ok (fieldAt 0 b.length)).hst ∧ t.img = u.img) ∧
      (max.toNat < b.length → s.spelled h (.settingsRead h w addr max) = true → exec (.settingsRead h w addr max) s = .next (u.done h .badArg (fieldAt 0 b.length)))) ∧
    (∀ addr max, u.settingsBlock 1#8 = none → s.spelled h (.settingsRead h 1#8 addr max) = true → exec (.settingsRead h 1#8 addr max) s = .next (u.done h .conflict))

/-! The Tally and register accesses (10, 18). -/

/-- 18 R493 to R500: a period that is due closes with the next SEQ and starts the totals again; a checkpoint joins the journal, or is kept where its
read-back fails; TALLY_READ writes the records that it names. -/
def Obligations.TallyCommandsComplete : Prop :=
  ∀ (s u : State) (h : DescHdr) (q : Fin 64), h.src = .sq q →
    (s.variant.tally = true → s.sup = .ready →
      (s.wallOk = true → s.tly.nextEnd ≠ 0#64 → s.tly.nextEnd ≤ s.alm.time → ∀ ok, answers (exec (.periodClose ok) s) fun t =>
        t.tly.headSeq = s.tly.headSeq + 1#32 ∧ t.tly.start = t.tly.lastEnd ∧ t.tly.stepCnt = 0 ∧ t.tly.backNs = 0 ∧ t.tly.fwdNs = 0 ∧ t.tly.rulePending = false ∧
        (∀ n : AxisId, t.tly.acc[n].starts = 0 ∧ t.tly.acc[n].energy = 0 ∧ t.tly.acc[n].peakMa = 0 ∧ t.tly.acc[n].faults = 0 ∧ t.tly.acc[n].torqueMs < 1000) ∧
        t.tly.unsigned_ = (s.sec.tokenOpen || !s.sec.identity) ∧
        (ok = true → ∃ r, t.tly.closes = (r :: s.tly.closes).take 512 ∧ r.seq = s.tly.headSeq + 1#32 ∧ r.bytes.length = 2048) ∧
        (ok = false → t.tly.journalErr = true ∧ t.tly.closes = s.tly.closes ∧ ∃ r, t.tly.held = some r ∧ r.seq = s.tly.headSeq + 1#32) ∧
        t.ax = s.ax ∧ t.hst = s.hst ∧ t.out = s.out) ∧
      (s.wallOk = false ∨ s.tly.nextEnd = 0#64 ∨ s.alm.time < s.tly.nextEnd → ∀ ok, exec (.periodClose ok) s = .next s) ∧
      (s.checkDue = true → answers (exec (.checkpoint true) s) fun t => t.tly.steps = s.tly.steps.drop 8 ∧ t.tly.held = none ∧ (∃ r, t.tly.checks = (r :: s.tly.checks).take 512 ∧
        r.seq = s.tly.headSeq + 1#32 ∧ r.bytes = s.checkBytes) ∧ t.tly.acc = s.tly.acc ∧ t.tly.closes = s.tly.closes ∧ t.ax = s.ax) ∧
      (s.checkDue = true → answers (exec (.checkpoint false) s) fun t => t.tly.journalErr = true ∧ t.tly.checks = s.tly.checks ∧ t.tly.steps = s.tly.steps ∧
        ∃ r, t.tly.held = some r ∧ r.bytes = s.checkBytes)) ∧
    (Takes h s u → ∀ kind (c : BitVec 16) f addr,
      (u.variant.tally = false → s.spelled h (.tallyRead h kind c f addr) = true → exec (.tallyRead h kind c f addr) s = .next (u.done h .absent)) ∧
      (u.variant.tally = true →
        (2 < kind.toNat ∨ c = 0#16 ∨ 64 < c.toNat ∨ (kind = 2#8 ∧ c ≠ 1#16) → s.spelled h (.tallyRead h kind c f addr) = true → exec (.tallyRead h kind c f addr) s = .next (u.done h .badArg)) ∧
        (c ≠ 0#16 → c.toNat ≤ 64 →
          (kind = 0#8 → u.tly.headSeq < f ∨ f.toNat + 511 < u.tly.headSeq.toNat → s.spelled h (.tallyRead h kind c f addr) = true → exec (.tallyRead h kind c f addr) s = .next (u.done h .badArg)) ∧
          ((kind = 0#8 ∧ f ≤ u.tly.headSeq ∧ u.tly.headSeq.toNat ≤ f.toNat + 511) ∨ kind = 1#8 ∨ (kind = 2#8 ∧ c = 1#16) → s.spelled h (.tallyRead h kind c f addr) = true → answers (exec (.tallyRead h kind c f addr) s) fun t =>
            (let rs := u.tallyRecords kind c.toNat f
             t.hst = (u.done h .ok (BitVec.ofNat 32 rs.length)).hst ∧ (rs.flatten ≠ [] → t.out = u.out ++ [Output.hostWrite addr rs.flatten]) ∧
             rs.length ≤ c.toNat) ∧ t.tly = u.tly ∧ t.ax = u.ax))))

/-- 10 R299, R300; 21 R531; 02 R49; 04 R131; 15 R441; 18 R501: a read returns the bytes it asks for, clears the RC fields, and latches HI where it is a LO; only an
aligned write of a whole word acts, and then as its register says. -/
def Obligations.RegisterAccessesComplete : Prop :=
  ∀ s : State,
    (s.bar0 = true →
      (∀ be, enOk be = true →
        (∀ o, o % 4 = 0 → answers (exec (.readClear o be) s) fun t =>
          t.readData = s.readValue 0 o &&& enMask be ∧ t.out = s.out ∧ t.cref = s.cref ∧ t.sec.otp = s.sec.otp) ∧
        (∀ o, o % 4 ≠ 0 → exec (.readClear o be) s = .next { s with readData := 0#32 }) ∧
        (answers (exec (.readClear 0x4004 be) s) fun t => t.flt = { s.flt with mergeCnt := 0#16 } ∧ t.readData = s.regRead 0x4004 &&& enMask be ∧ t.ax = s.ax)) ∧
      (∀ o be, enOk be = false → exec (.readClear o be) s = .next { s with readData := 0#32 }) ∧
      (∀ (n : AxisId) be, s.axOn n = true → enOk be = true → answers (exec (.readClear (0x80000 + 0x2000 * n.val + 0x820) be) s) fun t =>
        t.ax[n].sns = { s.ax[n].sns with crcCnt := 0#16 } ∧ ∀ m : AxisId, m ≠ n → t.ax[m] = s.ax[m])) ∧
    (∀ who o, s.canRead who = true → isPairLo o = true → o % 4 = 0 → answers (exec (.pairLoRead who o) s) fun t =>
      t.readData = s.readValue (reqIdx who) o ∧ t.latched (reqIdx who) o = s.regRead (o + 4) ∧
      (∀ r lo, (r ≠ reqIdx who ∨ lo ≠ o) → t.latched r lo = s.latched r lo) ∧ t.out = s.out ∧ t.sig = s.sig) ∧
    (∀ who o, s.canRead who = false → exec (.pairLoRead who o) s = .next s) ∧
    (∀ o be v, s.bar0 = false ∨ be ≠ 0xF#4 ∨ o % 4 ≠ 0 ∨ (regAt o).2 = .none ∨ s.unitOn (regAt o).1 = false → exec (.registerWrite o be v) s = .next s) ∧
    (s.bar0 = true → ∀ v,
      exec (.registerWrite 0x4000 0xF#4 v) s = .next { s with flt := { s.flt with ctrl := v &&& 0x7#32 } } ∧
      (∀ k < 48, answers (exec (.registerWrite (0x4100 + 4 * k) 0xF#4 v) s) fun t =>
        (∀ i < 1536, t.flt.sticky.getLsbD i = (s.flt.sticky.getLsbD i && !(decide (i / 32 = k) && bit v (i % 32)))) ∧ t.flt.raised = s.flt.raised ∧ t.ax = s.ax) ∧
      exec (.registerWrite 0x3000 0xF#4 v) s = .next { s with rst := s.rst &&& ~~~ v.setWidth 6 } ∧
      (∀ b : BankId, s.bankOn b = true →
        (bit v 0 = false → answers (exec (.registerWrite (0x60000 + 0x1000 * b.val) 0xF#4 v) s) fun t => t.bank[b].allow = false ∧ t.bank[b].gateEn = false) ∧
        (bit v 0 = true → s.flt.bankOut.getLsbD b.val = true → exec (.registerWrite (0x60000 + 0x1000 * b.val) 0xF#4 v) s = .next s) ∧
        (bit v 0 = true → s.flt.bankOut.getLsbD b.val = false → answers (exec (.registerWrite (0x60000 + 0x1000 * b.val) 0xF#4 v) s) fun t =>
          t.bank[b].allow = true)) ∧
      (∀ n : AxisId, s.axOn n = true → let at_ (r : Nat) : Nat := 0x80000 + 0x2000 * n.val + r
        (s.inHold n = false → ∀ r ∈ [0x000, 0x004, 0x008, 0x00C, 0x010, 0x014, 0x018, 0x01C, 0x020, 0x024], answers (exec (.registerWrite (at_ r) 0xF#4 v) s) fun t =>
          t.ax[n].pwm = { s.ax[n].pwm with sticky := s.ax[n].pwm.sticky ||| 0x10000000#32 } ∧ SameButAxis n s t) ∧
        (s.inHold n = true → 500 ≤ bits v 15 0 → answers (exec (.registerWrite (at_ 0x004) 0xF#4 v) s) fun t =>
          t.ax[n].pwm = (let w := s.ax[n].pwm.capture s.cref; { w with shadow := { w.shadow with per := v.setWidth 16 } }) ∧ SameButAxis n s t) ∧
        (answers (exec (.registerWrite (at_ 0xC24) 0xF#4 v) s) fun t => t.ax[n].fbk = { s.ax[n].fbk with presetHi := v } ∧ SameButAxis n s t) ∧
        (answers (exec (.registerWrite (at_ 0x1000) 0xF#4 v) s) fun t => t.ax[n].clu = { s.ax[n].clu with ctrl := v &&& 0xB#32 } ∧ SameButAxis n s t)) ∧
      (s.variant.tally = true → (s.tly.lock = true → exec (.registerWrite 0x50000 0xF#4 v) s = .next s) ∧
        (s.tly.lock = false → exec (.registerWrite 0x50000 0xF#4 v) s = .next { s with tly := { s.tly with cfg := v &&& 0xFFFB#32, rulePending := true } })))

/-! Three rules stated whole. -/

/-- 00 R3: writes to the registers of an absent unit are ignored and complete normally; reads of them return 0. -/
def Obligations.AbsentUnitRegistersAreSilent : Prop :=
  ∀ s : State,
    (∀ o, s.unitPresent (regAt o).1 = false → (∀ be v, exec (.registerWrite o be v) s = .next s) ∧
      (∀ be, s.canRead .host = true → answers (exec (.readClear o be) s) fun t => t.readData = 0#32) ∧
      (∀ who, s.canRead who = true → answers (exec (.pairLoRead who o) s) fun t => t.readData = 0#32)) ∧
    (∀ c : CanId, s.hasCan c = false → ∀ v, exec (.canEnable c v) s = .next s ∧ exec (.canRecover c) s = .next s ∧ exec (.canRxRpWrite c v) s = .next s) ∧
    (∀ b : BankId, s.hasBank b = false → exec (.gdrLockSet b) s = .next s) ∧ (∀ n : AxisId, s.hasAxis n = false → exec (.cmpLockSet n) s = .next s) ∧
    (s.variant.tally = false → exec .tlyLockSet s = .next s)

/-- 11 R339: a host write of a telemetry read pointer that would make WP − RP negative or greater than RING_SIZE is ignored and sets RP_BAD; any other is
taken. -/
def Obligations.TelemetryReadPointerIsGuarded : Prop :=
  ∀ (s : State) (i : Fin 32) (v : Word), s.bar0 = true → s.sysOn 76 = true → ∀ c, c = Instr.telRpWrite i v ∨ c = Instr.registerWrite (0x18104 + 16 * i.val) 0xF#4 v →
    (s.hst.tel[i].ringSize < (s.hst.tel[i].wp - v).toNat → answers (exec c s) fun t => t.hst.rpBad.getLsbD i.val = true ∧
      (∀ k : Fin 32, k ≠ i → t.hst.rpBad.getLsbD k.val = s.hst.rpBad.getLsbD k.val) ∧ t = { s with hst := { s.hst with rpBad := t.hst.rpBad } }) ∧
    ((s.hst.tel[i].wp - v).toNat ≤ s.hst.tel[i].ringSize → exec c s = .next { s with hst := { s.hst with tel := s.hst.tel.set i { s.hst.tel[i] with rp := v } } })

/-- 21 R535: bit i of DEV_AXES_LO is axis i and bit i of DEV_AXES_HI axis 32 + i; both only read, and each gives its constant value whichever has been
read. -/
def Obligations.PresentAxesReadAsConstants : Prop :=
  ∀ s : State,
    (∀ r : Fin 3, ∀ i : Fin 32, (s.readValue r 0x8).getLsbD i.val = s.hasAxis ⟨i.val, by omega⟩ ∧ (s.readValue r 0xC).getLsbD i.val = s.hasAxis ⟨32 + i.val, by omega⟩) ∧
    (∀ who o, s.canRead who = true → o = 0x8 ∨ o = 0xC → exec (.pairLoRead who o) s = .next { s with readData := s.regRead o }) ∧
    (∀ be v, exec (.registerWrite 0x8 be v) s = .next s ∧ exec (.registerWrite 0xC be v) s = .next s)

/-! Reset (21). -/

/-- 21 R538, R536: with every domain on, the registers read the reset words of the table, the same for the first and the last of each kind of unit.
Of the words that follow their hardware at once (CLK_STATUS, PWR_STATE, GDR_STATUS and the like) none is listed. -/
def Obligations.ResetWordsAreTheTables : Prop :=
  let s := { State.reset with pwr := { State.reset.pwr with mode := .active, pdOn := BitVec.allOnes 80 } }
  (∀ e ∈ ([(0x0000, 0x64110100), (0x0004, 0x00FFFC40), (0x0008, 0xFFFFFFFF), (0x000C, 0xFFFFFFFF),
      (0x2040, 0x00000010), (0x2050, 0x6E641E02), (0x2054, 0x00005A32), (0x2800, 0x0000FFFF), (0x2900, 0x00000015), (0x2904, 0x0E100D20), (0x2908, 0x14140064),
      (0x4000, 0x00000003), (0x4040, 0x0000FFFF), (0x405C, 0x0000FFFF), (0x4100, 0x00000000), (0x4400, 0x11111111), (0x4404, 0x01110111), (0x5000, 0x00000000),
      (0x502C, 0x0004200A), (0x5FF0, 0x00037258)] : List (Nat × Word)), s.regRead e.1 = e.2) ∧
  (∀ e ∈ ([(0x8008, 0x20000004), (0x87E8, 0x20000004), (0x8808, 0x00000004), (0x89E8, 0x00000004), (0x8C04, 0x00000032), (0x20000, 0x00000002), (0x23000, 0x00000002),
      (0x20004, 0x1E003E0F), (0x20008, 0x0000330A), (0x2001C, 0x40000600), (0x20028, 0x00000004), (0x20104, 0x1FFFFFFF), (0x231FC, 0x1FFFFFFF),
      (0x28000, 0x00140000), (0x28004, 0x00000010), (0x28008, 0x000A0000), (0x28030, 0x00000028), (0x28064, 0x00000028)] : List (Nat × Word)), s.regRead e.1 = e.2) ∧
  (∀ e ∈ ([(0x30000, 0x00000007), (0x31010, 0x00130014), (0x3801C, 0x00130014), (0x4000C, 0x00010001), (0x48000, 0x00000003), (0x50000, 0x00000802), (0x50004, 0x00000025),
      (0x58000, 0x00040000), (0x5807C, 0x00040000), (0x58080, 0x00000000), (0x58094, 0x00000010), (0x6000C, 0x0A0A6400), (0x6700C, 0x0A0A6400), (0x60024, 0x0C800CE4),
      (0x67000, 0x00000000)] : List (Nat × Word)), s.regRead e.1 = e.2) ∧
  (∀ n ∈ ([0, 63] : List Nat), ∀ e ∈ ([(0x000, 0x00000111), (0x004, 0x00000FA0), (0x008, 0x001FFFFF), (0x010, 0x001FFFFF), (0x014, 0x05000500), (0x01C, 0x05000500),
      (0x020, 0x00000000), (0x02C, 0x00003C08), (0x030, 0x0008141E), (0x034, 0x00001408), (0x03C, 0x00000100), (0x400, 0x00000002), (0x404, 0x0A0A1212), (0x408, 0x00000005),
      (0x410, 0x00002000), (0x800, 0x00000819), (0x804, 0x0000FFFF), (0x80C, 0x0000FFFF), (0x824, 0x00000000), (0xC00, 0x00000000), (0xC04, 0x00140404),
      (0xC08, 0x00001000), (0xC0C, 0x04000000), (0xC10, 0x031400C7), (0xC14, 0x000D008D), (0xC18, 0x00000A04), (0x1000, 0x00000000), (0x10FC, 0x00000000)] : List (Nat × Word)),
    s.regRead (0x80000 + 0x2000 * n + e.1) = e.2)
end

