-- ==== Sys2Proof/Laws/State.lean ====
section
/-! SUPPORT. What each named update of the state writes and what it leaves, one lemma for each field of State, and
the laws of the updates of one axis, bank, controller or engine. -/

namespace Sys2Proof.Machine

variable (s : State)

/-! modAx writes ax alone. -/
@[simp] theorem State.modAx_variant (n : AxisId) (f : Axis → Axis) : (s.modAx n f).variant = s.variant := rfl
@[simp] theorem State.modAx_cref (n : AxisId) (f : Axis → Axis) : (s.modAx n f).cref = s.cref := rfl
@[simp] theorem State.modAx_clk (n : AxisId) (f : Axis → Axis) : (s.modAx n f).clk = s.clk := rfl
@[simp] theorem State.modAx_pwr (n : AxisId) (f : Axis → Axis) : (s.modAx n f).pwr = s.pwr := rfl
@[simp] theorem State.modAx_sup (n : AxisId) (f : Axis → Axis) : (s.modAx n f).sup = s.sup := rfl
@[simp] theorem State.modAx_rst (n : AxisId) (f : Axis → Axis) : (s.modAx n f).rst = s.rst := rfl
@[simp] theorem State.modAx_flt (n : AxisId) (f : Axis → Axis) : (s.modAx n f).flt = s.flt := rfl
@[simp] theorem State.modAx_hst (n : AxisId) (f : Axis → Axis) : (s.modAx n f).hst = s.hst := rfl
@[simp] theorem State.modAx_seam (n : AxisId) (f : Axis → Axis) : (s.modAx n f).seam = s.seam := rfl
@[simp] theorem State.modAx_can (n : AxisId) (f : Axis → Axis) : (s.modAx n f).can = s.can := rfl
@[simp] theorem State.modAx_alm (n : AxisId) (f : Axis → Axis) : (s.modAx n f).alm = s.alm := rfl
@[simp] theorem State.modAx_ser (n : AxisId) (f : Axis → Axis) : (s.modAx n f).ser = s.ser := rfl
@[simp] theorem State.modAx_sec (n : AxisId) (f : Axis → Axis) : (s.modAx n f).sec = s.sec := rfl
@[simp] theorem State.modAx_img (n : AxisId) (f : Axis → Axis) : (s.modAx n f).img = s.img := rfl
@[simp] theorem State.modAx_tly (n : AxisId) (f : Axis → Axis) : (s.modAx n f).tly = s.tly := rfl
@[simp] theorem State.modAx_gov (n : AxisId) (f : Axis → Axis) : (s.modAx n f).gov = s.gov := rfl
@[simp] theorem State.modAx_bank (n : AxisId) (f : Axis → Axis) : (s.modAx n f).bank = s.bank := rfl
@[simp] theorem State.modAx_ax (n : AxisId) (f : Axis → Axis) : (s.modAx n f).ax = s.ax.set n (f s.ax[n]) := rfl
@[simp] theorem State.modAx_sig (n : AxisId) (f : Axis → Axis) : (s.modAx n f).sig = s.sig := rfl
@[simp] theorem State.modAx_posts (n : AxisId) (f : Axis → Axis) : (s.modAx n f).posts = s.posts := rfl
@[simp] theorem State.modAx_fits (n : AxisId) (f : Axis → Axis) : (s.modAx n f).fits = s.fits := rfl
@[simp] theorem State.modAx_ntcCfg (n : AxisId) (f : Axis → Axis) : (s.modAx n f).ntcCfg = s.ntcCfg := rfl
@[simp] theorem State.modAx_ntc (n : AxisId) (f : Axis → Axis) : (s.modAx n f).ntc = s.ntc := rfl
@[simp] theorem State.modAx_hiLatch (n : AxisId) (f : Axis → Axis) : (s.modAx n f).hiLatch = s.hiLatch := rfl
@[simp] theorem State.modAx_readData (n : AxisId) (f : Axis → Axis) : (s.modAx n f).readData = s.readData := rfl
@[simp] theorem State.modAx_out (n : AxisId) (f : Axis → Axis) : (s.modAx n f).out = s.out := rfl
@[simp] theorem State.modAx_freeCtr (n : AxisId) (f : Axis → Axis) : (s.modAx n f).freeCtr = s.freeCtr := rfl
@[simp] theorem State.modAx_pending (n : AxisId) (f : Axis → Axis) : (s.modAx n f).pending = s.pending := rfl

/-! modGdr writes ax alone. -/
@[simp] theorem State.modGdr_variant (n : AxisId) (f : Gdr → Gdr) : (s.modGdr n f).variant = s.variant := rfl
@[simp] theorem State.modGdr_cref (n : AxisId) (f : Gdr → Gdr) : (s.modGdr n f).cref = s.cref := rfl
@[simp] theorem State.modGdr_clk (n : AxisId) (f : Gdr → Gdr) : (s.modGdr n f).clk = s.clk := rfl
@[simp] theorem State.modGdr_pwr (n : AxisId) (f : Gdr → Gdr) : (s.modGdr n f).pwr = s.pwr := rfl
@[simp] theorem State.modGdr_sup (n : AxisId) (f : Gdr → Gdr) : (s.modGdr n f).sup = s.sup := rfl
@[simp] theorem State.modGdr_rst (n : AxisId) (f : Gdr → Gdr) : (s.modGdr n f).rst = s.rst := rfl
@[simp] theorem State.modGdr_flt (n : AxisId) (f : Gdr → Gdr) : (s.modGdr n f).flt = s.flt := rfl
@[simp] theorem State.modGdr_hst (n : AxisId) (f : Gdr → Gdr) : (s.modGdr n f).hst = s.hst := rfl
@[simp] theorem State.modGdr_seam (n : AxisId) (f : Gdr → Gdr) : (s.modGdr n f).seam = s.seam := rfl
@[simp] theorem State.modGdr_can (n : AxisId) (f : Gdr → Gdr) : (s.modGdr n f).can = s.can := rfl
@[simp] theorem State.modGdr_alm (n : AxisId) (f : Gdr → Gdr) : (s.modGdr n f).alm = s.alm := rfl
@[simp] theorem State.modGdr_ser (n : AxisId) (f : Gdr → Gdr) : (s.modGdr n f).ser = s.ser := rfl
@[simp] theorem State.modGdr_sec (n : AxisId) (f : Gdr → Gdr) : (s.modGdr n f).sec = s.sec := rfl
@[simp] theorem State.modGdr_img (n : AxisId) (f : Gdr → Gdr) : (s.modGdr n f).img = s.img := rfl
@[simp] theorem State.modGdr_tly (n : AxisId) (f : Gdr → Gdr) : (s.modGdr n f).tly = s.tly := rfl
@[simp] theorem State.modGdr_gov (n : AxisId) (f : Gdr → Gdr) : (s.modGdr n f).gov = s.gov := rfl
@[simp] theorem State.modGdr_bank (n : AxisId) (f : Gdr → Gdr) : (s.modGdr n f).bank = s.bank := rfl
@[simp] theorem State.modGdr_sig (n : AxisId) (f : Gdr → Gdr) : (s.modGdr n f).sig = s.sig := rfl
@[simp] theorem State.modGdr_posts (n : AxisId) (f : Gdr → Gdr) : (s.modGdr n f).posts = s.posts := rfl
@[simp] theorem State.modGdr_fits (n : AxisId) (f : Gdr → Gdr) : (s.modGdr n f).fits = s.fits := rfl
@[simp] theorem State.modGdr_ntcCfg (n : AxisId) (f : Gdr → Gdr) : (s.modGdr n f).ntcCfg = s.ntcCfg := rfl
@[simp] theorem State.modGdr_ntc (n : AxisId) (f : Gdr → Gdr) : (s.modGdr n f).ntc = s.ntc := rfl
@[simp] theorem State.modGdr_hiLatch (n : AxisId) (f : Gdr → Gdr) : (s.modGdr n f).hiLatch = s.hiLatch := rfl
@[simp] theorem State.modGdr_readData (n : AxisId) (f : Gdr → Gdr) : (s.modGdr n f).readData = s.readData := rfl
@[simp] theorem State.modGdr_out (n : AxisId) (f : Gdr → Gdr) : (s.modGdr n f).out = s.out := rfl
@[simp] theorem State.modGdr_freeCtr (n : AxisId) (f : Gdr → Gdr) : (s.modGdr n f).freeCtr = s.freeCtr := rfl
@[simp] theorem State.modGdr_pending (n : AxisId) (f : Gdr → Gdr) : (s.modGdr n f).pending = s.pending := rfl

/-! modSns writes ax alone. -/
@[simp] theorem State.modSns_variant (n : AxisId) (f : Sns → Sns) : (s.modSns n f).variant = s.variant := rfl
@[simp] theorem State.modSns_cref (n : AxisId) (f : Sns → Sns) : (s.modSns n f).cref = s.cref := rfl
@[simp] theorem State.modSns_clk (n : AxisId) (f : Sns → Sns) : (s.modSns n f).clk = s.clk := rfl
@[simp] theorem State.modSns_pwr (n : AxisId) (f : Sns → Sns) : (s.modSns n f).pwr = s.pwr := rfl
@[simp] theorem State.modSns_sup (n : AxisId) (f : Sns → Sns) : (s.modSns n f).sup = s.sup := rfl
@[simp] theorem State.modSns_rst (n : AxisId) (f : Sns → Sns) : (s.modSns n f).rst = s.rst := rfl
@[simp] theorem State.modSns_flt (n : AxisId) (f : Sns → Sns) : (s.modSns n f).flt = s.flt := rfl
@[simp] theorem State.modSns_hst (n : AxisId) (f : Sns → Sns) : (s.modSns n f).hst = s.hst := rfl
@[simp] theorem State.modSns_seam (n : AxisId) (f : Sns → Sns) : (s.modSns n f).seam = s.seam := rfl
@[simp] theorem State.modSns_can (n : AxisId) (f : Sns → Sns) : (s.modSns n f).can = s.can := rfl
@[simp] theorem State.modSns_alm (n : AxisId) (f : Sns → Sns) : (s.modSns n f).alm = s.alm := rfl
@[simp] theorem State.modSns_ser (n : AxisId) (f : Sns → Sns) : (s.modSns n f).ser = s.ser := rfl
@[simp] theorem State.modSns_sec (n : AxisId) (f : Sns → Sns) : (s.modSns n f).sec = s.sec := rfl
@[simp] theorem State.modSns_img (n : AxisId) (f : Sns → Sns) : (s.modSns n f).img = s.img := rfl
@[simp] theorem State.modSns_tly (n : AxisId) (f : Sns → Sns) : (s.modSns n f).tly = s.tly := rfl
@[simp] theorem State.modSns_gov (n : AxisId) (f : Sns → Sns) : (s.modSns n f).gov = s.gov := rfl
@[simp] theorem State.modSns_bank (n : AxisId) (f : Sns → Sns) : (s.modSns n f).bank = s.bank := rfl
@[simp] theorem State.modSns_sig (n : AxisId) (f : Sns → Sns) : (s.modSns n f).sig = s.sig := rfl
@[simp] theorem State.modSns_posts (n : AxisId) (f : Sns → Sns) : (s.modSns n f).posts = s.posts := rfl
@[simp] theorem State.modSns_fits (n : AxisId) (f : Sns → Sns) : (s.modSns n f).fits = s.fits := rfl
@[simp] theorem State.modSns_ntcCfg (n : AxisId) (f : Sns → Sns) : (s.modSns n f).ntcCfg = s.ntcCfg := rfl
@[simp] theorem State.modSns_ntc (n : AxisId) (f : Sns → Sns) : (s.modSns n f).ntc = s.ntc := rfl
@[simp] theorem State.modSns_hiLatch (n : AxisId) (f : Sns → Sns) : (s.modSns n f).hiLatch = s.hiLatch := rfl
@[simp] theorem State.modSns_readData (n : AxisId) (f : Sns → Sns) : (s.modSns n f).readData = s.readData := rfl
@[simp] theorem State.modSns_out (n : AxisId) (f : Sns → Sns) : (s.modSns n f).out = s.out := rfl
@[simp] theorem State.modSns_freeCtr (n : AxisId) (f : Sns → Sns) : (s.modSns n f).freeCtr = s.freeCtr := rfl
@[simp] theorem State.modSns_pending (n : AxisId) (f : Sns → Sns) : (s.modSns n f).pending = s.pending := rfl

/-! modPwm writes ax alone. -/
@[simp] theorem State.modPwm_variant (n : AxisId) (f : Pwm → Pwm) : (s.modPwm n f).variant = s.variant := rfl
@[simp] theorem State.modPwm_cref (n : AxisId) (f : Pwm → Pwm) : (s.modPwm n f).cref = s.cref := rfl
@[simp] theorem State.modPwm_clk (n : AxisId) (f : Pwm → Pwm) : (s.modPwm n f).clk = s.clk := rfl
@[simp] theorem State.modPwm_pwr (n : AxisId) (f : Pwm → Pwm) : (s.modPwm n f).pwr = s.pwr := rfl
@[simp] theorem State.modPwm_sup (n : AxisId) (f : Pwm → Pwm) : (s.modPwm n f).sup = s.sup := rfl
@[simp] theorem State.modPwm_rst (n : AxisId) (f : Pwm → Pwm) : (s.modPwm n f).rst = s.rst := rfl
@[simp] theorem State.modPwm_flt (n : AxisId) (f : Pwm → Pwm) : (s.modPwm n f).flt = s.flt := rfl
@[simp] theorem State.modPwm_hst (n : AxisId) (f : Pwm → Pwm) : (s.modPwm n f).hst = s.hst := rfl
@[simp] theorem State.modPwm_seam (n : AxisId) (f : Pwm → Pwm) : (s.modPwm n f).seam = s.seam := rfl
@[simp] theorem State.modPwm_can (n : AxisId) (f : Pwm → Pwm) : (s.modPwm n f).can = s.can := rfl
@[simp] theorem State.modPwm_alm (n : AxisId) (f : Pwm → Pwm) : (s.modPwm n f).alm = s.alm := rfl
@[simp] theorem State.modPwm_ser (n : AxisId) (f : Pwm → Pwm) : (s.modPwm n f).ser = s.ser := rfl
@[simp] theorem State.modPwm_sec (n : AxisId) (f : Pwm → Pwm) : (s.modPwm n f).sec = s.sec := rfl
@[simp] theorem State.modPwm_img (n : AxisId) (f : Pwm → Pwm) : (s.modPwm n f).img = s.img := rfl
@[simp] theorem State.modPwm_tly (n : AxisId) (f : Pwm → Pwm) : (s.modPwm n f).tly = s.tly := rfl
@[simp] theorem State.modPwm_gov (n : AxisId) (f : Pwm → Pwm) : (s.modPwm n f).gov = s.gov := rfl
@[simp] theorem State.modPwm_bank (n : AxisId) (f : Pwm → Pwm) : (s.modPwm n f).bank = s.bank := rfl
@[simp] theorem State.modPwm_sig (n : AxisId) (f : Pwm → Pwm) : (s.modPwm n f).sig = s.sig := rfl
@[simp] theorem State.modPwm_posts (n : AxisId) (f : Pwm → Pwm) : (s.modPwm n f).posts = s.posts := rfl
@[simp] theorem State.modPwm_fits (n : AxisId) (f : Pwm → Pwm) : (s.modPwm n f).fits = s.fits := rfl
@[simp] theorem State.modPwm_ntcCfg (n : AxisId) (f : Pwm → Pwm) : (s.modPwm n f).ntcCfg = s.ntcCfg := rfl
@[simp] theorem State.modPwm_ntc (n : AxisId) (f : Pwm → Pwm) : (s.modPwm n f).ntc = s.ntc := rfl
@[simp] theorem State.modPwm_hiLatch (n : AxisId) (f : Pwm → Pwm) : (s.modPwm n f).hiLatch = s.hiLatch := rfl
@[simp] theorem State.modPwm_readData (n : AxisId) (f : Pwm → Pwm) : (s.modPwm n f).readData = s.readData := rfl
@[simp] theorem State.modPwm_out (n : AxisId) (f : Pwm → Pwm) : (s.modPwm n f).out = s.out := rfl
@[simp] theorem State.modPwm_freeCtr (n : AxisId) (f : Pwm → Pwm) : (s.modPwm n f).freeCtr = s.freeCtr := rfl
@[simp] theorem State.modPwm_pending (n : AxisId) (f : Pwm → Pwm) : (s.modPwm n f).pending = s.pending := rfl

/-! modFbk writes ax alone. -/
@[simp] theorem State.modFbk_variant (n : AxisId) (f : Fbk → Fbk) : (s.modFbk n f).variant = s.variant := rfl
@[simp] theorem State.modFbk_cref (n : AxisId) (f : Fbk → Fbk) : (s.modFbk n f).cref = s.cref := rfl
@[simp] theorem State.modFbk_clk (n : AxisId) (f : Fbk → Fbk) : (s.modFbk n f).clk = s.clk := rfl
@[simp] theorem State.modFbk_pwr (n : AxisId) (f : Fbk → Fbk) : (s.modFbk n f).pwr = s.pwr := rfl
@[simp] theorem State.modFbk_sup (n : AxisId) (f : Fbk → Fbk) : (s.modFbk n f).sup = s.sup := rfl
@[simp] theorem State.modFbk_rst (n : AxisId) (f : Fbk → Fbk) : (s.modFbk n f).rst = s.rst := rfl
@[simp] theorem State.modFbk_flt (n : AxisId) (f : Fbk → Fbk) : (s.modFbk n f).flt = s.flt := rfl
@[simp] theorem State.modFbk_hst (n : AxisId) (f : Fbk → Fbk) : (s.modFbk n f).hst = s.hst := rfl
@[simp] theorem State.modFbk_seam (n : AxisId) (f : Fbk → Fbk) : (s.modFbk n f).seam = s.seam := rfl
@[simp] theorem State.modFbk_can (n : AxisId) (f : Fbk → Fbk) : (s.modFbk n f).can = s.can := rfl
@[simp] theorem State.modFbk_alm (n : AxisId) (f : Fbk → Fbk) : (s.modFbk n f).alm = s.alm := rfl
@[simp] theorem State.modFbk_ser (n : AxisId) (f : Fbk → Fbk) : (s.modFbk n f).ser = s.ser := rfl
@[simp] theorem State.modFbk_sec (n : AxisId) (f : Fbk → Fbk) : (s.modFbk n f).sec = s.sec := rfl
@[simp] theorem State.modFbk_img (n : AxisId) (f : Fbk → Fbk) : (s.modFbk n f).img = s.img := rfl
@[simp] theorem State.modFbk_tly (n : AxisId) (f : Fbk → Fbk) : (s.modFbk n f).tly = s.tly := rfl
@[simp] theorem State.modFbk_gov (n : AxisId) (f : Fbk → Fbk) : (s.modFbk n f).gov = s.gov := rfl
@[simp] theorem State.modFbk_bank (n : AxisId) (f : Fbk → Fbk) : (s.modFbk n f).bank = s.bank := rfl
@[simp] theorem State.modFbk_sig (n : AxisId) (f : Fbk → Fbk) : (s.modFbk n f).sig = s.sig := rfl
@[simp] theorem State.modFbk_posts (n : AxisId) (f : Fbk → Fbk) : (s.modFbk n f).posts = s.posts := rfl
@[simp] theorem State.modFbk_fits (n : AxisId) (f : Fbk → Fbk) : (s.modFbk n f).fits = s.fits := rfl
@[simp] theorem State.modFbk_ntcCfg (n : AxisId) (f : Fbk → Fbk) : (s.modFbk n f).ntcCfg = s.ntcCfg := rfl
@[simp] theorem State.modFbk_ntc (n : AxisId) (f : Fbk → Fbk) : (s.modFbk n f).ntc = s.ntc := rfl
@[simp] theorem State.modFbk_hiLatch (n : AxisId) (f : Fbk → Fbk) : (s.modFbk n f).hiLatch = s.hiLatch := rfl
@[simp] theorem State.modFbk_readData (n : AxisId) (f : Fbk → Fbk) : (s.modFbk n f).readData = s.readData := rfl
@[simp] theorem State.modFbk_out (n : AxisId) (f : Fbk → Fbk) : (s.modFbk n f).out = s.out := rfl
@[simp] theorem State.modFbk_freeCtr (n : AxisId) (f : Fbk → Fbk) : (s.modFbk n f).freeCtr = s.freeCtr := rfl
@[simp] theorem State.modFbk_pending (n : AxisId) (f : Fbk → Fbk) : (s.modFbk n f).pending = s.pending := rfl

/-! modCh writes ax alone. -/
@[simp] theorem State.modCh_variant (n : AxisId) (f : Chain → Chain) : (s.modCh n f).variant = s.variant := rfl
@[simp] theorem State.modCh_cref (n : AxisId) (f : Chain → Chain) : (s.modCh n f).cref = s.cref := rfl
@[simp] theorem State.modCh_clk (n : AxisId) (f : Chain → Chain) : (s.modCh n f).clk = s.clk := rfl
@[simp] theorem State.modCh_pwr (n : AxisId) (f : Chain → Chain) : (s.modCh n f).pwr = s.pwr := rfl
@[simp] theorem State.modCh_sup (n : AxisId) (f : Chain → Chain) : (s.modCh n f).sup = s.sup := rfl
@[simp] theorem State.modCh_rst (n : AxisId) (f : Chain → Chain) : (s.modCh n f).rst = s.rst := rfl
@[simp] theorem State.modCh_flt (n : AxisId) (f : Chain → Chain) : (s.modCh n f).flt = s.flt := rfl
@[simp] theorem State.modCh_hst (n : AxisId) (f : Chain → Chain) : (s.modCh n f).hst = s.hst := rfl
@[simp] theorem State.modCh_seam (n : AxisId) (f : Chain → Chain) : (s.modCh n f).seam = s.seam := rfl
@[simp] theorem State.modCh_can (n : AxisId) (f : Chain → Chain) : (s.modCh n f).can = s.can := rfl
@[simp] theorem State.modCh_alm (n : AxisId) (f : Chain → Chain) : (s.modCh n f).alm = s.alm := rfl
@[simp] theorem State.modCh_ser (n : AxisId) (f : Chain → Chain) : (s.modCh n f).ser = s.ser := rfl
@[simp] theorem State.modCh_sec (n : AxisId) (f : Chain → Chain) : (s.modCh n f).sec = s.sec := rfl
@[simp] theorem State.modCh_img (n : AxisId) (f : Chain → Chain) : (s.modCh n f).img = s.img := rfl
@[simp] theorem State.modCh_tly (n : AxisId) (f : Chain → Chain) : (s.modCh n f).tly = s.tly := rfl
@[simp] theorem State.modCh_gov (n : AxisId) (f : Chain → Chain) : (s.modCh n f).gov = s.gov := rfl
@[simp] theorem State.modCh_bank (n : AxisId) (f : Chain → Chain) : (s.modCh n f).bank = s.bank := rfl
@[simp] theorem State.modCh_sig (n : AxisId) (f : Chain → Chain) : (s.modCh n f).sig = s.sig := rfl
@[simp] theorem State.modCh_posts (n : AxisId) (f : Chain → Chain) : (s.modCh n f).posts = s.posts := rfl
@[simp] theorem State.modCh_fits (n : AxisId) (f : Chain → Chain) : (s.modCh n f).fits = s.fits := rfl
@[simp] theorem State.modCh_ntcCfg (n : AxisId) (f : Chain → Chain) : (s.modCh n f).ntcCfg = s.ntcCfg := rfl
@[simp] theorem State.modCh_ntc (n : AxisId) (f : Chain → Chain) : (s.modCh n f).ntc = s.ntc := rfl
@[simp] theorem State.modCh_hiLatch (n : AxisId) (f : Chain → Chain) : (s.modCh n f).hiLatch = s.hiLatch := rfl
@[simp] theorem State.modCh_readData (n : AxisId) (f : Chain → Chain) : (s.modCh n f).readData = s.readData := rfl
@[simp] theorem State.modCh_out (n : AxisId) (f : Chain → Chain) : (s.modCh n f).out = s.out := rfl
@[simp] theorem State.modCh_freeCtr (n : AxisId) (f : Chain → Chain) : (s.modCh n f).freeCtr = s.freeCtr := rfl
@[simp] theorem State.modCh_pending (n : AxisId) (f : Chain → Chain) : (s.modCh n f).pending = s.pending := rfl

/-! modClu writes ax alone. -/
@[simp] theorem State.modClu_variant (n : AxisId) (f : Clu → Clu) : (s.modClu n f).variant = s.variant := rfl
@[simp] theorem State.modClu_cref (n : AxisId) (f : Clu → Clu) : (s.modClu n f).cref = s.cref := rfl
@[simp] theorem State.modClu_clk (n : AxisId) (f : Clu → Clu) : (s.modClu n f).clk = s.clk := rfl
@[simp] theorem State.modClu_pwr (n : AxisId) (f : Clu → Clu) : (s.modClu n f).pwr = s.pwr := rfl
@[simp] theorem State.modClu_sup (n : AxisId) (f : Clu → Clu) : (s.modClu n f).sup = s.sup := rfl
@[simp] theorem State.modClu_rst (n : AxisId) (f : Clu → Clu) : (s.modClu n f).rst = s.rst := rfl
@[simp] theorem State.modClu_flt (n : AxisId) (f : Clu → Clu) : (s.modClu n f).flt = s.flt := rfl
@[simp] theorem State.modClu_hst (n : AxisId) (f : Clu → Clu) : (s.modClu n f).hst = s.hst := rfl
@[simp] theorem State.modClu_seam (n : AxisId) (f : Clu → Clu) : (s.modClu n f).seam = s.seam := rfl
@[simp] theorem State.modClu_can (n : AxisId) (f : Clu → Clu) : (s.modClu n f).can = s.can := rfl
@[simp] theorem State.modClu_alm (n : AxisId) (f : Clu → Clu) : (s.modClu n f).alm = s.alm := rfl
@[simp] theorem State.modClu_ser (n : AxisId) (f : Clu → Clu) : (s.modClu n f).ser = s.ser := rfl
@[simp] theorem State.modClu_sec (n : AxisId) (f : Clu → Clu) : (s.modClu n f).sec = s.sec := rfl
@[simp] theorem State.modClu_img (n : AxisId) (f : Clu → Clu) : (s.modClu n f).img = s.img := rfl
@[simp] theorem State.modClu_tly (n : AxisId) (f : Clu → Clu) : (s.modClu n f).tly = s.tly := rfl
@[simp] theorem State.modClu_gov (n : AxisId) (f : Clu → Clu) : (s.modClu n f).gov = s.gov := rfl
@[simp] theorem State.modClu_bank (n : AxisId) (f : Clu → Clu) : (s.modClu n f).bank = s.bank := rfl
@[simp] theorem State.modClu_sig (n : AxisId) (f : Clu → Clu) : (s.modClu n f).sig = s.sig := rfl
@[simp] theorem State.modClu_posts (n : AxisId) (f : Clu → Clu) : (s.modClu n f).posts = s.posts := rfl
@[simp] theorem State.modClu_fits (n : AxisId) (f : Clu → Clu) : (s.modClu n f).fits = s.fits := rfl
@[simp] theorem State.modClu_ntcCfg (n : AxisId) (f : Clu → Clu) : (s.modClu n f).ntcCfg = s.ntcCfg := rfl
@[simp] theorem State.modClu_ntc (n : AxisId) (f : Clu → Clu) : (s.modClu n f).ntc = s.ntc := rfl
@[simp] theorem State.modClu_hiLatch (n : AxisId) (f : Clu → Clu) : (s.modClu n f).hiLatch = s.hiLatch := rfl
@[simp] theorem State.modClu_readData (n : AxisId) (f : Clu → Clu) : (s.modClu n f).readData = s.readData := rfl
@[simp] theorem State.modClu_out (n : AxisId) (f : Clu → Clu) : (s.modClu n f).out = s.out := rfl
@[simp] theorem State.modClu_freeCtr (n : AxisId) (f : Clu → Clu) : (s.modClu n f).freeCtr = s.freeCtr := rfl
@[simp] theorem State.modClu_pending (n : AxisId) (f : Clu → Clu) : (s.modClu n f).pending = s.pending := rfl

/-! modEng writes ax alone. -/
@[simp] theorem State.modEng_variant (n : AxisId) (j : EngId) (f : Eng → Eng) : (s.modEng n j f).variant = s.variant := rfl
@[simp] theorem State.modEng_cref (n : AxisId) (j : EngId) (f : Eng → Eng) : (s.modEng n j f).cref = s.cref := rfl
@[simp] theorem State.modEng_clk (n : AxisId) (j : EngId) (f : Eng → Eng) : (s.modEng n j f).clk = s.clk := rfl
@[simp] theorem State.modEng_pwr (n : AxisId) (j : EngId) (f : Eng → Eng) : (s.modEng n j f).pwr = s.pwr := rfl
@[simp] theorem State.modEng_sup (n : AxisId) (j : EngId) (f : Eng → Eng) : (s.modEng n j f).sup = s.sup := rfl
@[simp] theorem State.modEng_rst (n : AxisId) (j : EngId) (f : Eng → Eng) : (s.modEng n j f).rst = s.rst := rfl
@[simp] theorem State.modEng_flt (n : AxisId) (j : EngId) (f : Eng → Eng) : (s.modEng n j f).flt = s.flt := rfl
@[simp] theorem State.modEng_hst (n : AxisId) (j : EngId) (f : Eng → Eng) : (s.modEng n j f).hst = s.hst := rfl
@[simp] theorem State.modEng_seam (n : AxisId) (j : EngId) (f : Eng → Eng) : (s.modEng n j f).seam = s.seam := rfl
@[simp] theorem State.modEng_can (n : AxisId) (j : EngId) (f : Eng → Eng) : (s.modEng n j f).can = s.can := rfl
@[simp] theorem State.modEng_alm (n : AxisId) (j : EngId) (f : Eng → Eng) : (s.modEng n j f).alm = s.alm := rfl
@[simp] theorem State.modEng_ser (n : AxisId) (j : EngId) (f : Eng → Eng) : (s.modEng n j f).ser = s.ser := rfl
@[simp] theorem State.modEng_sec (n : AxisId) (j : EngId) (f : Eng → Eng) : (s.modEng n j f).sec = s.sec := rfl
@[simp] theorem State.modEng_img (n : AxisId) (j : EngId) (f : Eng → Eng) : (s.modEng n j f).img = s.img := rfl
@[simp] theorem State.modEng_tly (n : AxisId) (j : EngId) (f : Eng → Eng) : (s.modEng n j f).tly = s.tly := rfl
@[simp] theorem State.modEng_gov (n : AxisId) (j : EngId) (f : Eng → Eng) : (s.modEng n j f).gov = s.gov := rfl
@[simp] theorem State.modEng_bank (n : AxisId) (j : EngId) (f : Eng → Eng) : (s.modEng n j f).bank = s.bank := rfl
@[simp] theorem State.modEng_sig (n : AxisId) (j : EngId) (f : Eng → Eng) : (s.modEng n j f).sig = s.sig := rfl
@[simp] theorem State.modEng_posts (n : AxisId) (j : EngId) (f : Eng → Eng) : (s.modEng n j f).posts = s.posts := rfl
@[simp] theorem State.modEng_fits (n : AxisId) (j : EngId) (f : Eng → Eng) : (s.modEng n j f).fits = s.fits := rfl
@[simp] theorem State.modEng_ntcCfg (n : AxisId) (j : EngId) (f : Eng → Eng) : (s.modEng n j f).ntcCfg = s.ntcCfg := rfl
@[simp] theorem State.modEng_ntc (n : AxisId) (j : EngId) (f : Eng → Eng) : (s.modEng n j f).ntc = s.ntc := rfl
@[simp] theorem State.modEng_hiLatch (n : AxisId) (j : EngId) (f : Eng → Eng) : (s.modEng n j f).hiLatch = s.hiLatch := rfl
@[simp] theorem State.modEng_readData (n : AxisId) (j : EngId) (f : Eng → Eng) : (s.modEng n j f).readData = s.readData := rfl
@[simp] theorem State.modEng_out (n : AxisId) (j : EngId) (f : Eng → Eng) : (s.modEng n j f).out = s.out := rfl
@[simp] theorem State.modEng_freeCtr (n : AxisId) (j : EngId) (f : Eng → Eng) : (s.modEng n j f).freeCtr = s.freeCtr := rfl
@[simp] theorem State.modEng_pending (n : AxisId) (j : EngId) (f : Eng → Eng) : (s.modEng n j f).pending = s.pending := rfl

/-! modPh writes ax alone. -/
@[simp] theorem State.modPh_variant (n : AxisId) (p : Fin 3) (f : PwmPhase → PwmPhase) : (s.modPh n p f).variant = s.variant := rfl
@[simp] theorem State.modPh_cref (n : AxisId) (p : Fin 3) (f : PwmPhase → PwmPhase) : (s.modPh n p f).cref = s.cref := rfl
@[simp] theorem State.modPh_clk (n : AxisId) (p : Fin 3) (f : PwmPhase → PwmPhase) : (s.modPh n p f).clk = s.clk := rfl
@[simp] theorem State.modPh_pwr (n : AxisId) (p : Fin 3) (f : PwmPhase → PwmPhase) : (s.modPh n p f).pwr = s.pwr := rfl
@[simp] theorem State.modPh_sup (n : AxisId) (p : Fin 3) (f : PwmPhase → PwmPhase) : (s.modPh n p f).sup = s.sup := rfl
@[simp] theorem State.modPh_rst (n : AxisId) (p : Fin 3) (f : PwmPhase → PwmPhase) : (s.modPh n p f).rst = s.rst := rfl
@[simp] theorem State.modPh_flt (n : AxisId) (p : Fin 3) (f : PwmPhase → PwmPhase) : (s.modPh n p f).flt = s.flt := rfl
@[simp] theorem State.modPh_hst (n : AxisId) (p : Fin 3) (f : PwmPhase → PwmPhase) : (s.modPh n p f).hst = s.hst := rfl
@[simp] theorem State.modPh_seam (n : AxisId) (p : Fin 3) (f : PwmPhase → PwmPhase) : (s.modPh n p f).seam = s.seam := rfl
@[simp] theorem State.modPh_can (n : AxisId) (p : Fin 3) (f : PwmPhase → PwmPhase) : (s.modPh n p f).can = s.can := rfl
@[simp] theorem State.modPh_alm (n : AxisId) (p : Fin 3) (f : PwmPhase → PwmPhase) : (s.modPh n p f).alm = s.alm := rfl
@[simp] theorem State.modPh_ser (n : AxisId) (p : Fin 3) (f : PwmPhase → PwmPhase) : (s.modPh n p f).ser = s.ser := rfl
@[simp] theorem State.modPh_sec (n : AxisId) (p : Fin 3) (f : PwmPhase → PwmPhase) : (s.modPh n p f).sec = s.sec := rfl
@[simp] theorem State.modPh_img (n : AxisId) (p : Fin 3) (f : PwmPhase → PwmPhase) : (s.modPh n p f).img = s.img := rfl
@[simp] theorem State.modPh_tly (n : AxisId) (p : Fin 3) (f : PwmPhase → PwmPhase) : (s.modPh n p f).tly = s.tly := rfl
@[simp] theorem State.modPh_gov (n : AxisId) (p : Fin 3) (f : PwmPhase → PwmPhase) : (s.modPh n p f).gov = s.gov := rfl
@[simp] theorem State.modPh_bank (n : AxisId) (p : Fin 3) (f : PwmPhase → PwmPhase) : (s.modPh n p f).bank = s.bank := rfl
@[simp] theorem State.modPh_sig (n : AxisId) (p : Fin 3) (f : PwmPhase → PwmPhase) : (s.modPh n p f).sig = s.sig := rfl
@[simp] theorem State.modPh_posts (n : AxisId) (p : Fin 3) (f : PwmPhase → PwmPhase) : (s.modPh n p f).posts = s.posts := rfl
@[simp] theorem State.modPh_fits (n : AxisId) (p : Fin 3) (f : PwmPhase → PwmPhase) : (s.modPh n p f).fits = s.fits := rfl
@[simp] theorem State.modPh_ntcCfg (n : AxisId) (p : Fin 3) (f : PwmPhase → PwmPhase) : (s.modPh n p f).ntcCfg = s.ntcCfg := rfl
@[simp] theorem State.modPh_ntc (n : AxisId) (p : Fin 3) (f : PwmPhase → PwmPhase) : (s.modPh n p f).ntc = s.ntc := rfl
@[simp] theorem State.modPh_hiLatch (n : AxisId) (p : Fin 3) (f : PwmPhase → PwmPhase) : (s.modPh n p f).hiLatch = s.hiLatch := rfl
@[simp] theorem State.modPh_readData (n : AxisId) (p : Fin 3) (f : PwmPhase → PwmPhase) : (s.modPh n p f).readData = s.readData := rfl
@[simp] theorem State.modPh_out (n : AxisId) (p : Fin 3) (f : PwmPhase → PwmPhase) : (s.modPh n p f).out = s.out := rfl
@[simp] theorem State.modPh_freeCtr (n : AxisId) (p : Fin 3) (f : PwmPhase → PwmPhase) : (s.modPh n p f).freeCtr = s.freeCtr := rfl
@[simp] theorem State.modPh_pending (n : AxisId) (p : Fin 3) (f : PwmPhase → PwmPhase) : (s.modPh n p f).pending = s.pending := rfl

/-! modGate writes ax alone. -/
@[simp] theorem State.modGate_variant (n : AxisId) (g : Fin 6) (f : GateSt → GateSt) : (s.modGate n g f).variant = s.variant := rfl
@[simp] theorem State.modGate_cref (n : AxisId) (g : Fin 6) (f : GateSt → GateSt) : (s.modGate n g f).cref = s.cref := rfl
@[simp] theorem State.modGate_clk (n : AxisId) (g : Fin 6) (f : GateSt → GateSt) : (s.modGate n g f).clk = s.clk := rfl
@[simp] theorem State.modGate_pwr (n : AxisId) (g : Fin 6) (f : GateSt → GateSt) : (s.modGate n g f).pwr = s.pwr := rfl
@[simp] theorem State.modGate_sup (n : AxisId) (g : Fin 6) (f : GateSt → GateSt) : (s.modGate n g f).sup = s.sup := rfl
@[simp] theorem State.modGate_rst (n : AxisId) (g : Fin 6) (f : GateSt → GateSt) : (s.modGate n g f).rst = s.rst := rfl
@[simp] theorem State.modGate_flt (n : AxisId) (g : Fin 6) (f : GateSt → GateSt) : (s.modGate n g f).flt = s.flt := rfl
@[simp] theorem State.modGate_hst (n : AxisId) (g : Fin 6) (f : GateSt → GateSt) : (s.modGate n g f).hst = s.hst := rfl
@[simp] theorem State.modGate_seam (n : AxisId) (g : Fin 6) (f : GateSt → GateSt) : (s.modGate n g f).seam = s.seam := rfl
@[simp] theorem State.modGate_can (n : AxisId) (g : Fin 6) (f : GateSt → GateSt) : (s.modGate n g f).can = s.can := rfl
@[simp] theorem State.modGate_alm (n : AxisId) (g : Fin 6) (f : GateSt → GateSt) : (s.modGate n g f).alm = s.alm := rfl
@[simp] theorem State.modGate_ser (n : AxisId) (g : Fin 6) (f : GateSt → GateSt) : (s.modGate n g f).ser = s.ser := rfl
@[simp] theorem State.modGate_sec (n : AxisId) (g : Fin 6) (f : GateSt → GateSt) : (s.modGate n g f).sec = s.sec := rfl
@[simp] theorem State.modGate_img (n : AxisId) (g : Fin 6) (f : GateSt → GateSt) : (s.modGate n g f).img = s.img := rfl
@[simp] theorem State.modGate_tly (n : AxisId) (g : Fin 6) (f : GateSt → GateSt) : (s.modGate n g f).tly = s.tly := rfl
@[simp] theorem State.modGate_gov (n : AxisId) (g : Fin 6) (f : GateSt → GateSt) : (s.modGate n g f).gov = s.gov := rfl
@[simp] theorem State.modGate_bank (n : AxisId) (g : Fin 6) (f : GateSt → GateSt) : (s.modGate n g f).bank = s.bank := rfl
@[simp] theorem State.modGate_sig (n : AxisId) (g : Fin 6) (f : GateSt → GateSt) : (s.modGate n g f).sig = s.sig := rfl
@[simp] theorem State.modGate_posts (n : AxisId) (g : Fin 6) (f : GateSt → GateSt) : (s.modGate n g f).posts = s.posts := rfl
@[simp] theorem State.modGate_fits (n : AxisId) (g : Fin 6) (f : GateSt → GateSt) : (s.modGate n g f).fits = s.fits := rfl
@[simp] theorem State.modGate_ntcCfg (n : AxisId) (g : Fin 6) (f : GateSt → GateSt) : (s.modGate n g f).ntcCfg = s.ntcCfg := rfl
@[simp] theorem State.modGate_ntc (n : AxisId) (g : Fin 6) (f : GateSt → GateSt) : (s.modGate n g f).ntc = s.ntc := rfl
@[simp] theorem State.modGate_hiLatch (n : AxisId) (g : Fin 6) (f : GateSt → GateSt) : (s.modGate n g f).hiLatch = s.hiLatch := rfl
@[simp] theorem State.modGate_readData (n : AxisId) (g : Fin 6) (f : GateSt → GateSt) : (s.modGate n g f).readData = s.readData := rfl
@[simp] theorem State.modGate_out (n : AxisId) (g : Fin 6) (f : GateSt → GateSt) : (s.modGate n g f).out = s.out := rfl
@[simp] theorem State.modGate_freeCtr (n : AxisId) (g : Fin 6) (f : GateSt → GateSt) : (s.modGate n g f).freeCtr = s.freeCtr := rfl
@[simp] theorem State.modGate_pending (n : AxisId) (g : Fin 6) (f : GateSt → GateSt) : (s.modGate n g f).pending = s.pending := rfl

/-! ctmWrite writes ax alone. -/
@[simp] theorem State.ctmWrite_variant (n : AxisId) (off : Nat) (bs : List Byte) : (s.ctmWrite n off bs).variant = s.variant := rfl
@[simp] theorem State.ctmWrite_cref (n : AxisId) (off : Nat) (bs : List Byte) : (s.ctmWrite n off bs).cref = s.cref := rfl
@[simp] theorem State.ctmWrite_clk (n : AxisId) (off : Nat) (bs : List Byte) : (s.ctmWrite n off bs).clk = s.clk := rfl
@[simp] theorem State.ctmWrite_pwr (n : AxisId) (off : Nat) (bs : List Byte) : (s.ctmWrite n off bs).pwr = s.pwr := rfl
@[simp] theorem State.ctmWrite_sup (n : AxisId) (off : Nat) (bs : List Byte) : (s.ctmWrite n off bs).sup = s.sup := rfl
@[simp] theorem State.ctmWrite_rst (n : AxisId) (off : Nat) (bs : List Byte) : (s.ctmWrite n off bs).rst = s.rst := rfl
@[simp] theorem State.ctmWrite_flt (n : AxisId) (off : Nat) (bs : List Byte) : (s.ctmWrite n off bs).flt = s.flt := rfl
@[simp] theorem State.ctmWrite_hst (n : AxisId) (off : Nat) (bs : List Byte) : (s.ctmWrite n off bs).hst = s.hst := rfl
@[simp] theorem State.ctmWrite_seam (n : AxisId) (off : Nat) (bs : List Byte) : (s.ctmWrite n off bs).seam = s.seam := rfl
@[simp] theorem State.ctmWrite_can (n : AxisId) (off : Nat) (bs : List Byte) : (s.ctmWrite n off bs).can = s.can := rfl
@[simp] theorem State.ctmWrite_alm (n : AxisId) (off : Nat) (bs : List Byte) : (s.ctmWrite n off bs).alm = s.alm := rfl
@[simp] theorem State.ctmWrite_ser (n : AxisId) (off : Nat) (bs : List Byte) : (s.ctmWrite n off bs).ser = s.ser := rfl
@[simp] theorem State.ctmWrite_sec (n : AxisId) (off : Nat) (bs : List Byte) : (s.ctmWrite n off bs).sec = s.sec := rfl
@[simp] theorem State.ctmWrite_img (n : AxisId) (off : Nat) (bs : List Byte) : (s.ctmWrite n off bs).img = s.img := rfl
@[simp] theorem State.ctmWrite_tly (n : AxisId) (off : Nat) (bs : List Byte) : (s.ctmWrite n off bs).tly = s.tly := rfl
@[simp] theorem State.ctmWrite_gov (n : AxisId) (off : Nat) (bs : List Byte) : (s.ctmWrite n off bs).gov = s.gov := rfl
@[simp] theorem State.ctmWrite_bank (n : AxisId) (off : Nat) (bs : List Byte) : (s.ctmWrite n off bs).bank = s.bank := rfl
@[simp] theorem State.ctmWrite_sig (n : AxisId) (off : Nat) (bs : List Byte) : (s.ctmWrite n off bs).sig = s.sig := rfl
@[simp] theorem State.ctmWrite_posts (n : AxisId) (off : Nat) (bs : List Byte) : (s.ctmWrite n off bs).posts = s.posts := rfl
@[simp] theorem State.ctmWrite_fits (n : AxisId) (off : Nat) (bs : List Byte) : (s.ctmWrite n off bs).fits = s.fits := rfl
@[simp] theorem State.ctmWrite_ntcCfg (n : AxisId) (off : Nat) (bs : List Byte) : (s.ctmWrite n off bs).ntcCfg = s.ntcCfg := rfl
@[simp] theorem State.ctmWrite_ntc (n : AxisId) (off : Nat) (bs : List Byte) : (s.ctmWrite n off bs).ntc = s.ntc := rfl
@[simp] theorem State.ctmWrite_hiLatch (n : AxisId) (off : Nat) (bs : List Byte) : (s.ctmWrite n off bs).hiLatch = s.hiLatch := rfl
@[simp] theorem State.ctmWrite_readData (n : AxisId) (off : Nat) (bs : List Byte) : (s.ctmWrite n off bs).readData = s.readData := rfl
@[simp] theorem State.ctmWrite_out (n : AxisId) (off : Nat) (bs : List Byte) : (s.ctmWrite n off bs).out = s.out := rfl
@[simp] theorem State.ctmWrite_freeCtr (n : AxisId) (off : Nat) (bs : List Byte) : (s.ctmWrite n off bs).freeCtr = s.freeCtr := rfl
@[simp] theorem State.ctmWrite_pending (n : AxisId) (off : Nat) (bs : List Byte) : (s.ctmWrite n off bs).pending = s.pending := rfl

/-! modBank writes bank alone. -/
@[simp] theorem State.modBank_variant (b : BankId) (f : Bank → Bank) : (s.modBank b f).variant = s.variant := rfl
@[simp] theorem State.modBank_cref (b : BankId) (f : Bank → Bank) : (s.modBank b f).cref = s.cref := rfl
@[simp] theorem State.modBank_clk (b : BankId) (f : Bank → Bank) : (s.modBank b f).clk = s.clk := rfl
@[simp] theorem State.modBank_pwr (b : BankId) (f : Bank → Bank) : (s.modBank b f).pwr = s.pwr := rfl
@[simp] theorem State.modBank_sup (b : BankId) (f : Bank → Bank) : (s.modBank b f).sup = s.sup := rfl
@[simp] theorem State.modBank_rst (b : BankId) (f : Bank → Bank) : (s.modBank b f).rst = s.rst := rfl
@[simp] theorem State.modBank_flt (b : BankId) (f : Bank → Bank) : (s.modBank b f).flt = s.flt := rfl
@[simp] theorem State.modBank_hst (b : BankId) (f : Bank → Bank) : (s.modBank b f).hst = s.hst := rfl
@[simp] theorem State.modBank_seam (b : BankId) (f : Bank → Bank) : (s.modBank b f).seam = s.seam := rfl
@[simp] theorem State.modBank_can (b : BankId) (f : Bank → Bank) : (s.modBank b f).can = s.can := rfl
@[simp] theorem State.modBank_alm (b : BankId) (f : Bank → Bank) : (s.modBank b f).alm = s.alm := rfl
@[simp] theorem State.modBank_ser (b : BankId) (f : Bank → Bank) : (s.modBank b f).ser = s.ser := rfl
@[simp] theorem State.modBank_sec (b : BankId) (f : Bank → Bank) : (s.modBank b f).sec = s.sec := rfl
@[simp] theorem State.modBank_img (b : BankId) (f : Bank → Bank) : (s.modBank b f).img = s.img := rfl
@[simp] theorem State.modBank_tly (b : BankId) (f : Bank → Bank) : (s.modBank b f).tly = s.tly := rfl
@[simp] theorem State.modBank_gov (b : BankId) (f : Bank → Bank) : (s.modBank b f).gov = s.gov := rfl
@[simp] theorem State.modBank_bank (b : BankId) (f : Bank → Bank) : (s.modBank b f).bank = s.bank.set b (f s.bank[b]) := rfl
@[simp] theorem State.modBank_ax (b : BankId) (f : Bank → Bank) : (s.modBank b f).ax = s.ax := rfl
@[simp] theorem State.modBank_sig (b : BankId) (f : Bank → Bank) : (s.modBank b f).sig = s.sig := rfl
@[simp] theorem State.modBank_posts (b : BankId) (f : Bank → Bank) : (s.modBank b f).posts = s.posts := rfl
@[simp] theorem State.modBank_fits (b : BankId) (f : Bank → Bank) : (s.modBank b f).fits = s.fits := rfl
@[simp] theorem State.modBank_ntcCfg (b : BankId) (f : Bank → Bank) : (s.modBank b f).ntcCfg = s.ntcCfg := rfl
@[simp] theorem State.modBank_ntc (b : BankId) (f : Bank → Bank) : (s.modBank b f).ntc = s.ntc := rfl
@[simp] theorem State.modBank_hiLatch (b : BankId) (f : Bank → Bank) : (s.modBank b f).hiLatch = s.hiLatch := rfl
@[simp] theorem State.modBank_readData (b : BankId) (f : Bank → Bank) : (s.modBank b f).readData = s.readData := rfl
@[simp] theorem State.modBank_out (b : BankId) (f : Bank → Bank) : (s.modBank b f).out = s.out := rfl
@[simp] theorem State.modBank_freeCtr (b : BankId) (f : Bank → Bank) : (s.modBank b f).freeCtr = s.freeCtr := rfl
@[simp] theorem State.modBank_pending (b : BankId) (f : Bank → Bank) : (s.modBank b f).pending = s.pending := rfl

/-! modCan writes can alone. -/
@[simp] theorem State.modCan_variant (c : CanId) (f : Can → Can) : (s.modCan c f).variant = s.variant := rfl
@[simp] theorem State.modCan_cref (c : CanId) (f : Can → Can) : (s.modCan c f).cref = s.cref := rfl
@[simp] theorem State.modCan_clk (c : CanId) (f : Can → Can) : (s.modCan c f).clk = s.clk := rfl
@[simp] theorem State.modCan_pwr (c : CanId) (f : Can → Can) : (s.modCan c f).pwr = s.pwr := rfl
@[simp] theorem State.modCan_sup (c : CanId) (f : Can → Can) : (s.modCan c f).sup = s.sup := rfl
@[simp] theorem State.modCan_rst (c : CanId) (f : Can → Can) : (s.modCan c f).rst = s.rst := rfl
@[simp] theorem State.modCan_flt (c : CanId) (f : Can → Can) : (s.modCan c f).flt = s.flt := rfl
@[simp] theorem State.modCan_hst (c : CanId) (f : Can → Can) : (s.modCan c f).hst = s.hst := rfl
@[simp] theorem State.modCan_seam (c : CanId) (f : Can → Can) : (s.modCan c f).seam = s.seam := rfl
@[simp] theorem State.modCan_can (c : CanId) (f : Can → Can) : (s.modCan c f).can = s.can.set c (f s.can[c]) := rfl
@[simp] theorem State.modCan_alm (c : CanId) (f : Can → Can) : (s.modCan c f).alm = s.alm := rfl
@[simp] theorem State.modCan_ser (c : CanId) (f : Can → Can) : (s.modCan c f).ser = s.ser := rfl
@[simp] theorem State.modCan_sec (c : CanId) (f : Can → Can) : (s.modCan c f).sec = s.sec := rfl
@[simp] theorem State.modCan_img (c : CanId) (f : Can → Can) : (s.modCan c f).img = s.img := rfl
@[simp] theorem State.modCan_tly (c : CanId) (f : Can → Can) : (s.modCan c f).tly = s.tly := rfl
@[simp] theorem State.modCan_gov (c : CanId) (f : Can → Can) : (s.modCan c f).gov = s.gov := rfl
@[simp] theorem State.modCan_bank (c : CanId) (f : Can → Can) : (s.modCan c f).bank = s.bank := rfl
@[simp] theorem State.modCan_ax (c : CanId) (f : Can → Can) : (s.modCan c f).ax = s.ax := rfl
@[simp] theorem State.modCan_sig (c : CanId) (f : Can → Can) : (s.modCan c f).sig = s.sig := rfl
@[simp] theorem State.modCan_posts (c : CanId) (f : Can → Can) : (s.modCan c f).posts = s.posts := rfl
@[simp] theorem State.modCan_fits (c : CanId) (f : Can → Can) : (s.modCan c f).fits = s.fits := rfl
@[simp] theorem State.modCan_ntcCfg (c : CanId) (f : Can → Can) : (s.modCan c f).ntcCfg = s.ntcCfg := rfl
@[simp] theorem State.modCan_ntc (c : CanId) (f : Can → Can) : (s.modCan c f).ntc = s.ntc := rfl
@[simp] theorem State.modCan_hiLatch (c : CanId) (f : Can → Can) : (s.modCan c f).hiLatch = s.hiLatch := rfl
@[simp] theorem State.modCan_readData (c : CanId) (f : Can → Can) : (s.modCan c f).readData = s.readData := rfl
@[simp] theorem State.modCan_out (c : CanId) (f : Can → Can) : (s.modCan c f).out = s.out := rfl
@[simp] theorem State.modCan_freeCtr (c : CanId) (f : Can → Can) : (s.modCan c f).freeCtr = s.freeCtr := rfl
@[simp] theorem State.modCan_pending (c : CanId) (f : Can → Can) : (s.modCan c f).pending = s.pending := rfl

/-! modPwr writes pwr alone. -/
@[simp] theorem State.modPwr_variant (f : Power → Power) : (s.modPwr f).variant = s.variant := rfl
@[simp] theorem State.modPwr_cref (f : Power → Power) : (s.modPwr f).cref = s.cref := rfl
@[simp] theorem State.modPwr_clk (f : Power → Power) : (s.modPwr f).clk = s.clk := rfl
@[simp] theorem State.modPwr_pwr (f : Power → Power) : (s.modPwr f).pwr = f s.pwr := rfl
@[simp] theorem State.modPwr_sup (f : Power → Power) : (s.modPwr f).sup = s.sup := rfl
@[simp] theorem State.modPwr_rst (f : Power → Power) : (s.modPwr f).rst = s.rst := rfl
@[simp] theorem State.modPwr_flt (f : Power → Power) : (s.modPwr f).flt = s.flt := rfl
@[simp] theorem State.modPwr_hst (f : Power → Power) : (s.modPwr f).hst = s.hst := rfl
@[simp] theorem State.modPwr_seam (f : Power → Power) : (s.modPwr f).seam = s.seam := rfl
@[simp] theorem State.modPwr_can (f : Power → Power) : (s.modPwr f).can = s.can := rfl
@[simp] theorem State.modPwr_alm (f : Power → Power) : (s.modPwr f).alm = s.alm := rfl
@[simp] theorem State.modPwr_ser (f : Power → Power) : (s.modPwr f).ser = s.ser := rfl
@[simp] theorem State.modPwr_sec (f : Power → Power) : (s.modPwr f).sec = s.sec := rfl
@[simp] theorem State.modPwr_img (f : Power → Power) : (s.modPwr f).img = s.img := rfl
@[simp] theorem State.modPwr_tly (f : Power → Power) : (s.modPwr f).tly = s.tly := rfl
@[simp] theorem State.modPwr_gov (f : Power → Power) : (s.modPwr f).gov = s.gov := rfl
@[simp] theorem State.modPwr_bank (f : Power → Power) : (s.modPwr f).bank = s.bank := rfl
@[simp] theorem State.modPwr_ax (f : Power → Power) : (s.modPwr f).ax = s.ax := rfl
@[simp] theorem State.modPwr_sig (f : Power → Power) : (s.modPwr f).sig = s.sig := rfl
@[simp] theorem State.modPwr_posts (f : Power → Power) : (s.modPwr f).posts = s.posts := rfl
@[simp] theorem State.modPwr_fits (f : Power → Power) : (s.modPwr f).fits = s.fits := rfl
@[simp] theorem State.modPwr_ntcCfg (f : Power → Power) : (s.modPwr f).ntcCfg = s.ntcCfg := rfl
@[simp] theorem State.modPwr_ntc (f : Power → Power) : (s.modPwr f).ntc = s.ntc := rfl
@[simp] theorem State.modPwr_hiLatch (f : Power → Power) : (s.modPwr f).hiLatch = s.hiLatch := rfl
@[simp] theorem State.modPwr_readData (f : Power → Power) : (s.modPwr f).readData = s.readData := rfl
@[simp] theorem State.modPwr_out (f : Power → Power) : (s.modPwr f).out = s.out := rfl
@[simp] theorem State.modPwr_freeCtr (f : Power → Power) : (s.modPwr f).freeCtr = s.freeCtr := rfl
@[simp] theorem State.modPwr_pending (f : Power → Power) : (s.modPwr f).pending = s.pending := rfl

/-! modFlt writes flt alone. -/
@[simp] theorem State.modFlt_variant (f : Flt → Flt) : (s.modFlt f).variant = s.variant := rfl
@[simp] theorem State.modFlt_cref (f : Flt → Flt) : (s.modFlt f).cref = s.cref := rfl
@[simp] theorem State.modFlt_clk (f : Flt → Flt) : (s.modFlt f).clk = s.clk := rfl
@[simp] theorem State.modFlt_pwr (f : Flt → Flt) : (s.modFlt f).pwr = s.pwr := rfl
@[simp] theorem State.modFlt_sup (f : Flt → Flt) : (s.modFlt f).sup = s.sup := rfl
@[simp] theorem State.modFlt_rst (f : Flt → Flt) : (s.modFlt f).rst = s.rst := rfl
@[simp] theorem State.modFlt_flt (f : Flt → Flt) : (s.modFlt f).flt = f s.flt := rfl
@[simp] theorem State.modFlt_hst (f : Flt → Flt) : (s.modFlt f).hst = s.hst := rfl
@[simp] theorem State.modFlt_seam (f : Flt → Flt) : (s.modFlt f).seam = s.seam := rfl
@[simp] theorem State.modFlt_can (f : Flt → Flt) : (s.modFlt f).can = s.can := rfl
@[simp] theorem State.modFlt_alm (f : Flt → Flt) : (s.modFlt f).alm = s.alm := rfl
@[simp] theorem State.modFlt_ser (f : Flt → Flt) : (s.modFlt f).ser = s.ser := rfl
@[simp] theorem State.modFlt_sec (f : Flt → Flt) : (s.modFlt f).sec = s.sec := rfl
@[simp] theorem State.modFlt_img (f : Flt → Flt) : (s.modFlt f).img = s.img := rfl
@[simp] theorem State.modFlt_tly (f : Flt → Flt) : (s.modFlt f).tly = s.tly := rfl
@[simp] theorem State.modFlt_gov (f : Flt → Flt) : (s.modFlt f).gov = s.gov := rfl
@[simp] theorem State.modFlt_bank (f : Flt → Flt) : (s.modFlt f).bank = s.bank := rfl
@[simp] theorem State.modFlt_ax (f : Flt → Flt) : (s.modFlt f).ax = s.ax := rfl
@[simp] theorem State.modFlt_sig (f : Flt → Flt) : (s.modFlt f).sig = s.sig := rfl
@[simp] theorem State.modFlt_posts (f : Flt → Flt) : (s.modFlt f).posts = s.posts := rfl
@[simp] theorem State.modFlt_fits (f : Flt → Flt) : (s.modFlt f).fits = s.fits := rfl
@[simp] theorem State.modFlt_ntcCfg (f : Flt → Flt) : (s.modFlt f).ntcCfg = s.ntcCfg := rfl
@[simp] theorem State.modFlt_ntc (f : Flt → Flt) : (s.modFlt f).ntc = s.ntc := rfl
@[simp] theorem State.modFlt_hiLatch (f : Flt → Flt) : (s.modFlt f).hiLatch = s.hiLatch := rfl
@[simp] theorem State.modFlt_readData (f : Flt → Flt) : (s.modFlt f).readData = s.readData := rfl
@[simp] theorem State.modFlt_out (f : Flt → Flt) : (s.modFlt f).out = s.out := rfl
@[simp] theorem State.modFlt_freeCtr (f : Flt → Flt) : (s.modFlt f).freeCtr = s.freeCtr := rfl
@[simp] theorem State.modFlt_pending (f : Flt → Flt) : (s.modFlt f).pending = s.pending := rfl

/-! modHst writes hst alone. -/
@[simp] theorem State.modHst_variant (f : Hst → Hst) : (s.modHst f).variant = s.variant := rfl
@[simp] theorem State.modHst_cref (f : Hst → Hst) : (s.modHst f).cref = s.cref := rfl
@[simp] theorem State.modHst_clk (f : Hst → Hst) : (s.modHst f).clk = s.clk := rfl
@[simp] theorem State.modHst_pwr (f : Hst → Hst) : (s.modHst f).pwr = s.pwr := rfl
@[simp] theorem State.modHst_sup (f : Hst → Hst) : (s.modHst f).sup = s.sup := rfl
@[simp] theorem State.modHst_rst (f : Hst → Hst) : (s.modHst f).rst = s.rst := rfl
@[simp] theorem State.modHst_flt (f : Hst → Hst) : (s.modHst f).flt = s.flt := rfl
@[simp] theorem State.modHst_hst (f : Hst → Hst) : (s.modHst f).hst = f s.hst := rfl
@[simp] theorem State.modHst_seam (f : Hst → Hst) : (s.modHst f).seam = s.seam := rfl
@[simp] theorem State.modHst_can (f : Hst → Hst) : (s.modHst f).can = s.can := rfl
@[simp] theorem State.modHst_alm (f : Hst → Hst) : (s.modHst f).alm = s.alm := rfl
@[simp] theorem State.modHst_ser (f : Hst → Hst) : (s.modHst f).ser = s.ser := rfl
@[simp] theorem State.modHst_sec (f : Hst → Hst) : (s.modHst f).sec = s.sec := rfl
@[simp] theorem State.modHst_img (f : Hst → Hst) : (s.modHst f).img = s.img := rfl
@[simp] theorem State.modHst_tly (f : Hst → Hst) : (s.modHst f).tly = s.tly := rfl
@[simp] theorem State.modHst_gov (f : Hst → Hst) : (s.modHst f).gov = s.gov := rfl
@[simp] theorem State.modHst_bank (f : Hst → Hst) : (s.modHst f).bank = s.bank := rfl
@[simp] theorem State.modHst_ax (f : Hst → Hst) : (s.modHst f).ax = s.ax := rfl
@[simp] theorem State.modHst_sig (f : Hst → Hst) : (s.modHst f).sig = s.sig := rfl
@[simp] theorem State.modHst_posts (f : Hst → Hst) : (s.modHst f).posts = s.posts := rfl
@[simp] theorem State.modHst_fits (f : Hst → Hst) : (s.modHst f).fits = s.fits := rfl
@[simp] theorem State.modHst_ntcCfg (f : Hst → Hst) : (s.modHst f).ntcCfg = s.ntcCfg := rfl
@[simp] theorem State.modHst_ntc (f : Hst → Hst) : (s.modHst f).ntc = s.ntc := rfl
@[simp] theorem State.modHst_hiLatch (f : Hst → Hst) : (s.modHst f).hiLatch = s.hiLatch := rfl
@[simp] theorem State.modHst_readData (f : Hst → Hst) : (s.modHst f).readData = s.readData := rfl
@[simp] theorem State.modHst_out (f : Hst → Hst) : (s.modHst f).out = s.out := rfl
@[simp] theorem State.modHst_freeCtr (f : Hst → Hst) : (s.modHst f).freeCtr = s.freeCtr := rfl
@[simp] theorem State.modHst_pending (f : Hst → Hst) : (s.modHst f).pending = s.pending := rfl

/-! modSeam writes seam alone. -/
@[simp] theorem State.modSeam_variant (f : SeamUnit → SeamUnit) : (s.modSeam f).variant = s.variant := rfl
@[simp] theorem State.modSeam_cref (f : SeamUnit → SeamUnit) : (s.modSeam f).cref = s.cref := rfl
@[simp] theorem State.modSeam_clk (f : SeamUnit → SeamUnit) : (s.modSeam f).clk = s.clk := rfl
@[simp] theorem State.modSeam_pwr (f : SeamUnit → SeamUnit) : (s.modSeam f).pwr = s.pwr := rfl
@[simp] theorem State.modSeam_sup (f : SeamUnit → SeamUnit) : (s.modSeam f).sup = s.sup := rfl
@[simp] theorem State.modSeam_rst (f : SeamUnit → SeamUnit) : (s.modSeam f).rst = s.rst := rfl
@[simp] theorem State.modSeam_flt (f : SeamUnit → SeamUnit) : (s.modSeam f).flt = s.flt := rfl
@[simp] theorem State.modSeam_hst (f : SeamUnit → SeamUnit) : (s.modSeam f).hst = s.hst := rfl
@[simp] theorem State.modSeam_seam (f : SeamUnit → SeamUnit) : (s.modSeam f).seam = f s.seam := rfl
@[simp] theorem State.modSeam_can (f : SeamUnit → SeamUnit) : (s.modSeam f).can = s.can := rfl
@[simp] theorem State.modSeam_alm (f : SeamUnit → SeamUnit) : (s.modSeam f).alm = s.alm := rfl
@[simp] theorem State.modSeam_ser (f : SeamUnit → SeamUnit) : (s.modSeam f).ser = s.ser := rfl
@[simp] theorem State.modSeam_sec (f : SeamUnit → SeamUnit) : (s.modSeam f).sec = s.sec := rfl
@[simp] theorem State.modSeam_img (f : SeamUnit → SeamUnit) : (s.modSeam f).img = s.img := rfl
@[simp] theorem State.modSeam_tly (f : SeamUnit → SeamUnit) : (s.modSeam f).tly = s.tly := rfl
@[simp] theorem State.modSeam_gov (f : SeamUnit → SeamUnit) : (s.modSeam f).gov = s.gov := rfl
@[simp] theorem State.modSeam_bank (f : SeamUnit → SeamUnit) : (s.modSeam f).bank = s.bank := rfl
@[simp] theorem State.modSeam_ax (f : SeamUnit → SeamUnit) : (s.modSeam f).ax = s.ax := rfl
@[simp] theorem State.modSeam_sig (f : SeamUnit → SeamUnit) : (s.modSeam f).sig = s.sig := rfl
@[simp] theorem State.modSeam_posts (f : SeamUnit → SeamUnit) : (s.modSeam f).posts = s.posts := rfl
@[simp] theorem State.modSeam_fits (f : SeamUnit → SeamUnit) : (s.modSeam f).fits = s.fits := rfl
@[simp] theorem State.modSeam_ntcCfg (f : SeamUnit → SeamUnit) : (s.modSeam f).ntcCfg = s.ntcCfg := rfl
@[simp] theorem State.modSeam_ntc (f : SeamUnit → SeamUnit) : (s.modSeam f).ntc = s.ntc := rfl
@[simp] theorem State.modSeam_hiLatch (f : SeamUnit → SeamUnit) : (s.modSeam f).hiLatch = s.hiLatch := rfl
@[simp] theorem State.modSeam_readData (f : SeamUnit → SeamUnit) : (s.modSeam f).readData = s.readData := rfl
@[simp] theorem State.modSeam_out (f : SeamUnit → SeamUnit) : (s.modSeam f).out = s.out := rfl
@[simp] theorem State.modSeam_freeCtr (f : SeamUnit → SeamUnit) : (s.modSeam f).freeCtr = s.freeCtr := rfl
@[simp] theorem State.modSeam_pending (f : SeamUnit → SeamUnit) : (s.modSeam f).pending = s.pending := rfl

/-! modAlm writes alm alone. -/
@[simp] theorem State.modAlm_variant (f : Alm → Alm) : (s.modAlm f).variant = s.variant := rfl
@[simp] theorem State.modAlm_cref (f : Alm → Alm) : (s.modAlm f).cref = s.cref := rfl
@[simp] theorem State.modAlm_clk (f : Alm → Alm) : (s.modAlm f).clk = s.clk := rfl
@[simp] theorem State.modAlm_pwr (f : Alm → Alm) : (s.modAlm f).pwr = s.pwr := rfl
@[simp] theorem State.modAlm_sup (f : Alm → Alm) : (s.modAlm f).sup = s.sup := rfl
@[simp] theorem State.modAlm_rst (f : Alm → Alm) : (s.modAlm f).rst = s.rst := rfl
@[simp] theorem State.modAlm_flt (f : Alm → Alm) : (s.modAlm f).flt = s.flt := rfl
@[simp] theorem State.modAlm_hst (f : Alm → Alm) : (s.modAlm f).hst = s.hst := rfl
@[simp] theorem State.modAlm_seam (f : Alm → Alm) : (s.modAlm f).seam = s.seam := rfl
@[simp] theorem State.modAlm_can (f : Alm → Alm) : (s.modAlm f).can = s.can := rfl
@[simp] theorem State.modAlm_alm (f : Alm → Alm) : (s.modAlm f).alm = f s.alm := rfl
@[simp] theorem State.modAlm_ser (f : Alm → Alm) : (s.modAlm f).ser = s.ser := rfl
@[simp] theorem State.modAlm_sec (f : Alm → Alm) : (s.modAlm f).sec = s.sec := rfl
@[simp] theorem State.modAlm_img (f : Alm → Alm) : (s.modAlm f).img = s.img := rfl
@[simp] theorem State.modAlm_tly (f : Alm → Alm) : (s.modAlm f).tly = s.tly := rfl
@[simp] theorem State.modAlm_gov (f : Alm → Alm) : (s.modAlm f).gov = s.gov := rfl
@[simp] theorem State.modAlm_bank (f : Alm → Alm) : (s.modAlm f).bank = s.bank := rfl
@[simp] theorem State.modAlm_ax (f : Alm → Alm) : (s.modAlm f).ax = s.ax := rfl
@[simp] theorem State.modAlm_sig (f : Alm → Alm) : (s.modAlm f).sig = s.sig := rfl
@[simp] theorem State.modAlm_posts (f : Alm → Alm) : (s.modAlm f).posts = s.posts := rfl
@[simp] theorem State.modAlm_fits (f : Alm → Alm) : (s.modAlm f).fits = s.fits := rfl
@[simp] theorem State.modAlm_ntcCfg (f : Alm → Alm) : (s.modAlm f).ntcCfg = s.ntcCfg := rfl
@[simp] theorem State.modAlm_ntc (f : Alm → Alm) : (s.modAlm f).ntc = s.ntc := rfl
@[simp] theorem State.modAlm_hiLatch (f : Alm → Alm) : (s.modAlm f).hiLatch = s.hiLatch := rfl
@[simp] theorem State.modAlm_readData (f : Alm → Alm) : (s.modAlm f).readData = s.readData := rfl
@[simp] theorem State.modAlm_out (f : Alm → Alm) : (s.modAlm f).out = s.out := rfl
@[simp] theorem State.modAlm_freeCtr (f : Alm → Alm) : (s.modAlm f).freeCtr = s.freeCtr := rfl
@[simp] theorem State.modAlm_pending (f : Alm → Alm) : (s.modAlm f).pending = s.pending := rfl

/-! modSer writes ser alone. -/
@[simp] theorem State.modSer_variant (f : Serial → Serial) : (s.modSer f).variant = s.variant := rfl
@[simp] theorem State.modSer_cref (f : Serial → Serial) : (s.modSer f).cref = s.cref := rfl
@[simp] theorem State.modSer_clk (f : Serial → Serial) : (s.modSer f).clk = s.clk := rfl
@[simp] theorem State.modSer_pwr (f : Serial → Serial) : (s.modSer f).pwr = s.pwr := rfl
@[simp] theorem State.modSer_sup (f : Serial → Serial) : (s.modSer f).sup = s.sup := rfl
@[simp] theorem State.modSer_rst (f : Serial → Serial) : (s.modSer f).rst = s.rst := rfl
@[simp] theorem State.modSer_flt (f : Serial → Serial) : (s.modSer f).flt = s.flt := rfl
@[simp] theorem State.modSer_hst (f : Serial → Serial) : (s.modSer f).hst = s.hst := rfl
@[simp] theorem State.modSer_seam (f : Serial → Serial) : (s.modSer f).seam = s.seam := rfl
@[simp] theorem State.modSer_can (f : Serial → Serial) : (s.modSer f).can = s.can := rfl
@[simp] theorem State.modSer_alm (f : Serial → Serial) : (s.modSer f).alm = s.alm := rfl
@[simp] theorem State.modSer_ser (f : Serial → Serial) : (s.modSer f).ser = f s.ser := rfl
@[simp] theorem State.modSer_sec (f : Serial → Serial) : (s.modSer f).sec = s.sec := rfl
@[simp] theorem State.modSer_img (f : Serial → Serial) : (s.modSer f).img = s.img := rfl
@[simp] theorem State.modSer_tly (f : Serial → Serial) : (s.modSer f).tly = s.tly := rfl
@[simp] theorem State.modSer_gov (f : Serial → Serial) : (s.modSer f).gov = s.gov := rfl
@[simp] theorem State.modSer_bank (f : Serial → Serial) : (s.modSer f).bank = s.bank := rfl
@[simp] theorem State.modSer_ax (f : Serial → Serial) : (s.modSer f).ax = s.ax := rfl
@[simp] theorem State.modSer_sig (f : Serial → Serial) : (s.modSer f).sig = s.sig := rfl
@[simp] theorem State.modSer_posts (f : Serial → Serial) : (s.modSer f).posts = s.posts := rfl
@[simp] theorem State.modSer_fits (f : Serial → Serial) : (s.modSer f).fits = s.fits := rfl
@[simp] theorem State.modSer_ntcCfg (f : Serial → Serial) : (s.modSer f).ntcCfg = s.ntcCfg := rfl
@[simp] theorem State.modSer_ntc (f : Serial → Serial) : (s.modSer f).ntc = s.ntc := rfl
@[simp] theorem State.modSer_hiLatch (f : Serial → Serial) : (s.modSer f).hiLatch = s.hiLatch := rfl
@[simp] theorem State.modSer_readData (f : Serial → Serial) : (s.modSer f).readData = s.readData := rfl
@[simp] theorem State.modSer_out (f : Serial → Serial) : (s.modSer f).out = s.out := rfl
@[simp] theorem State.modSer_freeCtr (f : Serial → Serial) : (s.modSer f).freeCtr = s.freeCtr := rfl
@[simp] theorem State.modSer_pending (f : Serial → Serial) : (s.modSer f).pending = s.pending := rfl

/-! modSec writes sec alone. -/
@[simp] theorem State.modSec_variant (f : Sec → Sec) : (s.modSec f).variant = s.variant := rfl
@[simp] theorem State.modSec_cref (f : Sec → Sec) : (s.modSec f).cref = s.cref := rfl
@[simp] theorem State.modSec_clk (f : Sec → Sec) : (s.modSec f).clk = s.clk := rfl
@[simp] theorem State.modSec_pwr (f : Sec → Sec) : (s.modSec f).pwr = s.pwr := rfl
@[simp] theorem State.modSec_sup (f : Sec → Sec) : (s.modSec f).sup = s.sup := rfl
@[simp] theorem State.modSec_rst (f : Sec → Sec) : (s.modSec f).rst = s.rst := rfl
@[simp] theorem State.modSec_flt (f : Sec → Sec) : (s.modSec f).flt = s.flt := rfl
@[simp] theorem State.modSec_hst (f : Sec → Sec) : (s.modSec f).hst = s.hst := rfl
@[simp] theorem State.modSec_seam (f : Sec → Sec) : (s.modSec f).seam = s.seam := rfl
@[simp] theorem State.modSec_can (f : Sec → Sec) : (s.modSec f).can = s.can := rfl
@[simp] theorem State.modSec_alm (f : Sec → Sec) : (s.modSec f).alm = s.alm := rfl
@[simp] theorem State.modSec_ser (f : Sec → Sec) : (s.modSec f).ser = s.ser := rfl
@[simp] theorem State.modSec_sec (f : Sec → Sec) : (s.modSec f).sec = f s.sec := rfl
@[simp] theorem State.modSec_img (f : Sec → Sec) : (s.modSec f).img = s.img := rfl
@[simp] theorem State.modSec_tly (f : Sec → Sec) : (s.modSec f).tly = s.tly := rfl
@[simp] theorem State.modSec_gov (f : Sec → Sec) : (s.modSec f).gov = s.gov := rfl
@[simp] theorem State.modSec_bank (f : Sec → Sec) : (s.modSec f).bank = s.bank := rfl
@[simp] theorem State.modSec_ax (f : Sec → Sec) : (s.modSec f).ax = s.ax := rfl
@[simp] theorem State.modSec_sig (f : Sec → Sec) : (s.modSec f).sig = s.sig := rfl
@[simp] theorem State.modSec_posts (f : Sec → Sec) : (s.modSec f).posts = s.posts := rfl
@[simp] theorem State.modSec_fits (f : Sec → Sec) : (s.modSec f).fits = s.fits := rfl
@[simp] theorem State.modSec_ntcCfg (f : Sec → Sec) : (s.modSec f).ntcCfg = s.ntcCfg := rfl
@[simp] theorem State.modSec_ntc (f : Sec → Sec) : (s.modSec f).ntc = s.ntc := rfl
@[simp] theorem State.modSec_hiLatch (f : Sec → Sec) : (s.modSec f).hiLatch = s.hiLatch := rfl
@[simp] theorem State.modSec_readData (f : Sec → Sec) : (s.modSec f).readData = s.readData := rfl
@[simp] theorem State.modSec_out (f : Sec → Sec) : (s.modSec f).out = s.out := rfl
@[simp] theorem State.modSec_freeCtr (f : Sec → Sec) : (s.modSec f).freeCtr = s.freeCtr := rfl
@[simp] theorem State.modSec_pending (f : Sec → Sec) : (s.modSec f).pending = s.pending := rfl

/-! modImg writes img alone. -/
@[simp] theorem State.modImg_variant (f : Img → Img) : (s.modImg f).variant = s.variant := rfl
@[simp] theorem State.modImg_cref (f : Img → Img) : (s.modImg f).cref = s.cref := rfl
@[simp] theorem State.modImg_clk (f : Img → Img) : (s.modImg f).clk = s.clk := rfl
@[simp] theorem State.modImg_pwr (f : Img → Img) : (s.modImg f).pwr = s.pwr := rfl
@[simp] theorem State.modImg_sup (f : Img → Img) : (s.modImg f).sup = s.sup := rfl
@[simp] theorem State.modImg_rst (f : Img → Img) : (s.modImg f).rst = s.rst := rfl
@[simp] theorem State.modImg_flt (f : Img → Img) : (s.modImg f).flt = s.flt := rfl
@[simp] theorem State.modImg_hst (f : Img → Img) : (s.modImg f).hst = s.hst := rfl
@[simp] theorem State.modImg_seam (f : Img → Img) : (s.modImg f).seam = s.seam := rfl
@[simp] theorem State.modImg_can (f : Img → Img) : (s.modImg f).can = s.can := rfl
@[simp] theorem State.modImg_alm (f : Img → Img) : (s.modImg f).alm = s.alm := rfl
@[simp] theorem State.modImg_ser (f : Img → Img) : (s.modImg f).ser = s.ser := rfl
@[simp] theorem State.modImg_sec (f : Img → Img) : (s.modImg f).sec = s.sec := rfl
@[simp] theorem State.modImg_img (f : Img → Img) : (s.modImg f).img = f s.img := rfl
@[simp] theorem State.modImg_tly (f : Img → Img) : (s.modImg f).tly = s.tly := rfl
@[simp] theorem State.modImg_gov (f : Img → Img) : (s.modImg f).gov = s.gov := rfl
@[simp] theorem State.modImg_bank (f : Img → Img) : (s.modImg f).bank = s.bank := rfl
@[simp] theorem State.modImg_ax (f : Img → Img) : (s.modImg f).ax = s.ax := rfl
@[simp] theorem State.modImg_sig (f : Img → Img) : (s.modImg f).sig = s.sig := rfl
@[simp] theorem State.modImg_posts (f : Img → Img) : (s.modImg f).posts = s.posts := rfl
@[simp] theorem State.modImg_fits (f : Img → Img) : (s.modImg f).fits = s.fits := rfl
@[simp] theorem State.modImg_ntcCfg (f : Img → Img) : (s.modImg f).ntcCfg = s.ntcCfg := rfl
@[simp] theorem State.modImg_ntc (f : Img → Img) : (s.modImg f).ntc = s.ntc := rfl
@[simp] theorem State.modImg_hiLatch (f : Img → Img) : (s.modImg f).hiLatch = s.hiLatch := rfl
@[simp] theorem State.modImg_readData (f : Img → Img) : (s.modImg f).readData = s.readData := rfl
@[simp] theorem State.modImg_out (f : Img → Img) : (s.modImg f).out = s.out := rfl
@[simp] theorem State.modImg_freeCtr (f : Img → Img) : (s.modImg f).freeCtr = s.freeCtr := rfl
@[simp] theorem State.modImg_pending (f : Img → Img) : (s.modImg f).pending = s.pending := rfl

/-! modTly writes tly alone. -/
@[simp] theorem State.modTly_variant (f : Tly → Tly) : (s.modTly f).variant = s.variant := rfl
@[simp] theorem State.modTly_cref (f : Tly → Tly) : (s.modTly f).cref = s.cref := rfl
@[simp] theorem State.modTly_clk (f : Tly → Tly) : (s.modTly f).clk = s.clk := rfl
@[simp] theorem State.modTly_pwr (f : Tly → Tly) : (s.modTly f).pwr = s.pwr := rfl
@[simp] theorem State.modTly_sup (f : Tly → Tly) : (s.modTly f).sup = s.sup := rfl
@[simp] theorem State.modTly_rst (f : Tly → Tly) : (s.modTly f).rst = s.rst := rfl
@[simp] theorem State.modTly_flt (f : Tly → Tly) : (s.modTly f).flt = s.flt := rfl
@[simp] theorem State.modTly_hst (f : Tly → Tly) : (s.modTly f).hst = s.hst := rfl
@[simp] theorem State.modTly_seam (f : Tly → Tly) : (s.modTly f).seam = s.seam := rfl
@[simp] theorem State.modTly_can (f : Tly → Tly) : (s.modTly f).can = s.can := rfl
@[simp] theorem State.modTly_alm (f : Tly → Tly) : (s.modTly f).alm = s.alm := rfl
@[simp] theorem State.modTly_ser (f : Tly → Tly) : (s.modTly f).ser = s.ser := rfl
@[simp] theorem State.modTly_sec (f : Tly → Tly) : (s.modTly f).sec = s.sec := rfl
@[simp] theorem State.modTly_img (f : Tly → Tly) : (s.modTly f).img = s.img := rfl
@[simp] theorem State.modTly_tly (f : Tly → Tly) : (s.modTly f).tly = f s.tly := rfl
@[simp] theorem State.modTly_gov (f : Tly → Tly) : (s.modTly f).gov = s.gov := rfl
@[simp] theorem State.modTly_bank (f : Tly → Tly) : (s.modTly f).bank = s.bank := rfl
@[simp] theorem State.modTly_ax (f : Tly → Tly) : (s.modTly f).ax = s.ax := rfl
@[simp] theorem State.modTly_sig (f : Tly → Tly) : (s.modTly f).sig = s.sig := rfl
@[simp] theorem State.modTly_posts (f : Tly → Tly) : (s.modTly f).posts = s.posts := rfl
@[simp] theorem State.modTly_fits (f : Tly → Tly) : (s.modTly f).fits = s.fits := rfl
@[simp] theorem State.modTly_ntcCfg (f : Tly → Tly) : (s.modTly f).ntcCfg = s.ntcCfg := rfl
@[simp] theorem State.modTly_ntc (f : Tly → Tly) : (s.modTly f).ntc = s.ntc := rfl
@[simp] theorem State.modTly_hiLatch (f : Tly → Tly) : (s.modTly f).hiLatch = s.hiLatch := rfl
@[simp] theorem State.modTly_readData (f : Tly → Tly) : (s.modTly f).readData = s.readData := rfl
@[simp] theorem State.modTly_out (f : Tly → Tly) : (s.modTly f).out = s.out := rfl
@[simp] theorem State.modTly_freeCtr (f : Tly → Tly) : (s.modTly f).freeCtr = s.freeCtr := rfl
@[simp] theorem State.modTly_pending (f : Tly → Tly) : (s.modTly f).pending = s.pending := rfl

/-! modGov writes gov alone. -/
@[simp] theorem State.modGov_variant (f : Gov → Gov) : (s.modGov f).variant = s.variant := rfl
@[simp] theorem State.modGov_cref (f : Gov → Gov) : (s.modGov f).cref = s.cref := rfl
@[simp] theorem State.modGov_clk (f : Gov → Gov) : (s.modGov f).clk = s.clk := rfl
@[simp] theorem State.modGov_pwr (f : Gov → Gov) : (s.modGov f).pwr = s.pwr := rfl
@[simp] theorem State.modGov_sup (f : Gov → Gov) : (s.modGov f).sup = s.sup := rfl
@[simp] theorem State.modGov_rst (f : Gov → Gov) : (s.modGov f).rst = s.rst := rfl
@[simp] theorem State.modGov_flt (f : Gov → Gov) : (s.modGov f).flt = s.flt := rfl
@[simp] theorem State.modGov_hst (f : Gov → Gov) : (s.modGov f).hst = s.hst := rfl
@[simp] theorem State.modGov_seam (f : Gov → Gov) : (s.modGov f).seam = s.seam := rfl
@[simp] theorem State.modGov_can (f : Gov → Gov) : (s.modGov f).can = s.can := rfl
@[simp] theorem State.modGov_alm (f : Gov → Gov) : (s.modGov f).alm = s.alm := rfl
@[simp] theorem State.modGov_ser (f : Gov → Gov) : (s.modGov f).ser = s.ser := rfl
@[simp] theorem State.modGov_sec (f : Gov → Gov) : (s.modGov f).sec = s.sec := rfl
@[simp] theorem State.modGov_img (f : Gov → Gov) : (s.modGov f).img = s.img := rfl
@[simp] theorem State.modGov_tly (f : Gov → Gov) : (s.modGov f).tly = s.tly := rfl
@[simp] theorem State.modGov_gov (f : Gov → Gov) : (s.modGov f).gov = f s.gov := rfl
@[simp] theorem State.modGov_bank (f : Gov → Gov) : (s.modGov f).bank = s.bank := rfl
@[simp] theorem State.modGov_ax (f : Gov → Gov) : (s.modGov f).ax = s.ax := rfl
@[simp] theorem State.modGov_sig (f : Gov → Gov) : (s.modGov f).sig = s.sig := rfl
@[simp] theorem State.modGov_posts (f : Gov → Gov) : (s.modGov f).posts = s.posts := rfl
@[simp] theorem State.modGov_fits (f : Gov → Gov) : (s.modGov f).fits = s.fits := rfl
@[simp] theorem State.modGov_ntcCfg (f : Gov → Gov) : (s.modGov f).ntcCfg = s.ntcCfg := rfl
@[simp] theorem State.modGov_ntc (f : Gov → Gov) : (s.modGov f).ntc = s.ntc := rfl
@[simp] theorem State.modGov_hiLatch (f : Gov → Gov) : (s.modGov f).hiLatch = s.hiLatch := rfl
@[simp] theorem State.modGov_readData (f : Gov → Gov) : (s.modGov f).readData = s.readData := rfl
@[simp] theorem State.modGov_out (f : Gov → Gov) : (s.modGov f).out = s.out := rfl
@[simp] theorem State.modGov_freeCtr (f : Gov → Gov) : (s.modGov f).freeCtr = s.freeCtr := rfl
@[simp] theorem State.modGov_pending (f : Gov → Gov) : (s.modGov f).pending = s.pending := rfl

/-! emit writes out alone. -/
@[simp] theorem State.emit_variant (o : Output) : (s.emit o).variant = s.variant := rfl
@[simp] theorem State.emit_cref (o : Output) : (s.emit o).cref = s.cref := rfl
@[simp] theorem State.emit_clk (o : Output) : (s.emit o).clk = s.clk := rfl
@[simp] theorem State.emit_pwr (o : Output) : (s.emit o).pwr = s.pwr := rfl
@[simp] theorem State.emit_sup (o : Output) : (s.emit o).sup = s.sup := rfl
@[simp] theorem State.emit_rst (o : Output) : (s.emit o).rst = s.rst := rfl
@[simp] theorem State.emit_flt (o : Output) : (s.emit o).flt = s.flt := rfl
@[simp] theorem State.emit_hst (o : Output) : (s.emit o).hst = s.hst := rfl
@[simp] theorem State.emit_seam (o : Output) : (s.emit o).seam = s.seam := rfl
@[simp] theorem State.emit_can (o : Output) : (s.emit o).can = s.can := rfl
@[simp] theorem State.emit_alm (o : Output) : (s.emit o).alm = s.alm := rfl
@[simp] theorem State.emit_ser (o : Output) : (s.emit o).ser = s.ser := rfl
@[simp] theorem State.emit_sec (o : Output) : (s.emit o).sec = s.sec := rfl
@[simp] theorem State.emit_img (o : Output) : (s.emit o).img = s.img := rfl
@[simp] theorem State.emit_tly (o : Output) : (s.emit o).tly = s.tly := rfl
@[simp] theorem State.emit_gov (o : Output) : (s.emit o).gov = s.gov := rfl
@[simp] theorem State.emit_bank (o : Output) : (s.emit o).bank = s.bank := rfl
@[simp] theorem State.emit_ax (o : Output) : (s.emit o).ax = s.ax := rfl
@[simp] theorem State.emit_sig (o : Output) : (s.emit o).sig = s.sig := rfl
@[simp] theorem State.emit_posts (o : Output) : (s.emit o).posts = s.posts := rfl
@[simp] theorem State.emit_fits (o : Output) : (s.emit o).fits = s.fits := rfl
@[simp] theorem State.emit_ntcCfg (o : Output) : (s.emit o).ntcCfg = s.ntcCfg := rfl
@[simp] theorem State.emit_ntc (o : Output) : (s.emit o).ntc = s.ntc := rfl
@[simp] theorem State.emit_hiLatch (o : Output) : (s.emit o).hiLatch = s.hiLatch := rfl
@[simp] theorem State.emit_readData (o : Output) : (s.emit o).readData = s.readData := rfl
@[simp] theorem State.emit_out (o : Output) : (s.emit o).out = s.out ++ [o] := rfl
@[simp] theorem State.emit_freeCtr (o : Output) : (s.emit o).freeCtr = s.freeCtr := rfl
@[simp] theorem State.emit_pending (o : Output) : (s.emit o).pending = s.pending := rfl

/-! bump writes freeCtr alone. -/
@[simp] theorem State.bump_variant : (s.bump).variant = s.variant := rfl
@[simp] theorem State.bump_cref : (s.bump).cref = s.cref := rfl
@[simp] theorem State.bump_clk : (s.bump).clk = s.clk := rfl
@[simp] theorem State.bump_pwr : (s.bump).pwr = s.pwr := rfl
@[simp] theorem State.bump_sup : (s.bump).sup = s.sup := rfl
@[simp] theorem State.bump_rst : (s.bump).rst = s.rst := rfl
@[simp] theorem State.bump_flt : (s.bump).flt = s.flt := rfl
@[simp] theorem State.bump_hst : (s.bump).hst = s.hst := rfl
@[simp] theorem State.bump_seam : (s.bump).seam = s.seam := rfl
@[simp] theorem State.bump_can : (s.bump).can = s.can := rfl
@[simp] theorem State.bump_alm : (s.bump).alm = s.alm := rfl
@[simp] theorem State.bump_ser : (s.bump).ser = s.ser := rfl
@[simp] theorem State.bump_sec : (s.bump).sec = s.sec := rfl
@[simp] theorem State.bump_img : (s.bump).img = s.img := rfl
@[simp] theorem State.bump_tly : (s.bump).tly = s.tly := rfl
@[simp] theorem State.bump_gov : (s.bump).gov = s.gov := rfl
@[simp] theorem State.bump_bank : (s.bump).bank = s.bank := rfl
@[simp] theorem State.bump_ax : (s.bump).ax = s.ax := rfl
@[simp] theorem State.bump_sig : (s.bump).sig = s.sig := rfl
@[simp] theorem State.bump_posts : (s.bump).posts = s.posts := rfl
@[simp] theorem State.bump_fits : (s.bump).fits = s.fits := rfl
@[simp] theorem State.bump_ntcCfg : (s.bump).ntcCfg = s.ntcCfg := rfl
@[simp] theorem State.bump_ntc : (s.bump).ntc = s.ntc := rfl
@[simp] theorem State.bump_hiLatch : (s.bump).hiLatch = s.hiLatch := rfl
@[simp] theorem State.bump_readData : (s.bump).readData = s.readData := rfl
@[simp] theorem State.bump_out : (s.bump).out = s.out := rfl
@[simp] theorem State.bump_freeCtr : (s.bump).freeCtr = s.freeCtr + 1 := rfl
@[simp] theorem State.bump_pending : (s.bump).pending = s.pending := rfl

/-! bumpBy writes freeCtr alone. -/
@[simp] theorem State.bumpBy_variant (k : Nat) : (s.bumpBy k).variant = s.variant := rfl
@[simp] theorem State.bumpBy_cref (k : Nat) : (s.bumpBy k).cref = s.cref := rfl
@[simp] theorem State.bumpBy_clk (k : Nat) : (s.bumpBy k).clk = s.clk := rfl
@[simp] theorem State.bumpBy_pwr (k : Nat) : (s.bumpBy k).pwr = s.pwr := rfl
@[simp] theorem State.bumpBy_sup (k : Nat) : (s.bumpBy k).sup = s.sup := rfl
@[simp] theorem State.bumpBy_rst (k : Nat) : (s.bumpBy k).rst = s.rst := rfl
@[simp] theorem State.bumpBy_flt (k : Nat) : (s.bumpBy k).flt = s.flt := rfl
@[simp] theorem State.bumpBy_hst (k : Nat) : (s.bumpBy k).hst = s.hst := rfl
@[simp] theorem State.bumpBy_seam (k : Nat) : (s.bumpBy k).seam = s.seam := rfl
@[simp] theorem State.bumpBy_can (k : Nat) : (s.bumpBy k).can = s.can := rfl
@[simp] theorem State.bumpBy_alm (k : Nat) : (s.bumpBy k).alm = s.alm := rfl
@[simp] theorem State.bumpBy_ser (k : Nat) : (s.bumpBy k).ser = s.ser := rfl
@[simp] theorem State.bumpBy_sec (k : Nat) : (s.bumpBy k).sec = s.sec := rfl
@[simp] theorem State.bumpBy_img (k : Nat) : (s.bumpBy k).img = s.img := rfl
@[simp] theorem State.bumpBy_tly (k : Nat) : (s.bumpBy k).tly = s.tly := rfl
@[simp] theorem State.bumpBy_gov (k : Nat) : (s.bumpBy k).gov = s.gov := rfl
@[simp] theorem State.bumpBy_bank (k : Nat) : (s.bumpBy k).bank = s.bank := rfl
@[simp] theorem State.bumpBy_ax (k : Nat) : (s.bumpBy k).ax = s.ax := rfl
@[simp] theorem State.bumpBy_sig (k : Nat) : (s.bumpBy k).sig = s.sig := rfl
@[simp] theorem State.bumpBy_posts (k : Nat) : (s.bumpBy k).posts = s.posts := rfl
@[simp] theorem State.bumpBy_fits (k : Nat) : (s.bumpBy k).fits = s.fits := rfl
@[simp] theorem State.bumpBy_ntcCfg (k : Nat) : (s.bumpBy k).ntcCfg = s.ntcCfg := rfl
@[simp] theorem State.bumpBy_ntc (k : Nat) : (s.bumpBy k).ntc = s.ntc := rfl
@[simp] theorem State.bumpBy_hiLatch (k : Nat) : (s.bumpBy k).hiLatch = s.hiLatch := rfl
@[simp] theorem State.bumpBy_readData (k : Nat) : (s.bumpBy k).readData = s.readData := rfl
@[simp] theorem State.bumpBy_out (k : Nat) : (s.bumpBy k).out = s.out := rfl
@[simp] theorem State.bumpBy_freeCtr (k : Nat) : (s.bumpBy k).freeCtr = s.freeCtr + k := rfl
@[simp] theorem State.bumpBy_pending (k : Nat) : (s.bumpBy k).pending = s.pending := rfl

/-! sigWrite writes sig alone. -/
@[simp] theorem State.sigWrite_variant (a : Nat) (v : Word) : (s.sigWrite a v).variant = s.variant := rfl
@[simp] theorem State.sigWrite_cref (a : Nat) (v : Word) : (s.sigWrite a v).cref = s.cref := rfl
@[simp] theorem State.sigWrite_clk (a : Nat) (v : Word) : (s.sigWrite a v).clk = s.clk := rfl
@[simp] theorem State.sigWrite_pwr (a : Nat) (v : Word) : (s.sigWrite a v).pwr = s.pwr := rfl
@[simp] theorem State.sigWrite_sup (a : Nat) (v : Word) : (s.sigWrite a v).sup = s.sup := rfl
@[simp] theorem State.sigWrite_rst (a : Nat) (v : Word) : (s.sigWrite a v).rst = s.rst := rfl
@[simp] theorem State.sigWrite_flt (a : Nat) (v : Word) : (s.sigWrite a v).flt = s.flt := rfl
@[simp] theorem State.sigWrite_hst (a : Nat) (v : Word) : (s.sigWrite a v).hst = s.hst := rfl
@[simp] theorem State.sigWrite_seam (a : Nat) (v : Word) : (s.sigWrite a v).seam = s.seam := rfl
@[simp] theorem State.sigWrite_can (a : Nat) (v : Word) : (s.sigWrite a v).can = s.can := rfl
@[simp] theorem State.sigWrite_alm (a : Nat) (v : Word) : (s.sigWrite a v).alm = s.alm := rfl
@[simp] theorem State.sigWrite_ser (a : Nat) (v : Word) : (s.sigWrite a v).ser = s.ser := rfl
@[simp] theorem State.sigWrite_sec (a : Nat) (v : Word) : (s.sigWrite a v).sec = s.sec := rfl
@[simp] theorem State.sigWrite_img (a : Nat) (v : Word) : (s.sigWrite a v).img = s.img := rfl
@[simp] theorem State.sigWrite_tly (a : Nat) (v : Word) : (s.sigWrite a v).tly = s.tly := rfl
@[simp] theorem State.sigWrite_gov (a : Nat) (v : Word) : (s.sigWrite a v).gov = s.gov := rfl
@[simp] theorem State.sigWrite_bank (a : Nat) (v : Word) : (s.sigWrite a v).bank = s.bank := rfl
@[simp] theorem State.sigWrite_ax (a : Nat) (v : Word) : (s.sigWrite a v).ax = s.ax := rfl
@[simp] theorem State.sigWrite_sig (a : Nat) (v : Word) : (s.sigWrite a v).sig = s.sig.wr a v := rfl
@[simp] theorem State.sigWrite_posts (a : Nat) (v : Word) : (s.sigWrite a v).posts = s.posts := rfl
@[simp] theorem State.sigWrite_fits (a : Nat) (v : Word) : (s.sigWrite a v).fits = s.fits := rfl
@[simp] theorem State.sigWrite_ntcCfg (a : Nat) (v : Word) : (s.sigWrite a v).ntcCfg = s.ntcCfg := rfl
@[simp] theorem State.sigWrite_ntc (a : Nat) (v : Word) : (s.sigWrite a v).ntc = s.ntc := rfl
@[simp] theorem State.sigWrite_hiLatch (a : Nat) (v : Word) : (s.sigWrite a v).hiLatch = s.hiLatch := rfl
@[simp] theorem State.sigWrite_readData (a : Nat) (v : Word) : (s.sigWrite a v).readData = s.readData := rfl
@[simp] theorem State.sigWrite_out (a : Nat) (v : Word) : (s.sigWrite a v).out = s.out := rfl
@[simp] theorem State.sigWrite_freeCtr (a : Nat) (v : Word) : (s.sigWrite a v).freeCtr = s.freeCtr := rfl
@[simp] theorem State.sigWrite_pending (a : Nat) (v : Word) : (s.sigWrite a v).pending = s.pending := rfl

/-! setE writes sig alone. -/
@[simp] theorem State.setE_variant (n : AxisId) (j k : Nat) (v : Word) : (s.setE n j k v).variant = s.variant := rfl
@[simp] theorem State.setE_cref (n : AxisId) (j k : Nat) (v : Word) : (s.setE n j k v).cref = s.cref := rfl
@[simp] theorem State.setE_clk (n : AxisId) (j k : Nat) (v : Word) : (s.setE n j k v).clk = s.clk := rfl
@[simp] theorem State.setE_pwr (n : AxisId) (j k : Nat) (v : Word) : (s.setE n j k v).pwr = s.pwr := rfl
@[simp] theorem State.setE_sup (n : AxisId) (j k : Nat) (v : Word) : (s.setE n j k v).sup = s.sup := rfl
@[simp] theorem State.setE_rst (n : AxisId) (j k : Nat) (v : Word) : (s.setE n j k v).rst = s.rst := rfl
@[simp] theorem State.setE_flt (n : AxisId) (j k : Nat) (v : Word) : (s.setE n j k v).flt = s.flt := rfl
@[simp] theorem State.setE_hst (n : AxisId) (j k : Nat) (v : Word) : (s.setE n j k v).hst = s.hst := rfl
@[simp] theorem State.setE_seam (n : AxisId) (j k : Nat) (v : Word) : (s.setE n j k v).seam = s.seam := rfl
@[simp] theorem State.setE_can (n : AxisId) (j k : Nat) (v : Word) : (s.setE n j k v).can = s.can := rfl
@[simp] theorem State.setE_alm (n : AxisId) (j k : Nat) (v : Word) : (s.setE n j k v).alm = s.alm := rfl
@[simp] theorem State.setE_ser (n : AxisId) (j k : Nat) (v : Word) : (s.setE n j k v).ser = s.ser := rfl
@[simp] theorem State.setE_sec (n : AxisId) (j k : Nat) (v : Word) : (s.setE n j k v).sec = s.sec := rfl
@[simp] theorem State.setE_img (n : AxisId) (j k : Nat) (v : Word) : (s.setE n j k v).img = s.img := rfl
@[simp] theorem State.setE_tly (n : AxisId) (j k : Nat) (v : Word) : (s.setE n j k v).tly = s.tly := rfl
@[simp] theorem State.setE_gov (n : AxisId) (j k : Nat) (v : Word) : (s.setE n j k v).gov = s.gov := rfl
@[simp] theorem State.setE_bank (n : AxisId) (j k : Nat) (v : Word) : (s.setE n j k v).bank = s.bank := rfl
@[simp] theorem State.setE_ax (n : AxisId) (j k : Nat) (v : Word) : (s.setE n j k v).ax = s.ax := rfl
@[simp] theorem State.setE_sig (n : AxisId) (j k : Nat) (v : Word) : (s.setE n j k v).sig = s.sig.wr (sigAddr n j k) v := rfl
@[simp] theorem State.setE_posts (n : AxisId) (j k : Nat) (v : Word) : (s.setE n j k v).posts = s.posts := rfl
@[simp] theorem State.setE_fits (n : AxisId) (j k : Nat) (v : Word) : (s.setE n j k v).fits = s.fits := rfl
@[simp] theorem State.setE_ntcCfg (n : AxisId) (j k : Nat) (v : Word) : (s.setE n j k v).ntcCfg = s.ntcCfg := rfl
@[simp] theorem State.setE_ntc (n : AxisId) (j k : Nat) (v : Word) : (s.setE n j k v).ntc = s.ntc := rfl
@[simp] theorem State.setE_hiLatch (n : AxisId) (j k : Nat) (v : Word) : (s.setE n j k v).hiLatch = s.hiLatch := rfl
@[simp] theorem State.setE_readData (n : AxisId) (j k : Nat) (v : Word) : (s.setE n j k v).readData = s.readData := rfl
@[simp] theorem State.setE_out (n : AxisId) (j k : Nat) (v : Word) : (s.setE n j k v).out = s.out := rfl
@[simp] theorem State.setE_freeCtr (n : AxisId) (j k : Nat) (v : Word) : (s.setE n j k v).freeCtr = s.freeCtr := rfl
@[simp] theorem State.setE_pending (n : AxisId) (j k : Nat) (v : Word) : (s.setE n j k v).pending = s.pending := rfl

/-! raise writes flt alone. -/
@[simp] theorem State.raise_variant (src : Nat) : (s.raise src).variant = s.variant := rfl
@[simp] theorem State.raise_cref (src : Nat) : (s.raise src).cref = s.cref := rfl
@[simp] theorem State.raise_clk (src : Nat) : (s.raise src).clk = s.clk := rfl
@[simp] theorem State.raise_pwr (src : Nat) : (s.raise src).pwr = s.pwr := rfl
@[simp] theorem State.raise_sup (src : Nat) : (s.raise src).sup = s.sup := rfl
@[simp] theorem State.raise_rst (src : Nat) : (s.raise src).rst = s.rst := rfl
@[simp] theorem State.raise_hst (src : Nat) : (s.raise src).hst = s.hst := rfl
@[simp] theorem State.raise_seam (src : Nat) : (s.raise src).seam = s.seam := rfl
@[simp] theorem State.raise_can (src : Nat) : (s.raise src).can = s.can := rfl
@[simp] theorem State.raise_alm (src : Nat) : (s.raise src).alm = s.alm := rfl
@[simp] theorem State.raise_ser (src : Nat) : (s.raise src).ser = s.ser := rfl
@[simp] theorem State.raise_sec (src : Nat) : (s.raise src).sec = s.sec := rfl
@[simp] theorem State.raise_img (src : Nat) : (s.raise src).img = s.img := rfl
@[simp] theorem State.raise_tly (src : Nat) : (s.raise src).tly = s.tly := rfl
@[simp] theorem State.raise_gov (src : Nat) : (s.raise src).gov = s.gov := rfl
@[simp] theorem State.raise_bank (src : Nat) : (s.raise src).bank = s.bank := rfl
@[simp] theorem State.raise_ax (src : Nat) : (s.raise src).ax = s.ax := rfl
@[simp] theorem State.raise_sig (src : Nat) : (s.raise src).sig = s.sig := rfl
@[simp] theorem State.raise_posts (src : Nat) : (s.raise src).posts = s.posts := rfl
@[simp] theorem State.raise_fits (src : Nat) : (s.raise src).fits = s.fits := rfl
@[simp] theorem State.raise_ntcCfg (src : Nat) : (s.raise src).ntcCfg = s.ntcCfg := rfl
@[simp] theorem State.raise_ntc (src : Nat) : (s.raise src).ntc = s.ntc := rfl
@[simp] theorem State.raise_hiLatch (src : Nat) : (s.raise src).hiLatch = s.hiLatch := rfl
@[simp] theorem State.raise_readData (src : Nat) : (s.raise src).readData = s.readData := rfl
@[simp] theorem State.raise_out (src : Nat) : (s.raise src).out = s.out := rfl
@[simp] theorem State.raise_freeCtr (src : Nat) : (s.raise src).freeCtr = s.freeCtr := rfl
@[simp] theorem State.raise_pending (src : Nat) : (s.raise src).pending = s.pending := rfl

/-! useInj writes flt alone. -/
@[simp] theorem State.useInj_variant : (s.useInj).variant = s.variant := rfl
@[simp] theorem State.useInj_cref : (s.useInj).cref = s.cref := rfl
@[simp] theorem State.useInj_clk : (s.useInj).clk = s.clk := rfl
@[simp] theorem State.useInj_pwr : (s.useInj).pwr = s.pwr := rfl
@[simp] theorem State.useInj_sup : (s.useInj).sup = s.sup := rfl
@[simp] theorem State.useInj_rst : (s.useInj).rst = s.rst := rfl
@[simp] theorem State.useInj_hst : (s.useInj).hst = s.hst := rfl
@[simp] theorem State.useInj_seam : (s.useInj).seam = s.seam := rfl
@[simp] theorem State.useInj_can : (s.useInj).can = s.can := rfl
@[simp] theorem State.useInj_alm : (s.useInj).alm = s.alm := rfl
@[simp] theorem State.useInj_ser : (s.useInj).ser = s.ser := rfl
@[simp] theorem State.useInj_sec : (s.useInj).sec = s.sec := rfl
@[simp] theorem State.useInj_img : (s.useInj).img = s.img := rfl
@[simp] theorem State.useInj_tly : (s.useInj).tly = s.tly := rfl
@[simp] theorem State.useInj_gov : (s.useInj).gov = s.gov := rfl
@[simp] theorem State.useInj_bank : (s.useInj).bank = s.bank := rfl
@[simp] theorem State.useInj_ax : (s.useInj).ax = s.ax := rfl
@[simp] theorem State.useInj_sig : (s.useInj).sig = s.sig := rfl
@[simp] theorem State.useInj_posts : (s.useInj).posts = s.posts := rfl
@[simp] theorem State.useInj_fits : (s.useInj).fits = s.fits := rfl
@[simp] theorem State.useInj_ntcCfg : (s.useInj).ntcCfg = s.ntcCfg := rfl
@[simp] theorem State.useInj_ntc : (s.useInj).ntc = s.ntc := rfl
@[simp] theorem State.useInj_hiLatch : (s.useInj).hiLatch = s.hiLatch := rfl
@[simp] theorem State.useInj_readData : (s.useInj).readData = s.readData := rfl
@[simp] theorem State.useInj_out : (s.useInj).out = s.out := rfl
@[simp] theorem State.useInj_freeCtr : (s.useInj).freeCtr = s.freeCtr := rfl
@[simp] theorem State.useInj_pending : (s.useInj).pending = s.pending := rfl

/-! One axis, bank or controller. -/

theorem State.axis_modAx (n m : AxisId) (f : Axis → Axis) :
    (s.modAx n f).axis m = if m = n then f (s.axis n) else s.axis m := by
  simp only [State.axis, State.modAx, Fin.getElem_fin, Vector.getElem_set]
  by_cases h : m = n
  · simp [h]
  · rw [if_neg h, if_neg fun e : (n : Nat) = m => h (Fin.ext e.symm)]

@[simp] theorem State.axis_modAx_self (n : AxisId) (f : Axis → Axis) : (s.modAx n f).axis n = f (s.axis n) := by
  simp [State.axis_modAx]

theorem State.axis_modAx_other (n m : AxisId) (f : Axis → Axis) (h : m ≠ n) : (s.modAx n f).axis m = s.axis m := by
  simp [State.axis_modAx, h]

theorem State.bnk_modBank (b c : BankId) (f : Bank → Bank) :
    (s.modBank b f).bnk c = if c = b then f (s.bnk b) else s.bnk c := by
  simp only [State.bnk, State.modBank, Fin.getElem_fin, Vector.getElem_set]
  by_cases h : c = b
  · simp [h]
  · rw [if_neg h, if_neg fun e : (b : Nat) = c => h (Fin.ext e.symm)]

@[simp] theorem State.bnk_modBank_self (b : BankId) (f : Bank → Bank) : (s.modBank b f).bnk b = f (s.bnk b) := by
  simp [State.bnk_modBank]

theorem State.can_modCan (c d : CanId) (f : Can → Can) :
    (s.modCan c f).can[d] = if d = c then f s.can[c] else s.can[d] := by
  simp only [State.modCan, Fin.getElem_fin, Vector.getElem_set]
  by_cases h : d = c
  · simp [h]
  · rw [if_neg h, if_neg fun e : (c : Nat) = d => h (Fin.ext e.symm)]

/-- An update of one engine leaves the axis otherwise as it is. -/
theorem State.modEng_axis (n : AxisId) (j : EngId) (f : Eng → Eng) :
    (s.modEng n j f).axis n =
      { s.axis n with clu := { (s.axis n).clu with eng := (s.axis n).clu.eng.set j (f (s.eng n j)) } } := by
  rw [State.modEng, State.modClu, State.axis_modAx_self, State.eng]

@[simp] theorem State.eng_modEng_self (n : AxisId) (j : EngId) (f : Eng → Eng) :
    (s.modEng n j f).eng n j = f (s.eng n j) := by
  rw [State.eng, State.modEng_axis]; simp

/-- An update of one engine leaves every other engine as it is. -/
theorem State.eng_modEng_other (n m : AxisId) (j i : EngId) (f : Eng → Eng) (h : m ≠ n ∨ i ≠ j) :
    (s.modEng n j f).eng m i = s.eng m i := by
  by_cases hn : m = n
  · subst hn
    have hi : i ≠ j := h.resolve_left (fun k => k rfl)
    rw [State.eng, State.modEng_axis, State.eng]
    simp only [Fin.getElem_fin, Vector.getElem_set]
    rw [if_neg fun e : (j : Nat) = i => hi (Fin.ext e.symm)]; rfl
  · rw [State.eng, State.modEng, State.modClu, State.axis_modAx_other _ _ _ _ hn, State.eng]

/-! Updates one after the other. -/

theorem State.modAx_modAx (n : AxisId) (f g : Axis → Axis) :
    (s.modAx n f).modAx n g = s.modAx n fun a => g (f a) := by
  simp [State.modAx]

@[simp] theorem State.modAx_id (n : AxisId) : s.modAx n (fun a => a) = s := by
  simp [State.modAx]

/-- What is sent goes after what was sent. -/
theorem State.emit_emit (o p : Output) : ((s.emit o).emit p).out = s.out ++ [o, p] := by simp

/-- A raised source goes after those on their way; the collector's other state stays as it is. -/
theorem State.raise_flt (src : Nat) : (s.raise src).flt = { s.flt with raised := s.flt.raised ++ [src] } := rfl

/-- Several indices of the free values taken one by one are taken at once. -/
theorem State.bump_bumpBy (k : Nat) : s.bump.bumpBy k = s.bumpBy (k + 1) := by
  simp [State.bump, State.bumpBy]; omega

end Sys2Proof.Machine
end

