-- ==== Sys2Proof/Laws/Engine.lean ====
section
/-! SUPPORT. What an engine does when it issues (09 R246 to R252): the shared operations of its instructions. -/

namespace Sys2Proof.Machine

variable {s : State} {i : Instr} {n : AxisId} {j : EngId}

/-- An engine that does not issue lets an instruction pass without effect. -/
theorem State.issue_idle (h : s.issues i n j = false) (go : State → State) : s.issue i n j go = s := by
  rw [State.issue, if_pos (by simp [h])]

/-- An engine that issues runs the instruction. -/
theorem State.issue_runs (h : Issues s i n j) (go : State → State) : s.issue i n j go = go s := by
  rw [State.issue, if_neg (by simp [h.1]), if_neg (by simp [h.2])]

/-- g0 reads 0, and a write to it is discarded (09 R246). -/
theorem Eng.wr_zero (x : Eng) (v : Word) : x.wr 0 v = x := by rw [Eng.wr, if_pos rfl]

/-- A write of a register is read there. -/
theorem Eng.rd_wr_self (x : Eng) (d : GReg) (v : Word) (h : d ≠ 0) : (x.wr d v).rd d = v := by
  rw [Eng.wr, if_neg h, Eng.rd]; simp [h]

/-- A write of a register leaves the other registers. -/
theorem Eng.rd_wr_other (x : Eng) (d r : GReg) (v : Word) (h : r ≠ d) : (x.wr d v).rd r = x.rd r := by
  rw [Eng.wr]
  split
  · rfl
  · simp only [Eng.rd, Fin.getElem_fin, Vector.getElem_set]
    rw [if_neg fun e : (d : Nat) = r => h (Fin.ext e.symm)]

/-- What an instruction that writes d and FLAGS leaves, in one state. -/
theorem State.alu_wrote (h : Issues s i n j) (d : GReg) (f : Eng → Alu) :
    s.alu i n j d f = s.wrote n j d (f (s.eng n j)).val (f (s.eng n j)).flags := by
  rw [State.alu, State.issue_runs h, State.wrote, State.modEng, State.modEng, State.modClu, State.modClu, State.modAx,
    State.modAx]
  by_cases hd : d = 0
  · simp [hd, Eng.wr, Eng.next, State.eng, State.axis]
  · simp [hd, Eng.wr, Eng.next, State.eng, State.axis]

/-- The same with a free value, whose index is then taken. -/
theorem State.aluFree_wrote (h : Issues s i n j) (d : GReg) (f : Eng → Alu) :
    s.aluFree i n j d f = (s.wrote n j d (f (s.eng n j)).val (f (s.eng n j)).flags).bump := by
  rw [State.aluFree, if_neg (by simp [h.1]), State.alu_wrote h]

/-- An instruction changes its own engine alone. -/
theorem State.alu_other (h : Issues s i n j) (d : GReg) (f : Eng → Alu) (m : AxisId) (l : EngId) (k : m ≠ n ∨ l ≠ j) :
    (s.alu i n j d f).eng m l = s.eng m l := by
  rw [State.alu_wrote h, State.wrote]
  exact State.eng_modEng_other s n m j l _ k

end Sys2Proof.Machine
end

