-- ==== Sys2Proof/Laws/Gates.lean ====
section
/-! SUPPORT. The gates of an axis (02): what each shared operation does to them, and that none turns a gate on while
its complement is on. -/

namespace Sys2Proof.Machine

variable {s : State}

/-- Every gate that is on in `t` is on in `s`. -/
def NoNewOn (s t : State) : Prop :=
  ∀ (n : AxisId) (g : Fin 6), t.ax[n].gdr.gates[g].on = true → s.ax[n].gdr.gates[g].on = true

theorem NoNewOn.refl (s : State) : NoNewOn s s := fun _ _ h => h
theorem NoNewOn.trans {s t u : State} (h : NoNewOn s t) (k : NoNewOn t u) : NoNewOn s u := fun n g e => h n g (k n g e)
theorem NoNewOn.of_ax {t : State} (h : t.ax = s.ax) : NoNewOn s t := fun n g e => by rwa [h] at e

/-- Where no gate turns on, no phase comes to have both its gates on. -/
theorem NoNewOn.oneSideOn {t : State} (h : NoNewOn s t) (hs : ∀ n : AxisId, s.ax[n].oneSideOn) :
    ∀ n : AxisId, t.ax[n].oneSideOn := by
  intro n g e
  have off := hs n g (h n g e)
  cases c : t.ax[n].gdr.gates[complGate g].on with
  | false => rfl
  | true => exact absurd (h n _ c) (by rw [off]; exact Bool.false_ne_true)

/-- What every element's update keeps off, a run over a list keeps off. -/
theorem NoNewOn.foldl {α : Type} (f : State → α → State) (hf : ∀ s a, NoNewOn s (f s a)) (l : List α) (s : State) :
    NoNewOn s (l.foldl f s) := by
  induction l generalizing s with
  | nil => exact NoNewOn.refl s
  | cons a l ih => exact (hf s a).trans (ih _)

/-! Updates of an axis. -/

theorem NoNewOn.modAx (s : State) (n : AxisId) (f : Axis → Axis)
    (hf : ∀ g : Fin 6, (f s.ax[n]).gdr.gates[g].on = true → s.ax[n].gdr.gates[g].on = true) : NoNewOn s (s.modAx n f) := by
  intro m g e
  have k := State.axis_modAx s n m f
  rw [State.axis] at k
  rw [k] at e
  split at e
  · rename_i h; subst h; exact hf g e
  · exact e

theorem NoNewOn.modSns (s : State) (n : AxisId) (f : Sns → Sns) : NoNewOn s (s.modSns n f) :=
  NoNewOn.modAx s n _ fun _ h => h
theorem NoNewOn.modPwm (s : State) (n : AxisId) (f : Pwm → Pwm) : NoNewOn s (s.modPwm n f) :=
  NoNewOn.modAx s n _ fun _ h => h
theorem NoNewOn.modFbk (s : State) (n : AxisId) (f : Fbk → Fbk) : NoNewOn s (s.modFbk n f) :=
  NoNewOn.modAx s n _ fun _ h => h
theorem NoNewOn.modCh (s : State) (n : AxisId) (f : Chain → Chain) : NoNewOn s (s.modCh n f) :=
  NoNewOn.modAx s n _ fun _ h => h
theorem NoNewOn.modClu (s : State) (n : AxisId) (f : Clu → Clu) : NoNewOn s (s.modClu n f) :=
  NoNewOn.modAx s n _ fun _ h => h
theorem NoNewOn.modPh (s : State) (n : AxisId) (p : Fin 3) (f : PwmPhase → PwmPhase) : NoNewOn s (s.modPh n p f) :=
  NoNewOn.modPwm s n _
/-- An update of the gate drive that leaves the gates. -/
theorem NoNewOn.modGdr (s : State) (n : AxisId) (f : Gdr → Gdr) (hf : (f s.ax[n].gdr).gates = s.ax[n].gdr.gates) :
    NoNewOn s (s.modGdr n f) := NoNewOn.modAx s n _ fun g h => by
  have h : (f s.ax[n].gdr).gates[g].on = true := h
  rwa [hf] at h

/-- The gates of axis n after an update of one of them. -/
theorem State.gates_modGate (s : State) (n : AxisId) (g k : Fin 6) (f : GateSt → GateSt) :
    (s.modGate n g f).ax[n].gdr.gates[k] = if k = g then f s.ax[n].gdr.gates[g] else s.ax[n].gdr.gates[k] := by
  have e := State.axis_modAx_self s n fun a => { a with gdr := { a.gdr with gates := a.gdr.gates.set g (f a.gdr.gates[g]) } }
  rw [State.axis] at e
  rw [State.modGate, State.modGdr, e]
  simp only [State.axis, Fin.getElem_fin, Vector.getElem_set]
  by_cases h : k = g
  · simp [h]
  · rw [if_neg h, if_neg fun c : (g : Nat) = k => h (Fin.ext c.symm)]

theorem NoNewOn.modGate (s : State) (n : AxisId) (g : Fin 6) (f : GateSt → GateSt)
    (hf : ∀ x, (f x).on = true → x.on = true) : NoNewOn s (s.modGate n g f) := by
  refine NoNewOn.modAx s n _ fun k h => ?_
  simp only [Fin.getElem_fin, Vector.getElem_set] at h
  split at h
  · rename_i c
    have c : g = k := Fin.ext c
    subst c
    exact hf _ h
  · exact h

theorem NoNewOn.raise (s : State) (src : Nat) : NoNewOn s (s.raise src) := NoNewOn.of_ax rfl

/-! Forcing gates. -/

/-- A falling command turns no gate on, and its gate is off with no command. -/
theorem NoNewOn.gateFall (s : State) (n : AxisId) (g : Fin 6) : NoNewOn s (s.gateFall n g) := by
  simp only [State.gateFall]
  refine NoNewOn.trans ?_ (NoNewOn.modPh _ _ _ _)
  split
  · exact NoNewOn.modGate _ _ _ _ fun _ h => absurd h Bool.false_ne_true
  · exact (NoNewOn.modGate _ _ _ _ fun _ h => absurd h Bool.false_ne_true).trans (NoNewOn.modSns _ _ _)

theorem NoNewOn.lowDue (s : State) (n : AxisId) (p : Fin 3) : NoNewOn s (s.lowDue n p) := by
  unfold State.lowDue
  extract_lets g s1
  split
  · exact NoNewOn.refl s
  · have h1 : NoNewOn s s1 := NoNewOn.modGate s n (loGate p) _ fun _ h => h
    exact h1.trans (NoNewOn.modPh s1 n p _)

theorem NoNewOn.forceGates (s : State) (n : AxisId) : NoNewOn s (s.forceGates n) := by
  simp only [State.forceGates]
  split
  · exact NoNewOn.refl s
  · exact NoNewOn.foldl _ (fun s g => NoNewOn.gateFall s n g) _ s
  · exact (NoNewOn.foldl _ (fun s g => NoNewOn.gateFall s n g) _ s).trans
      (NoNewOn.foldl _ (fun s p => NoNewOn.lowDue s n p) _ _)

theorem NoNewOn.latch (s : State) (n : AxisId) (bits : BitVec 16) (k : Nat) (two : Bool) :
    NoNewOn s (s.latch n bits k two) := by
  unfold State.latch
  extract_lets w s1 s2
  split
  · exact NoNewOn.refl s
  · have h1 : NoNewOn s s1 := by
      refine NoNewOn.modAx s n _ fun g h => ?_
      simp [Gdr.latch] at h
    exact (h1.trans (NoNewOn.modPwm s1 n _)).trans (NoNewOn.raise s2 _)

/-- A command that rises turns no gate on. -/
theorem NoNewOn.gateRise (s : State) (n : AxisId) (g : Fin 6) : NoNewOn s (s.gateRise n g) := by
  unfold State.gateRise
  split
  · exact NoNewOn.refl s
  · extract_lets p d uv blocked t s1 s2
    have h1 : NoNewOn s s1 := NoNewOn.modPh s n p _
    have h2 : NoNewOn s1 s2 := NoNewOn.modGate s1 n g _ fun _ h => h
    split
    · exact (h1.trans h2).trans (NoNewOn.latch s2 _ _ _ _)
    · exact h1.trans h2

theorem complGate_complGate (g : Fin 6) : complGate (complGate g) = g := by revert g; decide
theorem complGate_ne (g : Fin 6) : complGate g ≠ g := by revert g; decide

/-- A gate that turns on while its complement is off leaves no phase with both its gates on. -/
theorem State.modGate_oneSideOn (s : State) (n : AxisId) (g : Fin 6) (f : GateSt → GateSt)
    (hs : ∀ m : AxisId, s.ax[m].oneSideOn) (off : s.ax[n].gdr.gates[complGate g].on = false) :
    ∀ m : AxisId, (s.modGate n g f).ax[m].oneSideOn := by
  intro m
  by_cases hm : m = n
  · subst hm
    intro k hk
    rw [State.gates_modGate] at hk ⊢
    by_cases h1 : complGate k = g
    · have hkg : k = complGate g := by rw [← h1, complGate_complGate]
      rw [if_neg (by rw [hkg]; exact complGate_ne g), hkg, off] at hk
      exact absurd hk Bool.false_ne_true
    · rw [if_neg h1]
      by_cases h2 : k = g
      · rw [h2]; exact off
      · rw [if_neg h2] at hk
        exact hs m k hk
  · have e := State.axis_modAx_other s n m
      (fun a => { a with gdr := { a.gdr with gates := a.gdr.gates.set g (f a.gdr.gates[g]) } }) hm
    have e : (s.modGate n g f).ax[m] = s.ax[m] := e
    rw [e]
    exact hs m

theorem NoNewOn.bstHolds (s : State) (n : AxisId) (g : Fin 6) : NoNewOn s (s.bstHolds n g) := by
  unfold State.bstHolds
  extract_lets s1
  have h1 : NoNewOn s s1 := NoNewOn.modGate s n g _ fun _ h => h
  split
  · exact h1
  · exact h1.trans (NoNewOn.latch s1 _ _ _ _)

/-- A turn-on acts only while the complement is off, so no phase comes to have both its gates on. -/
theorem State.turnOn_oneSideOn (s : State) (n : AxisId) (g : Fin 6) (hs : ∀ m : AxisId, s.ax[m].oneSideOn) :
    ∀ m : AxisId, (s.turnOn n g).ax[m].oneSideOn := by
  unfold State.turnOn
  extract_lets d x c floor lo s1 s2
  split
  · exact hs
  rename_i hc
  split
  · exact NoNewOn.oneSideOn (NoNewOn.bstHolds s n g) hs
  · have off : c.on = false := by
      simp only [Bool.or_eq_true, not_or] at hc
      exact Bool.eq_false_iff.mpr hc.1.1.2
    have h1 : ∀ m : AxisId, s1.ax[m].oneSideOn :=
      NoNewOn.oneSideOn (NoNewOn.modGate s n (complGate g) _ fun _ h => h) hs
    have off1 : s1.ax[n].gdr.gates[complGate g].on = false := by
      rw [State.gates_modGate, if_pos rfl]; exact off
    have h2 : ∀ m : AxisId, s2.ax[m].oneSideOn := State.modGate_oneSideOn s1 n g _ h1 off1
    split
    · exact h2
    · exact NoNewOn.oneSideOn (NoNewOn.modSns s2 n _) h2

end Sys2Proof.Machine
end

