-- ==== Sys2Proof/Laws/Rings.lean ====
section
/-! SUPPORT. What the module does with a descriptor that it takes (11 R316 to R321), and what a completion writes. -/

namespace Sys2Proof.Machine

variable {s u : State} {h : DescHdr}

/-! The first entry that a test picks. -/

@[simp] theorem modFirst_nil {α : Type} (p : α → Bool) (f : α → α) : modFirst p f [] = [] := rfl
@[simp] theorem dropFirst_nil {α : Type} (p : α → Bool) : dropFirst p ([] : List α) = [] := rfl
theorem modFirst_cons_pos {α : Type} (p : α → Bool) (f : α → α) (a : α) (l : List α) (ha : p a = true) :
    modFirst p f (a :: l) = f a :: l := by rw [modFirst, if_pos ha]
theorem modFirst_cons_neg {α : Type} (p : α → Bool) (f : α → α) (a : α) (l : List α) (ha : p a = false) :
    modFirst p f (a :: l) = a :: modFirst p f l := by rw [modFirst, if_neg (by simp [ha])]

/-- Changing an entry changes no length. -/
@[simp] theorem modFirst_length {α : Type} (p : α → Bool) (f : α → α) (l : List α) : (modFirst p f l).length = l.length := by
  induction l with
  | nil => rfl
  | cons a l ih => rw [modFirst]; split <;> simp [ih]

/-- Nothing changes where no entry is picked. -/
theorem modFirst_none {α : Type} (p : α → Bool) (f : α → α) (l : List α) (hl : ∀ a ∈ l, p a = false) :
    modFirst p f l = l := by
  induction l with
  | nil => rfl
  | cons a l ih =>
    rw [modFirst_cons_neg p f a l (hl a (List.mem_cons_self ..)), ih fun b hb => hl b (List.mem_cons_of_mem _ hb)]

/-- The entry picked is the first. -/
theorem modFirst_append {α : Type} (p : α → Bool) (f : α → α) (l r : List α) (a : α) (hl : ∀ b ∈ l, p b = false)
    (ha : p a = true) : modFirst p f (l ++ a :: r) = l ++ f a :: r := by
  induction l with
  | nil => exact modFirst_cons_pos p f a r ha
  | cons b l ih =>
    rw [List.cons_append, modFirst_cons_neg p f b _ (hl b (List.mem_cons_self ..)),
      ih fun c hc => hl c (List.mem_cons_of_mem _ hc), List.cons_append]

/-! Completing. -/

/-- Without an entry that answers, a completion does nothing. -/
theorem State.completeIf_none (p : InFlight → Bool) (src : RingSrc) (tag : BitVec 16) (st : Status) (info : Word)
    (time : Option Dword)
    (hn : s.hst.inflight.find? (fun d => d.src = src && d.tag = tag && d.act ≠ .done && p d) = none) :
    s.completeIf p src tag st info time = s := by
  simp only [State.completeIf, hn]

/-- A completion changes the host link and, for a tunnel, its controller; nothing else. -/
theorem State.completeIf_frame (p : InFlight → Bool) (src : RingSrc) (tag : BitVec 16) (st : Status) (info : Word)
    (time : Option Dword) : ∃ h c, s.completeIf p src tag st info time = { s with hst := h, can := c } := by
  simp only [State.completeIf]
  split
  · exact ⟨s.hst, s.can, rfl⟩
  · split <;> split <;> cases src <;> exact ⟨_, _, rfl⟩

/-- The descriptor being decoded completes with one completion that waits to be written, where its entry answers
and is not mute. -/
theorem State.done_cplWait (d : InFlight) (st : Status) (info : Word)
    (hd : s.hst.inflight.find? (fun d => d.src = h.src && d.tag = h.tag && d.act ≠ .done && d.act = .fetched) = some d)
    (hm : d.mute = false) :
    (s.done h st info).hst.cplWait = s.hst.cplWait ++
      [{ src := h.src, tag := h.tag, status := st, info := info, time := none, irq := d.flags.getLsbD 1 }] := by
  simp only [State.done, State.completeIf, hd, hm]
  rw [if_neg Bool.false_ne_true]
  split
  · cases h.src <;> rfl
  · rfl

theorem State.done_frame (st : Status) (info : Word) : ∃ k c, s.done h st info = { s with hst := k, can := c } :=
  State.completeIf_frame _ _ _ _ _ _

/-! Decoding. -/

/-- A failed chain changes neither the mode of the supervisor nor anything but a mark. -/
@[simp] theorem State.setChainFail_sup (src : RingSrc) (v : Bool) : (s.setChainFail src v).sup = s.sup := by cases src <;> rfl

/-- A descriptor that the module takes meets its own checks and, where they pass, acts. -/
theorem State.decodeNow_takes {i : Instr} (ht : Takes h s u) (hsp : s.spelled h i = true) (served : Bool) (pre : State → Check) (run : State → State) :
    s.decodeNow h served i pre run = match pre u with
      | some (st, info) => u.done h st info
      | none => run u := by
  obtain ⟨hr, hf, htm, hc, t, ha, hu⟩ := ht
  have hsup : u.sup = .ready := by
    have e : t.sup = s.sup := by
      simp only [State.accept] at ha
      split at ha
      · cases ha
      · split at ha
        · split at ha
          · cases ha
          · cases ha
            split
            · exact State.setChainFail_sup _ _
            · rfl
        · cases ha
    rw [hu]
    split
    · exact e.trans hr
    · exact e.trans hr
  have n1 : ¬ (h.flags.toNat / 16 ≠ 0) := fun k => k hf
  simp only [State.decodeNow, State.decode, ha, hsp, Option.filter_some, if_true, ← hu, hc, htm, hsup, if_neg n1]
  cases pre u <;> rfl

/-- A check that fails completes the descriptor, whose action then does not run. -/
theorem State.decodeNow_fails {i : Instr} (ht : Takes h s u) (hsp : s.spelled h i = true) (served : Bool) (pre : State → Check) (run : State → State)
    (st : Status) (info : Word) (hp : pre u = some (st, info)) : s.decodeNow h served i pre run = u.done h st info := by
  rw [State.decodeNow_takes ht hsp, hp]

/-- Where the checks pass the action runs. -/
theorem State.decodeNow_runs {i : Instr} (ht : Takes h s u) (hsp : s.spelled h i = true) (served : Bool) (pre : State → Check) (run : State → State)
    (hp : pre u = none) : s.decodeNow h served i pre run = run u := by
  rw [State.decodeNow_takes ht hsp, hp]

/-- A command that is not what the next fetched descriptor spells does nothing. -/
theorem State.decodeNow_other {i : Instr} (hsp : s.spelled h i = false) (served : Bool) (pre : State → Check) (run : State → State) :
    s.decodeNow h served i pre run = s := by
  simp only [State.decodeNow, State.decode, hsp]
  cases s.accept h <;> rfl

/-! Checks. -/

@[simp] theorem firstFail_nil : firstFail [] = none := rfl
@[simp] theorem firstFail_none (l : List Check) : firstFail (none :: l) = firstFail l := rfl
@[simp] theorem firstFail_some (e : Status × Word) (l : List Check) : firstFail (some e :: l) = some e := rfl
@[simp] theorem failIf_true (st : Status) (info : Word) : failIf true st info = some (st, info) := rfl
@[simp] theorem failIf_false (st : Status) (info : Word) : failIf false st info = none := rfl

/-- Checks pass together when each passes. -/
theorem firstFail_eq_none (l : List Check) : firstFail l = none ↔ ∀ c ∈ l, c = none := by
  induction l with
  | nil => simp
  | cons c l ih => cases c <;> simp [ih]

/-- The named axes pass when they are present and on. -/
theorem State.axesCheck_none (m : Dword) (ha : s.absentMask m = false) (ho : s.offMask m = false) :
    s.axesCheck m = none := by rw [State.axesCheck, ha, ho]; rfl

/-- An absent axis gives ABSENT, whatever its domain (00 R4). -/
theorem State.axesCheck_absent (m : Dword) (ha : s.absentMask m = true) : s.axesCheck m = some (.absent, 0#32) := by
  rw [State.axesCheck, ha]; rfl

end Sys2Proof.Machine
end

