-- ==== Sys2Proof/Laws/GatesAxes.lean ====
section
/-! SUPPORT. The operations that move an axis between its states turn no gate on. -/

namespace Sys2Proof.Machine

variable (s : State)

theorem NoNewOn.completeIf (p : InFlight → Bool) (src : RingSrc) (tag : BitVec 16) (st : Status) (info : Word)
    (time : Option Dword) : NoNewOn s (s.completeIf p src tag st info time) := by
  obtain ⟨h, c, e⟩ := State.completeIf_frame (s := s) p src tag st info time
  rw [e]
  exact NoNewOn.of_ax rfl

theorem NoNewOn.completeAll (p : InFlight → Bool) (st : Status) (info : Word) : NoNewOn s (s.completeAll p st info) :=
  NoNewOn.foldl _ (fun _ _ => NoNewOn.completeIf _ _ _ _ _ _ _) _ s

theorem NoNewOn.ctmWrite (n : AxisId) (off : Nat) (bs : List Byte) : NoNewOn s (s.ctmWrite n off bs) :=
  NoNewOn.modClu s n _

theorem NoNewOn.modEng (n : AxisId) (j : EngId) (f : Eng → Eng) : NoNewOn s (s.modEng n j f) := NoNewOn.modClu s n _

theorem NoNewOn.noteTorque (n : AxisId) : NoNewOn s (s.noteTorque n) := NoNewOn.of_ax rfl

theorem NoNewOn.segFlush (n : AxisId) : NoNewOn s (s.segFlush n) := by
  unfold State.segFlush
  extract_lets s1
  have h1 : NoNewOn s s1 := NoNewOn.foldl _ (fun _ _ => NoNewOn.ctmWrite _ _ _ _) _ s
  have h2 : NoNewOn s1 (s1.setOut n 10 1 0#32) := (NoNewOn.of_ax rfl).trans (NoNewOn.modCh (s1.setE n 10 1 0#32) n _)
  exact (h1.trans h2).trans (NoNewOn.modCh _ n _)

theorem NoNewOn.beginStop (n : AxisId) : NoNewOn s (s.beginStop n) := by
  unfold State.beginStop
  split
  · exact NoNewOn.refl s
  · extract_lets r short wm s1 s2
    have h1 : NoNewOn s s1 := NoNewOn.modCh s n _
    have h2 : NoNewOn s1 s2 := by
      by_cases k : short
      · rw [show s2 = s1 from if_pos k]; exact NoNewOn.refl s1
      · rw [show s2 = s1.segFlush n from if_neg k]; exact NoNewOn.segFlush s1 n
    exact (h1.trans h2).trans (NoNewOn.forceGates s2 n)

theorem NoNewOn.uncharge (m : AxisId) : NoNewOn s (s.uncharge m) := by
  unfold State.uncharge
  split
  · exact (NoNewOn.modCh s m _).trans (NoNewOn.modPwm _ m _)
  · exact NoNewOn.refl s

theorem NoNewOn.forAxes (l : List AxisId) (f : AxisId → State → State) (hf : ∀ n s, NoNewOn s (f n s)) :
    NoNewOn s (s.forAxes l f) := NoNewOn.foldl _ (fun s n => hf n s) l s

theorem NoNewOn.withFits (l : List Fit) : NoNewOn s { s with fits := l } := NoNewOn.of_ax rfl

theorem NoNewOn.endFittings (n : AxisId) (st : Status) (why : BitVec 8) : NoNewOn s (s.endFittings n st why) :=
  (NoNewOn.withFits s _).trans
    (NoNewOn.forAxes _ _ _ fun m u => by
      split
      · exact NoNewOn.uncharge u m
      · exact (NoNewOn.uncharge u m).trans (NoNewOn.beginStop _ m))

theorem NoNewOn.settleRuns : NoNewOn s s.settleRuns := by
  refine NoNewOn.foldl _ (fun u d => ?_) _ s
  dsimp only
  split
  · split
    · exact NoNewOn.refl u
    · split
      · exact NoNewOn.completeIf u _ _ _ _ _ _
      · exact NoNewOn.completeIf u _ _ _ _ _ _
  · exact NoNewOn.refl u

theorem NoNewOn.settleFits : NoNewOn s s.settleFits := by
  refine NoNewOn.foldl _ (fun u f => ?_) _ s
  dsimp only
  split
  · exact NoNewOn.refl u
  · rename_i st why _
    have h1 := NoNewOn.foldl (fun (s : State) (e : AxisId × AxMode) =>
      if s.atRest e.1 then s.modCh e.1 fun c => { c with mode := e.2 } else s) (fun v e => by
        split
        · exact NoNewOn.modCh v _ _
        · exact NoNewOn.refl v) f.prevMode u
    split
    · exact (h1.trans (NoNewOn.completeIf _ _ _ _ _ _ _)).trans (NoNewOn.withFits _ _)
    · exact h1

theorem NoNewOn.sigWrites (l : List (Nat × Word)) : NoNewOn s (l.foldl (fun s e => s.sigWrite e.1 e.2) s) :=
  NoNewOn.foldl (fun (s : State) (e : Nat × Word) => s.sigWrite e.1 e.2) (fun _ _ => NoNewOn.of_ax rfl) l s

theorem NoNewOn.takeWaiting (n : AxisId) : NoNewOn s (s.takeWaiting n) := by
  unfold State.takeWaiting
  extract_lets mine s1
  split
  · exact NoNewOn.refl s
  · have h1 : NoNewOn s s1 := NoNewOn.of_ax rfl
    exact h1.trans (NoNewOn.sigWrites s1 mine)

theorem NoNewOn.sendSafe (n : AxisId) (st : AxState) (why : Status) : NoNewOn s (s.sendSafe n st why) := by
  unfold State.sendSafe
  extract_lets old s1 s2 e40 s3 s4
  have h1 : NoNewOn s s1 := NoNewOn.endFittings s n why 0#8
  have h2 : NoNewOn s1 s2 := by
    show NoNewOn s1 (if old = .charging then _ else s1)
    split
    · exact NoNewOn.of_ax rfl
    · exact NoNewOn.refl s1
  have h3 : NoNewOn s2 s3 := NoNewOn.modCh s2 n _
  have h4 : NoNewOn s3 s4 := (NoNewOn.modPwm s3 n _).trans (NoNewOn.takeWaiting _ n)
  have h5 : NoNewOn s4 ((s4.forceGates n).noteTorque n) := (NoNewOn.forceGates s4 n).trans (NoNewOn.noteTorque _ n)
  clear_value s4
  exact ((((h1.trans h2).trans h3).trans h4).trans h5).trans ((NoNewOn.settleRuns _).trans (NoNewOn.settleFits _))

theorem NoNewOn.dropToHold (n : AxisId) : NoNewOn s (s.dropToHold n) := by
  unfold State.dropToHold
  split
  iterate 4 exact NoNewOn.sendSafe s n _ _
  exact NoNewOn.forceGates s n

theorem NoNewOn.evalGate (b : BankId) : NoNewOn s (s.evalGate b) := by
  unfold State.evalGate
  extract_lets old new s1
  have h1 : NoNewOn s s1 := NoNewOn.of_ax rfl
  clear_value s1
  split
  · exact h1.trans (NoNewOn.forAxes s1 _ _ fun n u => (NoNewOn.dropToHold u n).trans (NoNewOn.noteTorque _ n))
  · split
    · exact h1.trans (NoNewOn.forAxes s1 _ _ fun n u => NoNewOn.forceGates u n)
    · exact h1

theorem NoNewOn.evalGates : NoNewOn s s.evalGates := NoNewOn.foldl _ (fun u b => NoNewOn.evalGate u b) _ s

theorem NoNewOn.settleLens (n : AxisId) : NoNewOn s (s.settleLens n) := by
  unfold State.settleLens
  refine NoNewOn.foldl _ (fun u d => ?_) s.hst.inflight s
  generalize d.act = act
  split
  · split
    · exact NoNewOn.refl u
    · split
      · exact NoNewOn.completeIf u _ _ _ _ _ _
      · split
        · exact NoNewOn.refl u
        · exact (NoNewOn.ctmWrite u _ _ _).trans (NoNewOn.completeIf _ _ _ _ _ _ _)
  · exact NoNewOn.refl u

theorem NoNewOn.noFrames (n : AxisId) (j : EngId) :
    NoNewOn s (if j = 0 then s.modClu n fun c => { c with frames := [] } else s) := by
  split
  · exact NoNewOn.modClu s n _
  · exact NoNewOn.refl s

theorem NoNewOn.clearPublic (n : AxisId) (j : EngId) : NoNewOn s (s.clearPublic n j) :=
  (NoNewOn.of_ax rfl).trans
    (NoNewOn.modCh { s with sig := s.sig.clear (sigAddr n j.val 0) (sigAddr n j.val 1024) } n _)

theorem NoNewOn.openStop (n : AxisId) (j : EngId) : NoNewOn s (s.openStop n j) := by
  unfold State.openStop
  extract_lets s1
  have h0 : NoNewOn (s.modEng n j Eng.stop) s1 := NoNewOn.clearPublic _ n j
  have h1 : NoNewOn s s1 := (NoNewOn.modEng s n j Eng.stop).trans h0
  exact (h1.trans (NoNewOn.noFrames s1 n j)).trans (NoNewOn.settleLens _ n)

theorem NoNewOn.recover (n : AxisId) (j : EngId) (cause : BitVec 2) : NoNewOn s (s.recover n j cause) := by
  unfold State.recover
  split
  · exact NoNewOn.refl s
  · extract_lets s1 s2 s3 s4 s5
    have h2 : NoNewOn s s2 := (NoNewOn.sendSafe s n _ _).trans (NoNewOn.completeAll _ _ _ _)
    have h3 : NoNewOn s2 s3 := NoNewOn.modClu s2 n _
    clear_value s3
    have h4 : NoNewOn s3 s4 := NoNewOn.of_ax rfl
    have h5 : NoNewOn s4 s5 := NoNewOn.modCh s4 n _
    have h6 : NoNewOn s5 (s5.clearCluster n) :=
      (NoNewOn.of_ax rfl).trans (NoNewOn.modCh { s5 with sig := s5.sig.clear (16384 * n.val) (16384 * n.val + 16384) } n _)
    exact (((h2.trans h3).trans h4).trans h5).trans h6

end Sys2Proof.Machine
end

