-- ==== Sys2Proof/Laws/Mem.lean ====
section
/-! SUPPORT. The laws of the sparse memories: a read after a write, the canonical form and its keeping by every
memory operation, and that two memories in that form that read alike are the same list. -/

namespace Sys2Proof.Machine

variable {w : Nat} (d : Nat → BitVec w)

/-! Below the first entry. -/

/-- A form that starts above `lo` starts above anything lower. -/
theorem Mem.wfFrom_lower (m : Mem w) (lo k : Nat) (hk : k ≤ lo) (h : Mem.wfFrom d lo m = true) :
    Mem.wfFrom d k m = true := by
  cases m with
  | nil => rfl
  | cons e m =>
    simp only [Mem.wfFrom, Bool.and_eq_true, decide_eq_true_eq] at h ⊢
    exact ⟨⟨by omega, h.1.2⟩, h.2⟩

/-- Below the first entry every address reads its default. -/
theorem Mem.get_below (m : Mem w) (lo a : Nat) (ha : a < lo) (h : Mem.wfFrom d lo m = true) : Mem.get d m a = d a := by
  induction m generalizing lo with
  | nil => rfl
  | cons e m ih =>
    obtain ⟨b, u⟩ := e
    simp only [Mem.wfFrom, Bool.and_eq_true, decide_eq_true_eq] at h
    rw [Mem.get, if_neg (by omega), ih (b + 1) (by omega) h.2]

/-! Reading after writing. -/

@[simp] theorem Mem.get_nil (a : Nat) : Mem.get d [] a = d a := rfl

/-- What is written at an address is read there. -/
@[simp] theorem Mem.get_set_self (m : Mem w) (a : Nat) (v : BitVec w) (h : Mem.wf d m = true) :
    Mem.get d (Mem.set d m a v) a = v := by
  suffices H : ∀ lo, Mem.wfFrom d lo m = true → Mem.get d (Mem.set d m a v) a = v from H 0 h
  induction m with
  | nil =>
    intro lo _
    rw [Mem.set]; split <;> simp_all [Mem.get]
  | cons e m ih =>
    intro lo hw
    obtain ⟨b, u⟩ := e
    have hw' := hw
    simp only [Mem.wfFrom, Bool.and_eq_true, decide_eq_true_eq] at hw'
    rw [Mem.set]
    by_cases h1 : a < b
    · rw [if_pos h1]
      by_cases h2 : v = d a
      · rw [if_pos h2, Mem.get, if_neg (by omega), Mem.get_below d m (b + 1) a (by omega) hw'.2, h2]
      · rw [if_neg h2, Mem.get, if_pos rfl]
    · rw [if_neg h1]
      by_cases h2 : a = b
      · rw [if_pos h2]
        by_cases h3 : v = d a
        · rw [if_pos h3, Mem.get_below d m (b + 1) a (by omega) hw'.2, h3]
        · rw [if_neg h3, Mem.get, if_pos rfl]
      · rw [if_neg h2, Mem.get, if_neg h2]
        exact ih (Mem.wfFrom_lower d m (b + 1) 0 (by omega) hw'.2) (b + 1) hw'.2

/-- A write leaves every other address as it was; no canonical form is needed. -/
@[simp] theorem Mem.get_set_other (m : Mem w) (a b : Nat) (v : BitVec w) (h : b ≠ a) :
    Mem.get d (Mem.set d m a v) b = Mem.get d m b := by
  induction m with
  | nil => rw [Mem.set]; split <;> simp [Mem.get, h]
  | cons e m ih =>
    obtain ⟨c, u⟩ := e
    rw [Mem.set]
    by_cases h1 : a < c
    · rw [if_pos h1]; split
      · rfl
      · rw [Mem.get, if_neg h]
    · rw [if_neg h1]
      by_cases h2 : a = c
      · rw [if_pos h2]
        subst h2
        split <;> simp [Mem.get, h]
      · rw [if_neg h2, Mem.get, Mem.get, ih]

/-! The canonical form. -/

@[simp] theorem Mem.wf_nil : Mem.wf d [] = true := rfl

theorem Mem.wfFrom_set (m : Mem w) (a lo : Nat) (v : BitVec w) (ha : lo ≤ a) (h : Mem.wfFrom d lo m = true) :
    Mem.wfFrom d lo (Mem.set d m a v) = true := by
  induction m generalizing lo with
  | nil =>
    rw [Mem.set]; split
    · rfl
    · simp [Mem.wfFrom, *]
  | cons e m ih =>
    obtain ⟨b, u⟩ := e
    have hw := h
    simp only [Mem.wfFrom, Bool.and_eq_true, decide_eq_true_eq] at hw
    rw [Mem.set]
    by_cases h1 : a < b
    · rw [if_pos h1]; split
      · exact h
      · simp only [Mem.wfFrom, Bool.and_eq_true, decide_eq_true_eq]
        exact ⟨⟨ha, ‹_›⟩, ⟨by omega, hw.1.2⟩, hw.2⟩
    · rw [if_neg h1]
      by_cases h2 : a = b
      · rw [if_pos h2]; split
        · exact Mem.wfFrom_lower d m (b + 1) lo (by omega) hw.2
        · subst h2
          simp only [Mem.wfFrom, Bool.and_eq_true, decide_eq_true_eq]
          exact ⟨⟨ha, ‹_›⟩, hw.2⟩
      · rw [if_neg h2]
        simp only [Mem.wfFrom, Bool.and_eq_true, decide_eq_true_eq]
        exact ⟨hw.1, ih (b + 1) (by omega) hw.2⟩

/-- A write keeps the canonical form. -/
@[simp] theorem Mem.wf_set (m : Mem w) (a : Nat) (v : BitVec w) (h : Mem.wf d m = true) :
    Mem.wf d (Mem.set d m a v) = true := Mem.wfFrom_set d m a 0 v (Nat.zero_le a) h

theorem Mem.wf_wr (m : Mem w) (a : Nat) (v : BitVec w) (h : Mem.wf zeroAt m = true) :
    Mem.wf zeroAt (m.wr a v) = true := Mem.wf_set zeroAt m a v h

/-- A write of several words keeps the canonical form. -/
theorem Mem.wf_wrList (vs : List (BitVec w)) (m : Mem w) (a : Nat) (h : Mem.wf zeroAt m = true) :
    Mem.wf zeroAt (m.wrList a vs) = true := by
  induction vs generalizing m a with
  | nil => exact h
  | cons v vs ih => exact ih _ _ (Mem.wf_wr m a v h)

theorem Mem.wfFrom_filter (p : Nat × BitVec w → Bool) (m : Mem w) (lo : Nat) (h : Mem.wfFrom d lo m = true) :
    Mem.wfFrom d lo (m.filter p) = true := by
  induction m generalizing lo with
  | nil => rfl
  | cons e m ih =>
    obtain ⟨b, u⟩ := e
    simp only [Mem.wfFrom, Bool.and_eq_true, decide_eq_true_eq] at h
    rw [List.filter]; split
    · simp only [Mem.wfFrom, Bool.and_eq_true, decide_eq_true_eq]
      exact ⟨h.1, ih _ h.2⟩
    · exact Mem.wfFrom_lower d _ (b + 1) lo (by omega) (ih _ h.2)

/-- Leaving entries out keeps the canonical form. -/
theorem Mem.wf_filter (p : Nat × BitVec w → Bool) (m : Mem w) (h : Mem.wf d m = true) :
    Mem.wf d (m.filter p) = true := Mem.wfFrom_filter d p m 0 h

/-- Clearing a range keeps the canonical form. -/
theorem Mem.wf_clear (m : Mem w) (lo hi : Nat) (h : Mem.wf d m = true) : Mem.wf d (m.clear lo hi) = true :=
  Mem.wf_filter d _ m h

/-! What an operation reads as afterwards. -/

theorem Mem.get_filter_kept (p : Nat × BitVec w → Bool) (m : Mem w) (a : Nat) (hp : ∀ v, p (a, v) = true) :
    Mem.get d (m.filter p) a = Mem.get d m a := by
  induction m with
  | nil => rfl
  | cons e m ih =>
    obtain ⟨b, u⟩ := e
    rw [List.filter]; split
    · rw [Mem.get, Mem.get, ih]
    · rename_i hb
      rw [Mem.get, ih, if_neg]
      rintro rfl
      simp [hp] at hb

theorem Mem.get_filter_dropped (p : Nat × BitVec w → Bool) (m : Mem w) (a : Nat) (hp : ∀ v, p (a, v) = false) :
    Mem.get d (m.filter p) a = d a := by
  induction m with
  | nil => rfl
  | cons e m ih =>
    obtain ⟨b, u⟩ := e
    rw [List.filter]; split
    · rename_i hb
      rw [Mem.get, ih, if_neg]
      rintro rfl
      simp [hp] at hb
    · exact ih

/-- Clearing a range gives its addresses their default. -/
theorem Mem.get_clear_in (m : Mem w) (lo hi a : Nat) (h : lo ≤ a ∧ a < hi) : Mem.get d (m.clear lo hi) a = d a :=
  Mem.get_filter_dropped d _ m a fun v => by simp; omega

/-- Clearing a range leaves the other addresses. -/
theorem Mem.get_clear_out (m : Mem w) (lo hi a : Nat) (h : a < lo ∨ hi ≤ a) :
    Mem.get d (m.clear lo hi) a = Mem.get d m a :=
  Mem.get_filter_kept d _ m a fun v => by simp; omega

/-- Several words written from `a` leave every address below `a` and every address past them. -/
theorem Mem.rd_wrList_out (vs : List (BitVec w)) (m : Mem w) (a b : Nat) (h : b < a ∨ a + vs.length ≤ b) :
    (m.wrList a vs).rd b = m.rd b := by
  induction vs generalizing m a with
  | nil => rfl
  | cons v vs ih =>
    rw [List.length_cons] at h
    rw [Mem.wrList, ih _ _ (by omega)]
    exact Mem.get_set_other zeroAt m a b v (by omega)

/-- Word `k` of several written from `a` is read at `a + k`. -/
theorem Mem.rd_wrList_in (vs : List (BitVec w)) (m : Mem w) (a k : Nat) (hm : Mem.wf zeroAt m = true)
    (h : k < vs.length) : (m.wrList a vs).rd (a + k) = vs[k] := by
  induction vs generalizing m a k with
  | nil => exact absurd h (Nat.not_lt_zero k)
  | cons v vs ih =>
    cases k with
    | zero =>
      rw [Mem.wrList, Mem.rd_wrList_out _ _ _ _ (by omega)]
      exact Mem.get_set_self zeroAt m a v hm
    | succ k =>
      rw [Mem.wrList, show a + (k + 1) = a + 1 + k by omega, ih _ _ k (Mem.wf_wr m a v hm) (by simpa using h)]
      rfl

/-! Equal reads, equal memories. -/

/-- Two memories in their canonical form that read alike at every address are the same data. -/
theorem Mem.eq_of_get (m k : Mem w) (hm : Mem.wf d m = true) (hk : Mem.wf d k = true)
    (h : ∀ a, Mem.get d m a = Mem.get d k a) : m = k := by
  suffices H : ∀ (m k : Mem w) lo, Mem.wfFrom d lo m = true → Mem.wfFrom d lo k = true →
      (∀ a, Mem.get d m a = Mem.get d k a) → m = k from H m k 0 hm hk h
  intro m
  induction m with
  | nil =>
    intro k lo _ hk h
    cases k with
    | nil => rfl
    | cons e k =>
      obtain ⟨b, u⟩ := e
      simp only [Mem.wfFrom, Bool.and_eq_true, decide_eq_true_eq] at hk
      exact absurd ((h b).symm.trans rfl : Mem.get d ((b, u) :: k) b = d b) (by rw [Mem.get, if_pos rfl]; exact hk.1.2)
  | cons e m ih =>
    intro k lo hm hk h
    obtain ⟨b, u⟩ := e
    simp only [Mem.wfFrom, Bool.and_eq_true, decide_eq_true_eq] at hm
    cases k with
    | nil => exact absurd ((h b).trans rfl : Mem.get d ((b, u) :: m) b = d b) (by rw [Mem.get, if_pos rfl]; exact hm.1.2)
    | cons f k =>
      obtain ⟨c, v⟩ := f
      simp only [Mem.wfFrom, Bool.and_eq_true, decide_eq_true_eq] at hk
      have hb := h b
      have hc := h c
      rw [Mem.get, if_pos rfl, Mem.get] at hb
      rw [Mem.get, Mem.get, if_pos rfl] at hc
      have bc : b = c := by
        rcases Nat.lt_trichotomy b c with l | l | l
        · rw [if_neg (by omega), Mem.get_below d k (c + 1) b (by omega) hk.2] at hb
          exact absurd hb hm.1.2
        · exact l
        · rw [if_neg (by omega), Mem.get_below d m (b + 1) c (by omega) hm.2] at hc
          exact absurd hc.symm hk.1.2
      subst bc
      rw [if_pos rfl] at hb
      rw [hb, ih k (b + 1) hm.2 hk.2 ?_]
      intro a
      by_cases hab : a = b
      · rw [hab, Mem.get_below d m (b + 1) b (by omega) hm.2, Mem.get_below d k (b + 1) b (by omega) hk.2]
      · have := h a
        rwa [Mem.get, if_neg hab, Mem.get, if_neg hab] at this

end Sys2Proof.Machine
end

