-- ==== Sys2Proof/Laws/Stored.lean ====
section
/-! SUPPORT. What each named update of the state asks for to keep the stored form (Safety.lean). The updates that
touch no sparse memory keep it outright; those of an axis, a controller, the collector, the host link, the security
unit and the signal words keep it when what they write is stored. -/

namespace Sys2Proof.Machine

variable {s : State}

/-- Two states whose sparse memories and axes are the same are stored alike. -/
theorem Stored.of_eq {t : State} (h : Stored s) (sig : t.sig = s.sig) (otp : t.sec.otp = s.sec.otp)
    (msix : t.hst.msix = s.hst.msix) (cls : t.flt.cls = s.flt.cls) (esc : t.flt.esc = s.flt.esc) (ax : t.ax = s.ax)
    (can : t.can = s.can) : Stored t :=
  ⟨sig ▸ h.sig, otp ▸ h.otp, msix ▸ h.msix, cls ▸ h.cls, esc ▸ h.esc, ax ▸ h.ax, can ▸ h.window⟩

/-! Updates that touch no sparse memory. -/

theorem Stored.modBank (h : Stored s) (b : BankId) (f : Bank → Bank) : Stored (s.modBank b f) :=
  h.of_eq rfl rfl rfl rfl rfl rfl rfl
theorem Stored.modPwr (h : Stored s) (f : Power → Power) : Stored (s.modPwr f) := h.of_eq rfl rfl rfl rfl rfl rfl rfl
theorem Stored.modSeam (h : Stored s) (f : SeamUnit → SeamUnit) : Stored (s.modSeam f) :=
  h.of_eq rfl rfl rfl rfl rfl rfl rfl
theorem Stored.modAlm (h : Stored s) (f : Alm → Alm) : Stored (s.modAlm f) := h.of_eq rfl rfl rfl rfl rfl rfl rfl
theorem Stored.modSer (h : Stored s) (f : Serial → Serial) : Stored (s.modSer f) :=
  h.of_eq rfl rfl rfl rfl rfl rfl rfl
theorem Stored.modImg (h : Stored s) (f : Img → Img) : Stored (s.modImg f) := h.of_eq rfl rfl rfl rfl rfl rfl rfl
theorem Stored.modTly (h : Stored s) (f : Tly → Tly) : Stored (s.modTly f) := h.of_eq rfl rfl rfl rfl rfl rfl rfl
theorem Stored.modGov (h : Stored s) (f : Gov → Gov) : Stored (s.modGov f) := h.of_eq rfl rfl rfl rfl rfl rfl rfl
theorem Stored.emit (h : Stored s) (o : Output) : Stored (s.emit o) := h.of_eq rfl rfl rfl rfl rfl rfl rfl
theorem Stored.bump (h : Stored s) : Stored s.bump := h.of_eq rfl rfl rfl rfl rfl rfl rfl
theorem Stored.bumpBy (h : Stored s) (k : Nat) : Stored (s.bumpBy k) := h.of_eq rfl rfl rfl rfl rfl rfl rfl

/-! Updates of the parts that hold one. -/

theorem Stored.modHst (h : Stored s) (f : Hst → Hst) (hf : Mem.wf msixDflt (f s.hst).msix = true) :
    Stored (s.modHst f) := ⟨h.sig, h.otp, hf, h.cls, h.esc, h.ax, h.window⟩
/-- An update of the host link that leaves its MSI-X table. -/
theorem Stored.modHst_same (h : Stored s) (f : Hst → Hst) (hf : (f s.hst).msix = s.hst.msix) : Stored (s.modHst f) :=
  h.modHst f (hf ▸ h.msix)
theorem Stored.modSec (h : Stored s) (f : Sec → Sec) (hf : Mem.wf zeroAt (f s.sec).otp = true) : Stored (s.modSec f) :=
  ⟨h.sig, hf, h.msix, h.cls, h.esc, h.ax, h.window⟩
/-- An update of the security unit that leaves the OTP. -/
theorem Stored.modSec_same (h : Stored s) (f : Sec → Sec) (hf : (f s.sec).otp = s.sec.otp) : Stored (s.modSec f) :=
  h.modSec f (hf ▸ h.otp)
theorem Stored.modFlt (h : Stored s) (f : Flt → Flt) (hc : Mem.wf srcDflt (f s.flt).cls = true)
    (he : Mem.wf escDflt (f s.flt).esc = true) : Stored (s.modFlt f) :=
  ⟨h.sig, h.otp, h.msix, hc, he, h.ax, h.window⟩
/-- An update of the collector that leaves its classes and escalation words. -/
theorem Stored.modFlt_same (h : Stored s) (f : Flt → Flt) (hc : (f s.flt).cls = s.flt.cls)
    (he : (f s.flt).esc = s.flt.esc) : Stored (s.modFlt f) := h.modFlt f (hc ▸ h.cls) (he ▸ h.esc)

theorem Stored.raise (h : Stored s) (src : Nat) : Stored (s.raise src) := h.modFlt_same _ rfl rfl
theorem Stored.useInj (h : Stored s) : Stored s.useInj := h.modFlt_same _ rfl rfl
theorem Stored.raiseCond (h : Stored s) (src : Nat) (on : Bool) : Stored (s.raiseCond src on) := by
  rw [State.raiseCond]
  split
  · split
    · exact h
    · exact (h.modFlt_same _ rfl rfl).raise src
  · exact h.modFlt_same _ rfl rfl

theorem Stored.modCan (h : Stored s) (c : CanId) (f : Can → Can) (hf : Mem.wf zeroAt (f s.can[c]).window = true) :
    Stored (s.modCan c f) := by
  refine ⟨h.sig, h.otp, h.msix, h.cls, h.esc, h.ax, fun d => ?_⟩
  rw [State.can_modCan]
  split
  · exact hf
  · exact h.window d
/-- An update of a controller that leaves its tunnel window. -/
theorem Stored.modCan_same (h : Stored s) (c : CanId) (f : Can → Can) (hf : (f s.can[c]).window = s.can[c].window) :
    Stored (s.modCan c f) := h.modCan c f (hf ▸ h.window c)

theorem Stored.sigWrite (h : Stored s) (a : Nat) (v : Word) : Stored (s.sigWrite a v) :=
  ⟨Mem.wf_wr s.sig a v h.sig, h.otp, h.msix, h.cls, h.esc, h.ax, h.window⟩
theorem Stored.setE (h : Stored s) (n : AxisId) (j k : Nat) (v : Word) : Stored (s.setE n j k v) := h.sigWrite _ v

/-! Updates of an axis. -/

theorem Stored.modAx (h : Stored s) (n : AxisId) (f : Axis → Axis) (hf : (f s.ax[n]).stored) : Stored (s.modAx n f) := by
  refine ⟨h.sig, h.otp, h.msix, h.cls, h.esc, fun m => ?_, h.window⟩
  have e := State.axis_modAx s n m f
  rw [State.axis] at e
  rw [e]
  split
  · exact hf
  · exact h.ax m

theorem Stored.modGdr (h : Stored s) (n : AxisId) (f : Gdr → Gdr) : Stored (s.modGdr n f) := h.modAx n _ (h.ax n)
theorem Stored.modSns (h : Stored s) (n : AxisId) (f : Sns → Sns) : Stored (s.modSns n f) := h.modAx n _ (h.ax n)
theorem Stored.modPwm (h : Stored s) (n : AxisId) (f : Pwm → Pwm) : Stored (s.modPwm n f) := h.modAx n _ (h.ax n)
theorem Stored.modFbk (h : Stored s) (n : AxisId) (f : Fbk → Fbk) : Stored (s.modFbk n f) := h.modAx n _ (h.ax n)
theorem Stored.modPh (h : Stored s) (n : AxisId) (p : Fin 3) (f : PwmPhase → PwmPhase) : Stored (s.modPh n p f) :=
  h.modPwm n _
theorem Stored.modGate (h : Stored s) (n : AxisId) (g : Fin 6) (f : GateSt → GateSt) : Stored (s.modGate n g f) :=
  h.modGdr n _
theorem Stored.modCh (h : Stored s) (n : AxisId) (f : Chain → Chain)
    (hf : Mem.wf zeroAt (f s.ax[n].ch).good = true) (ho : Mem.wf zeroAt (f s.ax[n].ch).own = true) : Stored (s.modCh n f) :=
  h.modAx n _ ⟨(h.ax n).1, (h.ax n).2.1, hf, ho, (h.ax n).2.2.2.2⟩
/-- An update of the chain that leaves the last good values and the stages' own outputs. -/
theorem Stored.modCh_same (h : Stored s) (n : AxisId) (f : Chain → Chain) (hf : (f s.ax[n].ch).good = s.ax[n].ch.good)
    (ho : (f s.ax[n].ch).own = s.ax[n].ch.own) : Stored (s.modCh n f) :=
  h.modCh n f (hf ▸ (h.ax n).2.2.1) (ho ▸ (h.ax n).2.2.2.1)
theorem Stored.setOut (h : Stored s) (n : AxisId) (j k : Nat) (v : Word) : Stored (s.setOut n j k v) :=
  (h.setE n j k v).modCh n _ (h.ax n).2.2.1 (Mem.wf_wr _ _ _ (h.ax n).2.2.2.1)
theorem Stored.modClu (h : Stored s) (n : AxisId) (f : Clu → Clu) (hc : Mem.wf zeroAt (f s.ax[n].clu).ctm = true)
    (hp : Mem.wf zeroAt (f s.ax[n].clu).p0 = true) (he : ∀ j : EngId, (f s.ax[n].clu).eng[j].stored) :
    Stored (s.modClu n f) := h.modAx n _ ⟨hc, hp, (h.ax n).2.2.1, (h.ax n).2.2.2.1, he⟩
/-- An update of the cluster that leaves its memories and engines. -/
theorem Stored.modClu_same (h : Stored s) (n : AxisId) (f : Clu → Clu) (hc : (f s.ax[n].clu).ctm = s.ax[n].clu.ctm)
    (hp : (f s.ax[n].clu).p0 = s.ax[n].clu.p0) (he : (f s.ax[n].clu).eng = s.ax[n].clu.eng) : Stored (s.modClu n f) :=
  h.modClu n f (hc ▸ (h.ax n).1) (hp ▸ (h.ax n).2.1) (he ▸ (h.ax n).2.2.2.2)
theorem Stored.ctmWrite (h : Stored s) (n : AxisId) (off : Nat) (bs : List Byte) : Stored (s.ctmWrite n off bs) :=
  h.modClu n _ (Mem.wf_wrList _ _ _ (h.ax n).1) (h.ax n).2.1 (h.ax n).2.2.2.2

theorem Stored.modEng (h : Stored s) (n : AxisId) (j : EngId) (f : Eng → Eng) (hf : (f s.ax[n].clu.eng[j]).stored) :
    Stored (s.modEng n j f) := by
  refine h.modClu n _ (h.ax n).1 (h.ax n).2.1 fun i => ?_
  simp only [Fin.getElem_fin, Vector.getElem_set]
  split
  · exact hf
  · exact (h.ax n).2.2.2.2 i
/-- An update of an engine that leaves its memories and its registers. -/
theorem Stored.modEng_same (h : Stored s) (n : AxisId) (j : EngId) (f : Eng → Eng)
    (hp : (f s.ax[n].clu.eng[j]).priv = s.ax[n].clu.eng[j].priv) (hi : (f s.ax[n].clu.eng[j]).imem = s.ax[n].clu.eng[j].imem)
    (hg : (f s.ax[n].clu.eng[j]).g = s.ax[n].clu.eng[j].g) : Stored (s.modEng n j f) := by
  have e := (h.ax n).2.2.2.2 j
  exact h.modEng n j f ⟨hp ▸ e.1, hi ▸ e.2.1, hg ▸ e.2.2⟩

/-! Updates one after another. -/

/-- What every element's update keeps, a run over a list keeps. -/
theorem Stored.foldl {α : Type} (f : State → α → State) (hf : ∀ s a, Stored s → Stored (f s a)) (l : List α)
    (h : Stored s) : Stored (l.foldl f s) := by
  induction l generalizing s with
  | nil => exact h
  | cons a l ih => exact ih (hf s a h)

theorem Stored.forAxes (h : Stored s) (l : List AxisId) (f : AxisId → State → State)
    (hf : ∀ n s, Stored s → Stored (f n s)) : Stored (s.forAxes l f) := h.foldl _ (fun s n hs => hf n s hs) l
theorem Stored.forBanks (h : Stored s) (l : List BankId) (f : BankId → State → State)
    (hf : ∀ b s, Stored s → Stored (f b s)) : Stored (s.forBanks l f) := h.foldl _ (fun s b hs => hf b s hs) l

/-! Descriptors. -/

theorem Stored.modInflight (h : Stored s) (p : InFlight → Bool) (f : InFlight → InFlight) : Stored (s.modInflight p f) :=
  h.modHst_same _ rfl

theorem Stored.setChainFail (h : Stored s) (src : RingSrc) (v : Bool) : Stored (s.setChainFail src v) := by
  cases src with
  | sq q => exact h.of_eq rfl rfl rfl rfl rfl rfl rfl
  | tun c => exact h.modCan_same c (fun k => { k with chainFail := v }) rfl

theorem Stored.completeIf (h : Stored s) (p : InFlight → Bool) (src : RingSrc) (tag : BitVec 16) (st : Status)
    (info : Word) (time : Option Dword) : Stored (s.completeIf p src tag st info time) := by
  simp only [State.completeIf]
  split
  · exact h
  · rename_i d _
    have hc : Stored (if (d.flags.getLsbD 3 && decide (st ≠ Status.ok)) = true then
        (s.modInflight (fun d => d.src = src && d.tag = tag && d.act ≠ .done && p d) fun d => { d with act := .done }).setChainFail src true
      else s.modInflight (fun d => d.src = src && d.tag = tag && d.act ≠ .done && p d) fun d => { d with act := .done }) := by
      split
      · exact (h.modInflight _ _).setChainFail _ _
      · exact h.modInflight _ _
    split
    · exact Stored.modHst_same hc (fun h => { h with
        inflight := dropFirst (fun e => e.src = src && e.tag = tag && e.act = .done && e.mute) h.inflight }) rfl
    · exact Stored.modHst_same hc (fun h => { h with cplWait := h.cplWait ++
        [{ src := src, tag := tag, status := st, info := info, time := time, irq := d.flags.getLsbD 1 }] }) rfl

theorem Stored.done (h : Stored s) (d : DescHdr) (st : Status) (info : Word) : Stored (s.done d st info) :=
  h.completeIf _ _ _ _ _ _

theorem Stored.setAct (h : Stored s) (d : DescHdr) (a : Act) : Stored (s.setAct d a) := h.modInflight _ _

theorem Stored.heartbeat (h : Stored s) : Stored s.heartbeat := h.modHst_same _ rfl

theorem Stored.completeAll (h : Stored s) (p : InFlight → Bool) (st : Status) (info : Word) :
    Stored (s.completeAll p st info) := h.foldl _ (fun _ _ hs => hs.completeIf _ _ _ _ _ _) _

theorem Stored.accept (h : Stored s) (d : DescHdr) (t : State) (ht : s.accept d = some t) : Stored t := by
  simp only [State.accept] at ht
  split at ht
  · cases ht
  · split at ht
    · split at ht
      · cases ht
      · cases ht
        split
        · exact (h.modInflight _ _).setChainFail _ _
        · exact h.modInflight _ _
    · cases ht

/-- A descriptor whose action keeps the stored form keeps it. -/
theorem Stored.decode (h : Stored s) (d : DescHdr) (timedOk served : Bool) (i : Instr) (pre : State → Check)
    (run : State → State) (hr : ∀ u, Stored u → Stored (run u)) : Stored (s.decode d timedOk served i pre run) := by
  simp only [State.decode]
  split
  · exact h
  · rename_i t ht
    have hu : Stored (if isTun d.src = true then t.heartbeat else t) := by
      split
      · exact (h.accept d t (Option.eq_some_of_filter_eq_some ht)).heartbeat
      · exact h.accept d t (Option.eq_some_of_filter_eq_some ht)
    revert hu
    generalize (if isTun d.src = true then t.heartbeat else t) = u
    intro hu
    repeat' split
    all_goals first
      | exact (hu.setChainFail _ _).done _ _ _
      | exact hu.done _ _ _
      | exact hu.setAct _ _
      | exact hr u hu

theorem Stored.decodeNow (h : Stored s) (d : DescHdr) (served : Bool) (i : Instr) (pre : State → Check) (run : State → State)
    (hr : ∀ u, Stored u → Stored (run u)) : Stored (s.decodeNow d served i pre run) := h.decode d _ _ _ pre run hr

/-! Seams. -/

theorem Stored.snapEnd (h : Stored s) (x : Snap) (st : Status) (info : Nat) : Stored (s.snapEnd x st info) := by
  simp only [State.snapEnd]
  exact (h.completeIf _ _ _ _ _ _).modSeam _

theorem Stored.modSlot (h : Stored s) (k : Fin 64) (f : SeamSlot → SeamSlot) : Stored (s.modSlot k f) := h.modSeam _

theorem Stored.seamResolve (h : Stored s) (k : Fin 64) (st : Status) (reason idx : Nat) (time : Dword) :
    Stored (s.seamResolve k st reason idx time) := by
  have first : Stored (match s.seam.slot[k].hdr with
      | some d => s.completeIf (fun e => e.act = Act.seam k) d.src d.tag st
          (fieldAt 0 reason ||| fieldAt 8 (idx % 256) ||| fieldAt 16 (Nat.min 255 s.seam.slot[k].deferrals)) (some time)
      | none => s) := by
    split
    · exact h.completeIf _ _ _ _ _ _
    · exact h
  rw [State.seamResolve]
  have mid := fun f g => (first.modSeam f).modSlot k g
  by_cases hs : st = Status.ok
  · rw [if_pos hs]
    exact mid _ _
  · rw [if_neg hs]
    exact (mid _ _).foldl _ (fun _ _ hs => hs.snapEnd _ _ _) _

theorem Stored.seamAbortAt (h : Stored s) (k : Fin 64) (reason idx : Nat) (time : Dword) :
    Stored (s.seamAbortAt k reason idx time) := h.seamResolve k _ reason idx time

theorem Stored.seamAbort (h : Stored s) (k : Fin 64) (reason idx : Nat) : Stored (s.seamAbort k reason idx) :=
  h.seamAbortAt k reason idx _

theorem Stored.seamsAbort (h : Stored s) (p : SeamSlot → Bool) (reason idx : Nat) :
    Stored (s.seamsAbort p reason idx) :=
  h.foldl _ (fun s k hs => by
    simp only
    split
    · exact hs.seamAbort k reason idx
    · exact hs) _

theorem Stored.refStopped (h : Stored s) (n : AxisId) : Stored (s.refStopped n) :=
  (h.seamsAbort _ _ _).foldl _ (fun _ _ hs => hs.snapEnd _ _ _) _

/-! The state after reset aside, the empty memories are stored. -/

theorem Eng.stored_default : ({} : Eng).stored := ⟨rfl, rfl, rfl⟩

end Sys2Proof.Machine
end

