-- ==== Sys2Proof/Laws/StoredAxes.lean ====
section
/-! SUPPORT. The operations that move an axis between its states keep the stored form. -/

namespace Sys2Proof.Machine

variable {s : State}

theorem Stored.gateFall (h : Stored s) (n : AxisId) (g : Fin 6) : Stored (s.gateFall n g) := by
  unfold State.gateFall
  extract_lets s1 s2
  have h1 : Stored s1 := h.modGate n g _
  have h2 : Stored s2 := by
    show Stored (if isHigh g then s1 else _)
    split
    · exact h1
    · exact h1.modSns n _
  exact h2.modPh n _ _

theorem Stored.lowDue (h : Stored s) (n : AxisId) (p : Fin 3) : Stored (s.lowDue n p) := by
  unfold State.lowDue
  extract_lets g s1
  split
  · exact h
  · have h1 : Stored s1 := h.modGate n _ _
    exact h1.modPh n p _

theorem Stored.forceGates (h : Stored s) (n : AxisId) : Stored (s.forceGates n) := by
  unfold State.forceGates
  split
  · exact h
  · exact h.foldl _ (fun _ g hs => hs.gateFall n g) _
  · exact (h.foldl _ (fun _ g hs => Stored.gateFall hs n g) _).foldl _ (fun _ p hs => hs.lowDue n p) _

theorem Stored.noteTorque (h : Stored s) (n : AxisId) : Stored (s.noteTorque n) := by
  unfold State.noteTorque
  extract_lets st on
  exact h.modTly _

theorem Stored.accrue (h : Stored s) (n : AxisId) (f : Accrual → Accrual) : Stored (s.accrue n f) := h.modTly _

theorem Stored.segFlush (h : Stored s) (n : AxisId) : Stored (s.segFlush n) := by
  unfold State.segFlush
  extract_lets s1
  have h1 : Stored s1 := h.foldl _ (fun _ _ hs => hs.ctmWrite n _ _) _
  exact (h1.setOut n 10 1 0#32).modCh_same n _ rfl rfl

theorem Stored.beginStop (h : Stored s) (n : AxisId) : Stored (s.beginStop n) := by
  unfold State.beginStop
  split
  · exact h
  · extract_lets r short wm s1 s2
    have h1 : Stored s1 := h.modCh_same n _ rfl rfl
    have h2 : Stored s2 := by
      by_cases k : short
      · rw [show s2 = s1 from if_pos k]; exact h1
      · rw [show s2 = s1.segFlush n from if_neg k]; exact h1.segFlush n
    exact h2.forceGates n

theorem Stored.uncharge (h : Stored s) (m : AxisId) : Stored (s.uncharge m) := by
  unfold State.uncharge
  split
  · exact (h.modCh_same m (fun c => { c with st := .hold, holdAt := some s.cref }) rfl rfl).modPwm m _
  · exact h

theorem Stored.withFits (h : Stored s) (l : List Fit) : Stored { s with fits := l } :=
  h.of_eq rfl rfl rfl rfl rfl rfl rfl

theorem Stored.withPosts (h : Stored s) (l : List Post) : Stored { s with posts := l } :=
  h.of_eq rfl rfl rfl rfl rfl rfl rfl

theorem Stored.endFittings (h : Stored s) (n : AxisId) (st : Status) (why : BitVec 8) : Stored (s.endFittings n st why) :=
  (h.withFits _).forAxes _ _ fun m _ hs => by
    split
    · exact hs.uncharge m
    · exact (hs.uncharge m).beginStop m

theorem Stored.settleRuns (h : Stored s) : Stored s.settleRuns := by
  refine h.foldl _ (fun u d hs => ?_) _
  dsimp only
  split
  · split
    · exact hs
    · split
      · exact hs.completeIf _ _ _ _ _ _
      · exact hs.completeIf _ _ _ _ _ _
  · exact hs

theorem Stored.settleFits (h : Stored s) : Stored s.settleFits := by
  refine h.foldl _ (fun u f hs => ?_) _
  dsimp only
  split
  · exact hs
  · rename_i st why _
    have h1 := hs.foldl (fun (s : State) (e : AxisId × AxMode) =>
      if s.atRest e.1 then s.modCh e.1 fun c => { c with mode := e.2 } else s) (fun v e hv => by
        split
        · exact hv.modCh_same _ _ rfl rfl
        · exact hv) f.prevMode
    split
    · exact (h1.completeIf _ _ _ _ _ _).withFits _
    · exact h1

theorem Stored.runFailed (h : Stored s) (n : AxisId) : Stored (s.runFailed n) := h.modHst_same _ rfl

theorem Stored.takeWaiting (h : Stored s) (n : AxisId) : Stored (s.takeWaiting n) := by
  unfold State.takeWaiting
  extract_lets mine s1
  split
  · exact h
  · have h1 : Stored s1 := h.modImg _
    exact h1.foldl _ (fun _ e hs => hs.sigWrite e.1 e.2) _

theorem Stored.sendSafe (h : Stored s) (n : AxisId) (st : AxState) (why : Status) : Stored (s.sendSafe n st why) := by
  unfold State.sendSafe
  extract_lets old s1 s2 e40 s3 s4
  have h1 : Stored s1 := h.endFittings n why 0#8
  have h2 : Stored s2 := by
    show Stored (if old = .charging then _ else s1)
    split
    · exact h1.runFailed n
    · exact h1
  have h3 : Stored s3 := h2.modCh_same n _ rfl rfl
  have h4 : Stored s4 := (h3.modPwm n _).takeWaiting n
  exact (((h4.forceGates n).noteTorque n).settleRuns).settleFits

theorem Stored.dropToHold (h : Stored s) (n : AxisId) : Stored (s.dropToHold n) := by
  unfold State.dropToHold
  split <;> first | exact h.sendSafe _ _ _ | exact h.forceGates n

theorem Stored.evalGate (h : Stored s) (b : BankId) : Stored (s.evalGate b) := by
  unfold State.evalGate
  extract_lets old new s1
  have h1 : Stored s1 := h.modBank b _
  split
  · exact h1.forAxes _ _ fun n _ hs => (hs.dropToHold n).noteTorque n
  · split
    · exact h1.forAxes _ _ fun n _ hs => hs.forceGates n
    · exact h1

theorem Stored.evalGates (h : Stored s) : Stored s.evalGates := h.forBanks _ _ fun b _ hs => hs.evalGate b

theorem Stored.latch (h : Stored s) (n : AxisId) (bits : BitVec 16) (k : Nat) (two : Bool) :
    Stored (s.latch n bits k two) := by
  unfold State.latch
  extract_lets w s1 s2
  split
  · exact h
  · have h1 : Stored s1 := h.modGdr n _
    exact (h1.modPwm n _).raise _

/-! Engines. -/

theorem Stored.clearRange (h : Stored s) (lo hi : Nat) : Stored { s with sig := s.sig.clear lo hi } :=
  ⟨Mem.wf_clear zeroAt s.sig lo hi h.sig, h.otp, h.msix, h.cls, h.esc, h.ax, h.window⟩

theorem Eng.stored_stop (x : Eng) (hx : x.stored) : x.stop.stored := hx

theorem Eng.stored_wipe (x : Eng) : x.wipe.stored := ⟨rfl, rfl, by simp [Eng.wipe]⟩

theorem Stored.clearPublic (h : Stored s) (n : AxisId) (j : EngId) : Stored (s.clearPublic n j) :=
  (h.clearRange (sigAddr n j.val 0) (sigAddr n j.val 1024)).modCh n _ (h.ax n).2.2.1
    (Mem.wf_clear _ _ _ _ (h.ax n).2.2.2.1)
theorem Stored.clearCluster (h : Stored s) (n : AxisId) : Stored (s.clearCluster n) :=
  (h.clearRange (16384 * n.val) (16384 * n.val + 16384)).modCh n _ (h.ax n).2.2.1 rfl

theorem Stored.settleLens (h : Stored s) (n : AxisId) : Stored (s.settleLens n) := by
  refine h.foldl _ (fun u d hs => ?_) _
  repeat' split
  all_goals first
    | exact hs
    | exact hs.completeIf _ _ _ _ _ _
    | exact (hs.ctmWrite _ _ _).completeIf _ _ _ _ _ _

theorem Stored.noFrames (h : Stored s) (n : AxisId) (j : EngId) :
    Stored (if j = 0 then s.modClu n fun c => { c with frames := [] } else s) := by
  split
  · exact h.modClu_same n _ rfl rfl rfl
  · exact h

theorem Stored.stopOpen (h : Stored s) (n : AxisId) (j : EngId) : Stored (s.stopOpen n j) := by
  unfold State.stopOpen
  extract_lets s0 s1 a
  have h1 : Stored s1 := ((h.modEng n j Eng.wipe (Eng.stored_wipe _)).clearPublic n j).noFrames n j
  split
  · exact h1.settleLens n
  · exact h1.modClu n _ (Mem.wf_clear _ _ _ _ (h1.ax n).1) (h1.ax n).2.1 (h1.ax n).2.2.2.2

theorem Stored.openStop (h : Stored s) (n : AxisId) (j : EngId) : Stored (s.openStop n j) := by
  unfold State.openStop
  extract_lets s1
  have h1 : Stored s1 := (h.modEng n j Eng.stop (Eng.stored_stop _ ((h.ax n).2.2.2.2 j))).clearPublic n j
  exact (h1.noFrames n j).settleLens n

theorem Stored.recover (h : Stored s) (n : AxisId) (j : EngId) (cause : BitVec 2) : Stored (s.recover n j cause) := by
  unfold State.recover
  split
  · exact h
  · extract_lets s1 s2 s3 s4 s5
    have h2 : Stored s2 := (h.sendSafe n _ _).completeAll _ _ _
    have h3 : Stored s3 := h2.modClu n _ rfl rfl fun i => by
      simp only [Clu.wipe, Fin.getElem_fin, Vector.getElem_map]
      exact Eng.stored_wipe _
    have h4 : Stored s4 := h3.withPosts _
    clear_value s4
    have h5 : Stored s5 := h4.modCh_same n (fun c => { c with seg := none, modeWait := false }) rfl rfl
    exact h5.clearCluster n

theorem Stored.miss (h : Stored s) (n : AxisId) (j : EngId) : Stored (s.miss n j) := by
  unfold State.miss
  split
  · exact h
  · extract_lets s1
    have h1 : Stored s1 := h.modEng_same n j _ rfl rfl rfl
    exact (h1.modClu_same n (fun c => { c with miss := c.miss ||| bitAt j.val true }) rfl rfl rfl).raise _

theorem Stored.wedged (h : Stored s) (n : AxisId) (j : EngId) : Stored (s.wedged n j) := by
  unfold State.wedged
  extract_lets s1
  have h1 : Stored s1 := h.miss n j
  split
  · exact (h1.modClu_same n (fun c => { c with miss := c.miss ||| bitAt (16 + j.val) true }) rfl rfl rfl).openStop n j
  · exact h1.recover n j _

theorem Stored.eccHit (h : Stored s) (n : AxisId) (j : EngId) (area : EccArea) : Stored (s.eccHit n j area) := by
  unfold State.eccHit
  split
  · exact h
  · extract_lets v
    split
    · exact (h.raise _).recover n j _
    · exact (h.openStop n j).modEng_same n j _ rfl rfl rfl

theorem Stored.injectAt (h : Stored s) (m n : AxisId) (j : EngId) (area : EccArea) (go : State → State)
    (hg : ∀ u, Stored u → Stored (go u)) : Stored (s.injectAt m n j area go) := by
  unfold State.injectAt
  extract_lets single s1
  have h1 : Stored s1 := h.useInj
  split
  · exact hg _ (h1.modClu_same m (fun c => { c with corrCnt := satInc c.corrCnt }) rfl rfl rfl)
  · exact h1.eccHit n j area

/-- An instruction whose action keeps the stored form keeps it, however its engine finds it. -/
theorem Stored.issue (h : Stored s) (i : Instr) (n : AxisId) (j : EngId) (go : State → State)
    (hg : ∀ u, Stored u → Stored (go u)) : Stored (s.issue i n j go) := by
  unfold State.issue
  split
  · exact h
  · split
    · exact h.injectAt n n j _ go hg
    · exact hg s h

/-- A write of a register keeps g0 at 0. -/
theorem Eng.stored_wr (x : Eng) (d : GReg) (v : Word) (hx : x.stored) : (x.wr d v).stored := by
  rw [Eng.wr]
  split
  · exact hx
  · rename_i hd
    refine ⟨hx.1, hx.2.1, ?_⟩
    have e : (d : Nat) ≠ 0 := fun e => hd (Fin.ext e)
    rw [Vector.getElem_set_ne]
    · exact hx.2.2
    · exact e

theorem Stored.alu (h : Stored s) (i : Instr) (n : AxisId) (j : EngId) (d : GReg) (f : Eng → Alu) : Stored (s.alu i n j d f) :=
  h.issue i n j _ fun _ hu => hu.modEng n j _ (Eng.stored_wr _ d _ ((hu.ax n).2.2.2.2 j))

theorem Stored.aluFlags (h : Stored s) (i : Instr) (n : AxisId) (j : EngId) (f : Eng → BitVec 6) : Stored (s.aluFlags i n j f) :=
  h.issue i n j _ fun _ hu => hu.modEng_same n j _ rfl rfl rfl

theorem Stored.aluFree (h : Stored s) (i : Instr) (n : AxisId) (j : EngId) (d : GReg) (f : Eng → Alu) : Stored (s.aluFree i n j d f) := by
  unfold State.aluFree
  split
  · exact h
  · exact (h.alu i n j d f).bump

end Sys2Proof.Machine
end

