-- ==== Sys2Proof/Tests/Slice0.lean ====
section
/-! SUPPORT. Tests of the model on single commands. A theorem `witness_<statement>` gives, for the clauses of a statement with
hypotheses, states and operands that meet them, with a field or two of what the command then leaves. -/

namespace Sys2Proof.Tests

set_option Elab.async false

open Sys2Proof.Machine

/-- The state with the descriptor of a command fetched from ring 0 (11 R317, R321). -/
def fetched (i : Instr) (s : State) : State :=
  if descOf i = [] then s else s.modHst fun h => { h with inflight := h.inflight ++ [s.newEntry (.sq 0) (descOf i)] }

/-- The state that a command leaves, its descriptor fetched before. -/
def after (i : Instr) (s : State) : State := match exec i (fetched i s) with | .next t => t | _ => s

/-- The state that a step leaves. -/
def stepped (s : State) : State := match step s with | .next t => t | _ => s

/-- A module that runs, with every domain on, its link up and its clocks locked. -/
def up : State := { State.reset with
  sup := .ready, cref := 1000
  clk := { xtal := true, plle := true, pllp := true, plln := true, dll := true, ckh := true, ckl := 0xFF#8 }
  pwr := { State.reset.pwr with mode := .active, pdOn := BitVec.allOnes 80, pdReq := BitVec.allOnes 80, rails := 0x1F#5 }
  hst := { State.reset.hst with linkUp := true, perstLow := false, ready := true } }

/-- A descriptor of ring 0. -/
def hd : DescHdr := { src := .sq 0, tag := 5#16 }

/-- The state at which the own checks of a fetched descriptor run. -/
def taken (h : DescHdr) (i : Instr) (s : State) : State :=
  match (fetched i s).accept h with
  | some t => if isTun h.src then t.heartbeat else t
  | none => s

/-- `Takes` and `State.spelled` as a test, for a descriptor that is fetched. -/
def takesB (timed : Bool) (h : DescHdr) (i : Instr) (s : State) : Bool :=
  (fetched i s).sup = SupMode.ready && h.flags.toNat / 16 = 0 && h.flags.getLsbD 2 = timed && !(taken h i s).chainFail h.src &&
  ((fetched i s).accept h).isSome && (fetched i s).spelled h i

theorem takes_of {h : DescHdr} {i : Instr} {s : State} (hb : takesB false h i s = true) :
    Takes h (fetched i s) (taken h i s) ∧ (fetched i s).spelled h i = true := by
  simp only [takesB, Bool.and_eq_true, decide_eq_true_eq, Bool.not_eq_true', Option.isSome_iff_exists] at hb
  obtain ⟨⟨⟨⟨⟨h1, h2⟩, h3⟩, h4⟩, t, ht⟩, h6⟩ := hb
  exact ⟨⟨h1, h2, h3, h4, t, ht, by simp [taken, ht]⟩, h6⟩

theorem takesTimed_of {h : DescHdr} {i : Instr} {s : State} (hb : takesB true h i s = true) :
    TakesTimed h (fetched i s) (taken h i s) ∧ (fetched i s).spelled h i = true := by
  simp only [takesB, Bool.and_eq_true, decide_eq_true_eq, Bool.not_eq_true', Option.isSome_iff_exists] at hb
  obtain ⟨⟨⟨⟨⟨h1, h2⟩, h3⟩, h4⟩, t, ht⟩, h6⟩ := hb
  exact ⟨⟨h1, h2, h3, h4, t, ht, by simp [taken, ht]⟩, h6⟩

/-- `Stored` as a test. -/
def storedB (s : State) : Bool :=
  Mem.wf zeroAt s.sig && Mem.wf zeroAt s.sec.otp && Mem.wf msixDflt s.hst.msix && Mem.wf srcDflt s.flt.cls && Mem.wf escDflt s.flt.esc &&
  (List.finRange 64).all (fun n => Mem.wf zeroAt s.ax[n].clu.ctm && Mem.wf zeroAt s.ax[n].clu.p0 && Mem.wf zeroAt s.ax[n].ch.good && Mem.wf zeroAt s.ax[n].ch.own &&
    (List.finRange 16).all fun j => Mem.wf zeroAt s.ax[n].clu.eng[j].priv && Mem.wf zeroAt s.ax[n].clu.eng[j].imem && s.ax[n].clu.eng[j].g[0] = 0#32) &&
  (List.finRange 4).all fun c => Mem.wf zeroAt s.can[c].window

theorem stored_of {s : State} (h : storedB s = true) : Stored s := by
  simp only [storedB, Bool.and_eq_true, List.all_eq_true, List.mem_finRange, true_implies, decide_eq_true_eq] at h
  obtain ⟨⟨⟨⟨⟨⟨h1, h2⟩, h3⟩, h4⟩, h5⟩, h6⟩, h7⟩ := h
  exact ⟨h1, h2, h3, h4, h5, fun n => ⟨(h6 n).1.1.1.1, (h6 n).1.1.1.2, (h6 n).1.1.2, (h6 n).1.2, fun j => ⟨((h6 n).2 j).1.1, ((h6 n).2 j).1.2, ((h6 n).2 j).2⟩⟩, h7⟩

theorem test_up_stored : storedB up = true := by decide +kernel
theorem test_up_takes : takesB false hd (.nop hd) up = true := by decide +kernel
theorem up_takes : Takes hd (fetched (.nop hd) up) (taken hd (.nop hd) up) := (takes_of test_up_takes).1
theorem up_stored : Stored up := stored_of test_up_stored

/-- Axis n in RUN. -/
def running (n : AxisId) : State := ((up.modCh n fun c => { c with st := .run }).modHst fun h => { h with hbArmed := true })

/-- Gate g of axis 0 as given. -/
def gated (n : AxisId) (g : Fin 6) (x : GateSt) (s : State) : State := s.modGdr n fun d => { d with gates := d.gates.set g x }

/-- Axis 0 in RUN, switching, on a bank whose line is released. -/
def live : State := { ((up.modCh 0 fun c => { c with st := .run }).modGdr 0 fun d => { d with bstOk := 7#3, live := 0x00002007#32 }) with
  bank := up.bank.set 0 { up.bank[0] with allow := true, en := true, stoA := true, stoB := true, vdrvOk := true, gateEn := true, vdrvLevel := 120#8 } }

/-- A frame of sample codes. -/
def frame : LaneFrame := { i := ⟨1#14, 2#14, 3#14⟩, vs := ⟨4#24, 5#24, 6#24⟩, vph := ⟨7#12, 8#12, 9#12⟩, boundary := true }

/-- Axis 0 with its bank's trims written. -/
def sensing : State := up.modBank 0 fun k => { k with trimOk := true, vdrvOk := true }

/-! The machine, the rings and the link. -/

theorem witness_StepRunsTheFrontCommand : { up with pending := [.hbDoorbell] }.pending = .hbDoorbell :: [] := by decide +kernel

theorem witness_EmptyQueuePassesOneCycle : up.pending = [] ∧ up.clk.pllp = true ∧ State.reset.pending = [] ∧ State.reset.clk.pllp = false := by
  decide +kernel

theorem witness_StepKeepsStored : Stored up ∧ (stepped up).cref = 1001 :=
  ⟨up_stored, by decide +kernel⟩

theorem witness_BurntBitsStayBurnt : (stepped { up with pending := [.otpLockWrite 1#32] }).sec.otpLock = 1#7 := by
  decide +kernel

/-- Ring 0 of 16 entries, enabled, with one entry to fetch; completion ring 0 enabled. -/
def ringed : State := up.modHst fun h => { h with
  sq := h.sq.set 0 { h.sq[0] with en := true, tail := 1#12 }
  cq := h.cq.set 0 { h.cq[0] with cfg := 0x80000004#32 } }

theorem witness_RingAndLinkCommandsComplete :
    (up.bar0 = true ∧ up.hst.sq[0].en = false ∧ up.draining 0 = false ∧ ringOk up.hst.sq[0].baseLo (4#32 ||| 0x80000000#32) 64 = true ∧
      (after (.ringEnable false 0 4#32) up).hst.sq[0].en = true) ∧
    (ringOk up.hst.sq[0].baseLo (0#32 ||| 0x80000000#32) 64 = false ∧ (after (.ringEnable false 0 0#32) up).hst.sq[0].err = 3#3) ∧
    (ringed.hst.sq[0].en = true ∧ (15#32 : Word).setWidth 12 = 15#12 ∧ 15 < ringSize ringed.hst.sq[0].cfg ∧ (after (.sqDoorbell 0 15#32) ringed).hst.sq[0].tail = 15#12) ∧
    (ringed.hst.sq[0].halted = false ∧ ringSize ringed.hst.sq[0].cfg ≤ 16 ∧ (after (.sqDoorbell 0 16#32) ringed).hst.sq[0].halted = true) ∧
    (bit ringed.hst.cq[0].cfg 31 = true ∧ 15 < ringSize ringed.hst.cq[0].cfg ∧ (after (.cqHeadDoorbell 0 15#32) ringed).hst.cq[0].head = 15#12) ∧
    (after (.cqHeadDoorbell 0 16#32) ringed).hst.cq[0].headBad = true ∧
    (up.linked = true ∧ up.supUp = true ∧ (after (.configRequest (.read 0#12)) up).hst.ready = true ∧
      (after (.configRequest (.read 0#12)) up).out.length = 1 ∧ up.cfgFixed 0#12 = (0xFFFFFFFF#32, 0x64111F7E#32) ∧
      (after (.configRequest (.bar 2 0xFFFFFFFF#32)) up).cfgFixed 0x018#12 = (0xFFFFFFFF#32, 0xFFC0000C#32) ∧ (after (.configRequest (.msix true false)) up).hst.msixEn = true ∧
      up.hst.pba = 0#64 ∧ up.bar2Read 4 = some 0#32 ∧ (after (.configRequest (.power true)) up).hst.d3hot = true) ∧
    (let s := { up with sup := .boot }
     s.supUp = false ∧ s.linked = true ∧ (after (.configRequest (.power false)) s).hst.cfgRetry = true) ∧
    ((after .perstNAssert up).hst.perstLow = true ∧ (after .perstNRelease (after .perstNAssert ringed)).hst.sq[0].en = false) := by
  decide +kernel

/-- A completion of ring 0 waits. -/
def waiting : State := ringed.modHst fun h => { h with
  inflight := [{ src := .sq 0, tag := 5#16, flags := 0#8, cls := 2#2, since := 0, timeoutUs := 1000, act := .done }]
  cplWait := [{ src := .sq 0, tag := 5#16, status := .ok }] }

theorem witness_RingsAreFetchedAndCompleted :
    (ringed.bar0 = true ∧ ringed.nextRing = some 0 ∧ (after (.descriptorFetch true (descOf (.nop hd))) ringed).hst.inflight = [ringed.newEntry (.sq 0) (descOf (.nop hd))] ∧ (ringed.newEntry (.sq 0) (descOf (.nop hd))).tag = 5#16 ∧
      (after (.descriptorFetch true (descOf (.nop hd))) ringed).hst.sq[0].head = 1#12 ∧ (after (.descriptorFetch false []) ringed).hst.sq[0].err = 2#3) ∧
    (waiting.hst.cplWait.find? waiting.cplReady = some { src := .sq 0, tag := 5#16, status := .ok } ∧
      (after .completionWrite waiting).hst.inflight = [] ∧ (after .completionWrite waiting).hst.cq[0].tail = 1#12) := by
  decide +kernel

theorem witness_HostLossAndUrgentCommandsStopAxes :
    (let s := { running 3 with cref := 40001000 }
     up.hst.hbArmed = false ∧ s.hst.hbArmed = true ∧ s.hst.hbAt + s.hostTimeout ≤ s.cref ∧ (after .hostLoss s).hst.hostLost = true ∧
      (after .hostLoss s).ax[3].ch.st = .stopping) ∧
    ((running 3).cref < (running 3).hst.hbAt + (running 3).hostTimeout) ∧
    ((running 3).linked = true ∧ (after .functionLevelReset (running 3)).ax[3].ch.st = .stopping) ∧
    ((running 3).hasAxis 3 = true ∧ (after (.haltAll 0#8) (running 3)).ax[3].ch.st = .hold ∧ (after (.haltAll 0#8) (running 3)).hst.halted.getLsbD 63 = true) ∧
    ((running 3).hasBank 0 = true ∧ (after (.haltBank 0#8) (running 3)).ax[3].ch.st = .hold ∧ (after (.haltBank 7#8) (running 3)).ax[3].ch.st = .run) ∧
    ((after (.safeAxis 3#8) (running 3)).ax[3].ch.st = .hold ∧ (after (.safeAxis 63#8) (running 3)).hst.halted = 0x8000000000000000#64) ∧
    (up.urgentAxes (bits (0xFF000000#32 : Word) 31 24) 0 = none ∧ (after (.badUrgentCommand 0xFF000000#32) up).hst.urgBad = 1#8) := by
  decide +kernel

/-! The power stage and the banks. -/

theorem witness_PowerStageFaultsLatchAndOpen :
    (let s := gated 63 2 { on := true, turned := true, vdsActive := true } up
     s.ax[63].gdr.gates[hiGate Phase.c.idx].turned = true ∧ s.ax[63].gdr.gates[hiGate Phase.c.idx].blankEnd + 16 ≤ s.cref ∧
      s.ax[63].gdr.latches = 0#16 ∧ (after (.vdsHigh 63 .c) s).ax[63].gdr.softRun = true ∧ s.ax[63].gdr.gates[hiGate Phase.c.idx].vdsActive = true ∧
      (after (.vdsHigh 63 .c) s).ax[63].gdr.latches = 4#16 ∧ (after (.vdsHigh 63 .c) s).flt.raised = [1008]) ∧
    (let s := gated 0 3 { on := true, turned := true, vdsActive := true } up
     s.ax[0].gdr.gates[loGate Phase.a.idx].turned = true ∧ s.ax[0].gdr.gates[loGate Phase.a.idx].vdsActive = true ∧
      (after (.vdsLow 0 .a) s).ax[0].gdr.latches = 8#16 ∧ (after (.vdsLow 0 .a) s).flt.raised = [1]) ∧
    (let s := { up with cref := 15 }
     s.cref < s.ax[0].gdr.gates[hiGate Phase.a.idx].blankEnd + 16 ∧ s.cref < s.ax[0].gdr.gates[loGate Phase.c.idx].blankEnd + 16) ∧
    (let s := gated 0 2 { offAt := some 680 } (gated 0 5 { pendingOn := true, cmd := true } up)
     s.waits 0 (gateIdx .glc) = true ∧ s.ax[0].gdr.gates[complGate (gateIdx .glc)].lateOff s.cref = true ∧ (after (.gateHandshake 0 .glc) s).ax[0].gdr.latches = 0x800#16) ∧
    (let s := (gated 0 1 { on := true, turned := true } up).modCh 0 fun c => { c with st := .run }
     s.ax[0].gdr.gates[hiGate Phase.b.idx].turned = true ∧ s.inHold 0 = false ∧ (after (.bstOkClear 0 .b) s).ax[0].gdr.latches = 0x2000#16 ∧
      (after (.bstOkClear 0 .b) s).ax[0].gdr.gates[1].on = false) ∧
    (let s := up.modSns 0 fun q => { q with cmpActive := 4#3 }
     s.cmpActs 0 Phase.c.idx 16 = true ∧ (after (.overcurrentHard 0 .c) s).ax[0].gdr.latches = 0x8000#16 ∧
      (after (.overcurrentHard 0 .c) s).flt.raised = [5]) := by
  decide +kernel

theorem witness_GatesFollowTheirCommands :
    (let s := live.modPh 0 0 fun x => { x with hiDue := some 32000 }
     s.riseDue 0 (gateIdx .gha) = true ∧ s.genAllows 0 (gateIdx .gha) = true ∧ s.ax[0].gdr.gates[gateIdx .gha].cmd = false ∧
      s.driverBlocks 0 (gateIdx .gha) = false ∧ (after (.gateCommandRise 0 .gha) s).ax[0].gdr.gates[0].pendingOn = true) ∧
    (live.modPh 0 0 fun x => { x with hiDue := some 32032 }).riseDue 0 (gateIdx .gha) = false ∧
    (let s := gated 0 3 { offAt := some 992 } (gated 0 0 { pendingOn := true, cmd := true } live)
     s.ax[0].gdr.gates[gateIdx .gha].pendingOn = true ∧ s.ax[0].gdr.gates[gateIdx .gha].cmd = true ∧ s.ax[0].gdr.gates[complGate 0].on = false ∧
      s.ax[0].gdr.gates[complGate 0].soft = false ∧ s.ax[0].gdr.gates[complGate 0].offAt = some 992 ∧ 992 + 8 ≤ s.cref ∧
      s.ax[0].gdr.bstOk.getLsbD (gatePhase 0).val = true ∧
      (after (.gateTurnOn 0 .gha) s).ax[0].gdr.gates[0].on = true ∧ (after (.gateTurnOn 0 .gha) s).ax[0].gdr.gates[0].thr = 18#6) ∧
    (let s := gated 0 3 { on := true } (gated 0 0 { pendingOn := true, cmd := true } live)
     s.ax[0].gdr.gates[complGate (gateIdx .gha)].on = true ∧ (after (.gateTurnOn 0 .gha) s).ax[0].gdr.gates[0].on = false) ∧
    (let s := (gated 0 0 { on := true, cmd := true, turned := true, onAt := 500 } live).modPh 0 0 fun x => { x with hi := true, hiFall := some 32000 }
     s.fallDue 0 (gateIdx .gha) = true ∧ s.ax[0].pwm.dbgHalted = false ∧ (after (.gateCommandFall 0 .gha) s).ax[0].gdr.gates[0].on = false ∧
      s.ax[0].gdr.gates[gateIdx .gha].blankEnd ≤ s.cref ∧ (after (.blankingEnd 0 .gha) s).ax[0].gdr.gates[0].vdsActive = true) ∧
    live.fallDue 0 (gateIdx .gha) = false := by
  decide +kernel

theorem witness_StepKeepsOneSideOn :
    (∀ n : AxisId, ∀ g : Fin 6, live.ax[n].gdr.gates[g].on = true → live.ax[n].gdr.gates[complGate g].on = false) := by
  decide +kernel

theorem witness_DriverEventsComplete :
    (live.ax[0].gdr.bstEw.getLsbD 0 = false ∧ bit live.ax[0].gdr.ctrlIn 1 = true ∧ live.ax[0].pwm.ph[(0 : Fin 3)].request = none ∧
      (after (.bootstrapEarlyWarning 0 .a) live).ax[0].pwm.ph[(0 : Fin 3)].request = some 1000) ∧
    (let s := live.modGdr 0 fun d => { d with ctrlIn := 0#32 }
     bit s.ax[0].gdr.ctrlIn 1 = false ∧ (after (.bootstrapEarlyWarning 0 .a) s).ax[0].gdr.bstEw = 1#3) ∧
    (after (.bstOkSet 0 .c) up).ax[0].gdr.bstOk = 4#3 ∧
    (let s := live.modGdr 0 fun d => { d with softRun := true, softAt := 500 }
     s.ax[0].gdr.softAt + 40 * s.ax[0].gdr.softCode.toNat ≤ s.cref ∧ (after (.softStepEnd 0) s).ax[0].gdr.softRun = false) ∧
    (let s := gated 0 4 { on := true, turned := true, onAt := 500 } live
     s.ax[0].gdr.gates[loGate Phase.b.idx].turned = true ∧ s.ax[0].cmpFrom Phase.b.idx ≤ s.cref ∧ (after (.cmpBlankEnd 0 .b) s).ax[0].sns.cmpActive = 2#3) ∧
    (let s := (gated 0 0 { on := true, cmd := true } live).modSns 0 fun q => { q with cmpActive := 1#3, cmpIn := 0x0002FFFF#32 }
     s.cmpActs 0 Phase.a.idx 8 = true ∧ bit s.ax[0].sns.cmpIn 17 = true ∧ s.forced 0 = .none ∧
      (after (.hemComparator 0 .a) s).ax[0].pwm.hem = true ∧ (after (.hemComparator 0 .a) s).ax[0].gdr.gates[0].on = false) ∧
    (let s := live.modPwm 0 fun w => { w with now := { w.now with ctrl := 0x80#32 } }
     bit s.ax[0].pwm.now.ctrl 7 = true ∧ s.forced 0 = .none ∧ Nat.max 1 (bits s.ax[0].pwm.now.hem 15 8) = 20 ∧ (after (.tripHem 0 20) s).ax[0].pwm.hem = true ∧
      (after (.tripHem 0 19) s).ax[0].pwm.hem = false) ∧
    (bit live.ax[0].pwm.now.ctrl 7 = false ∧ (after (.tripHem 0 20) live).bank[0].trip = true ∧ (after (.tripHem 0 20) live).ax[0].pwm.hem = false) := by
  decide +kernel

theorem witness_BankLinesFollowTheirConditions :
    (live.sup ≠ .service ∧ live.bank[0].discRun = false ∧ live.gateCond 0 = true ∧ (after (.enbFall 0) live).bank[0].gateEn = false ∧ (after (.enbFall 0) live).ax[0].ch.st = .hold) ∧
    (let s := after (.enbFall 0) live
     s.bank[0].en = false ∧ (after (.enbRise 0 10000) s).bank[0].clearCnt = 1#8 ∧ (after (.enbRise 0 9399) s).bank[0].clearCnt = 0#8 ∧
      (after (.enbRise 0 9399) s).bank[0].gateEn = true) ∧
    ((after (.stoFall 0 .chA) live).bank[0].gateEn = false ∧ (after (.stoFall 0 .chA) live).bank[0].discRun = true) ∧
    ((after (.stoFall 0 .chB) live).bank[0].gateEn = false ∧ (after (.stoRise 0 .chB) (after (.stoFall 0 .chB) live)).bank[0].gateEn = true) ∧
    (let s := { after (.stoFall 0 .chA) live with cref := 4001000 }
     s.bank[0].discRun = true ∧ s.ckt (s.bank[0].discAt + ms 10) = true ∧ s.flt.met.getLsbD (bankSrc 0 0) = false ∧ 1024 ∈ (after (.stoDiscrepancy 0) s).flt.raised) ∧
    (let s := { live with sup := .service }
     s.sup = .service ∧ (after (.enbFall 0) s).bank[0].enPin = false ∧ (after (.enbFall 0) s).bank[0].en = true) ∧
    (live.bankOn 0 = true ∧ live.flt.met.getLsbD (bankSrc 0 4) = false ∧ (after (.vdrvUv 0 false) live).bank[0].gateEn = false ∧
      (after (.vdrvUv 0 true) (after (.vdrvUv 0 false) live)).bank[0].vdrvOk = true) ∧
    (let s := live.modBank 0 fun k => { k with down := [(7, 0x400, 3#32), (8, 0x024, 5#32)] }
     s.bank[0].down ≠ [] ∧ (after (.downlinkWriteApplied 0) s).ax[7].gdr.ctrlIn = 3#32 ∧
      (after (.downlinkWriteApplied 0) (after (.downlinkWriteApplied 0) s)).bank[0].brkLvlIn = 5#32) := by
  decide +kernel

/-! Sensing and the generator. -/

theorem witness_SamplesAndFramesBringTheirValues :
    (sensing.senses 0 = true ∧ (after (.samplePulse 0 24 {} {}) sensing).ax[0].sns.conv = none ∧
      (after (.samplePulse 0 24 {} {}) sensing).ax[0].sns.laneI.length = 1) ∧
    (sensing.ax[0].sns.overrun (1000 - 20) 1000 = false ∧
      (after (.samplePulse 0 50 {} ⟨-1, 4096, 7⟩) sensing).ax[0].sns.conv = some { at_ := 1000, boundary := true, cal := false } ∧
      (after (.samplePulse 0 50 {} ⟨-1, 4096, 7⟩) sensing).ax[0].sns.vphIn = ⟨0#12, 4095#12, 7#12⟩ ∧
      (after (.samplePulse 0 51 {} {}) sensing).ax[0].sns.conv = some { at_ := 1000, boundary := false, cal := false }) ∧
    (let s := sensing.modSns 0 fun q => { q with holdAt := some 950 }
     s.ax[0].sns.overrun 980 s.cref = true ∧ (after (.samplePulse 0 51 {} {}) s).ax[0].sns.drops = 1) ∧
    (let s := sensing.modSns 0 fun q => { q with conv := some { at_ := 928, boundary := true, cal := false } }
     (after (.conversionComplete 0 ⟨9000, -9000, 5⟩) s).ax[0].sns.conv = none ∧
      ((after (.conversionComplete 0 ⟨9000, -9000, 5⟩) s).ax[0].sns.laneS.map fun f => f.i) = [⟨8191#14, 0x2000#14, 5#14⟩]) ∧
    (sensing.ax[0].sns.gridAt sensing.cref = some 1000 ∧
      ((after (.statusFrameDue 0 { vphA := 9#12 }) sensing).ax[0].sns.statusSent.map fun e => (e.1.vph.a, e.2)) = some (9#12, 1013)) ∧
    (let s := { after (.statusFrameDue 0 { vphA := 1#12, vphB := 2#12, vphC := 3#12, vdrv := 120#8 }) sensing with cref := 1013 }
     (after (.statusFrame 0 true) s).ax[0].sns.vph = ⟨1#12, 2#12, 3#12⟩ ∧ (after (.statusFrame 0 true) s).bank[0].vdrvLevel = 120#8 ∧
      s.ax[0].clu.recovering = false ∧ s.openStopped 0 0 = false ∧ (after (.statusFrame 0 true) s).e 0 0 31 = 3#32 ∧
      (after (.statusFrame 0 false) s).ax[0].sns.crcCnt = 1#16) := by
  decide +kernel

/-- A SAMPLE and an INTEGRAL frame have crossed the lanes, and a boundary waits for its closing. -/
def framed : State := sensing.modSns 0 fun q => { q with
  laneS := [{ frame with ends := some 1000 }], laneI := [{ frame with ends := some 1000 }], record := [{ peak := true, pcount := 3#32, at_ := 600 }] }

theorem test_framed_stored : storedB framed = true := by decide +kernel

theorem witness_SamplesAndFramesBringTheirValues_frames :
    (framed.injected 3 0 = false ∧ framed.ax[0].clu.recovering = false ∧ framed.openStopped 0 0 = false ∧ framed.ax[0].clu.frames.length = 0 ∧ framed.enginesRun = true ∧ framed.linkSilent 0 = false ∧
      (let s := { framed with cref := 2000 }; s.linkSilent 0 = true ∧ (after (.sampleFrame 0 0#128) s).bank[0].linkAt = 2000)) ∧
    ((after (.sampleFrame 0 0#128) framed).ax[0].sns.cur = frame.i ∧ (after (.sampleFrame 0 0#128) framed).ax[0].sns.sampleCnt = 1#16) ∧
    (frameOk (frame.sampleBits ^^^ 4#128) 0#2 = false ∧ (after (.sampleFrame 0 4#128) framed).ax[0].sns.crcCnt = 1#16 ∧
      (after (.sampleFrame 0 4#128) framed).ax[0].clu.frames = []) ∧
    ((after (.integralFrame 0 0#128) framed).e 0 0 20 = vsWord 4#24 ∧ (after (.integralFrame 0 0#128) framed).e 0 0 22 = vsWord 6#24) ∧
    ((after (.boundaryMissing 0) framed).ax[0].sns.record = [] ∧ ((after (.boundaryMissing 0) framed).ax[0].ch.halves.map fun h => h.bad) = [true]) := by
  decide +kernel

/-- TYPE stands in bits 119:118 of a frame and the codes in its low bits, by the table of 03 R73. -/
theorem test_frame_layout : frame.sampleBits.setWidth 42 = (3#14 ++ 2#14 ++ 1#14 : BitVec 42) ∧ part frame.sampleBits 118 2 = 0#2 ∧
    part frame.integralBits 118 2 = 1#2 ∧ part frame.sampleBits 42 24 = 4#24 := by decide +kernel

/-- Axis 0 in HOLD and OPEN, so that a calibration can begin. -/
def calible : State := { (sensing.modGdr 0 fun d => { d with live := 0x00002000#32 }).modCh 0 fun c => { c with holdAt := some 1000 } with cref := 41000 }

theorem witness_CalibrationAndBankMeasurements :
    (calible.calTickNow 0 = true ∧ calible.ax[0].sns.calTickAt ≠ some 41000 ∧ bit calible.ax[0].sns.cfgIn 3 = true ∧ calible.calOk 0 = true ∧ calible.ax[0].sns.calRun = false ∧
      (after (.calibrationTick 0) calible).ax[0].sns.calRun = true ∧ (after (.calReq 0) calible).ax[0].sns.calStart = 41000) ∧
    (up.calOk 0 = false ∧ (after (.calReq 0) up).ax[0].sns.calRun = false) ∧
    (let s := calible.modSns 0 fun q => { q with calRun := true, calCount := 64, calSum := ⟨64 * 256, 64 * 257, -64⟩ }
     s.ax[0].sns.calReq = false ∧ s.ax[0].sns.calStart + 5920 ≤ s.cref ∧ calMean s.ax[0].sns.calSum.a = 256 ∧ calMean s.ax[0].sns.calSum.b = 257 ∧
      (after (.calReq 0) s).ax[0].sns.calReq = true ∧ (after (.calibrationComplete 0) s).ax[0].sns.ofsIn.a = 256#10 ∧
      (after (.calibrationComplete 0) s).ax[0].sns.ofsBadIn = 2#3) ∧
    (let s := live.modBank 0 fun k => { k with brkIn := 0x0A0A6401#32 }
     s.bankOn 0 = true ∧ s.bank[0].brkMode = 1 ∧ s.bank[0].minoff = false ∧ s.brkAllowed 0 = true ∧ s.bank[0].chopLevels = true ∧ bits s.bank[0].brkLvlIn 11 0 = 3300 ∧
      (after (.vinSample 0 3300#12) s).bank[0].brkOn = true ∧ (after (.vinSample 0 3299#12) s).bank[0].brkOn = false ∧
      (after (.vinSample 0 3200#12) (after (.vinSample 0 3300#12) s)).bank[0].brkOn = false ∧
      (after (.vinSample 0 3201#12) (after (.vinSample 0 3300#12) s)).bank[0].brkOn = true ∧
      (let s := { after (.vinSample 0 3300#12) s with cref := 1000 + 400000 }
       let u := { after (.maxonCutoff 0) s with cref := 1000 + 440000 }
       s.bank[0].testRun = false ∧ s.bank[0].brkOnAt + s.bank[0].maxonCp = s.cref ∧ (after (.maxonCutoff 0) s).bank[0].maxonCnt = 1#16 ∧
        u.bank[0].minoffAt + u.bank[0].minoffCp = u.cref ∧ (after (.minoffEnd 0) u).bank[0].brkOn = true)) ∧
    (let s := live.modBank 0 fun k => { k with brkIn := 0x0A0A6401#32, brkLvlIn := 0x0CE40CE4#32 }
     s.bank[0].brkMode = 1 ∧ s.bank[0].chopLevels = false ∧ (after (.vinSample 0 3300#12) s).bank[0].brkOn = false) ∧
    (let s := (live.modCh 0 fun c => { c with st := .hold }).modBank 0 fun k => { k with brkIn := 0x0A0A6402#32 }
     s.bank[0].brkMode = 2 ∧ s.bank[0].testRun = false ∧ s.bank[0].minoff = false ∧ s.brkAllowed 0 = true ∧ (∀ n : AxisId, s.inHold n = true) ∧
      (after (.brkTestPulse 0) s).bank[0].brkOn = true ∧ (let u := { after (.brkTestPulse 0) s with cref := 1400 }
       u.bank[0].testRun = true ∧ u.bank[0].brkOnAt + u.bank[0].testCp = u.cref ∧ (after (.testPulseEnd 0) u).bank[0].brkOn = false) ∧
      (let u := { after (.brkTestPulse 0) s with cref := 401000 }
       u.bank[0].brkOnAt + u.bank[0].maxonCp = u.cref ∧ (after (.maxonCutoff 0) u).bank[0].testRun = false)) ∧
    (live.inHold 0 = false ∧ (after (.brkTestPulse 0) (live.modBank 0 fun k => { k with brkIn := 0x0A0A6402#32 })).bank[0].brkOn = false) ∧
    (hottest [2000#16, 0#16, 0#16, 0#16] = 2000 ∧ live.flt.met.getLsbD (bankSrc 0 2) = false ∧
      (after (.tempSample (.driver 0) 2000#16 0#16 0#16 0#16) live).bank[0].gateEn = false ∧
      (after (.tempSample (.driver 0) 1999#16 0#16 0#16 0#16) live).bank[0].gateEn = true) ∧
    (hottest [1759#16, 0#16, 0#16, 0#16] < 1760 ∧ (after (.tempSample (.driver 0) 1759#16 0#16 0#16 0#16) live).bank[0].hot = false) ∧
    ((after (.tempSample .control 7#16 8#16 0#16 0#16) live).pwr.ctrlT1 = 8#16) ∧
    (let s := { up with ntcCfg := 0x8000#32 }
     bit s.ntcCfg 15 = true ∧ (after (.ntcConversion 15 4080#12) s).flt.raised = [1135] ∧ (after (.ntcConversion 15 4079#12) s).flt.raised = [] ∧
      (after (.ntcConversion 15 16#12) s).flt.raised = [1135] ∧ (after (.ntcConversion 15 17#12) s).flt.raised = []) ∧
    (up.bankOn 0 = true ∧ { up with cref := 1600 }.linkSilent 0 = true ∧ (after (.bankLink 0) { up with cref := 1600 }).flt.raised = [1030]) := by
  refine ⟨?_, ?_, ?_, ?_, ?_⟩ <;> decide +kernel

/-- Axis 0 with its counter counting. -/
def counting : State := live.modPwm 0 fun w => { w with mode := .counting }

theorem witness_GeneratorEventsAndControlComplete :
    (let s := counting.modPwm 0 fun w => { w with act := { w.act with cmpA := 0x00000020#32 }, count := 1 }
     s.axOn 0 = true ∧ s.commitDue = false ∧ s.ax[0].pwm.evPeriod = true ∧ s.ax[0].pwm.atPoint Phase.a.idx true = true ∧
      s.ax[0].pwm.atPoint Phase.a.idx false = false ∧ 0 < s.ax[0].pwm.act.cmp Phase.a.idx ∧
      s.ax[0].pwm.act.cmp Phase.a.idx ≤ s.ax[0].pwm.act.perT ∧ (after (.cmpEvent 0 .a true) s).ax[0].clu.eng[15].ev.getLsbD 3 = true) ∧
    (let s := counting.modPwm 0 fun w => { w with now := { w.now with trgCfg := 1#32 } }
     s.ax[0].pwm.atTrg 0 = true ∧ (after (.trgEvent 0 0) s).ax[0].clu.eng[0].ev.getLsbD 6 = true) ∧
    (up.axOn 0 = true ∧ up.clk.dll = true ∧ up.ax[0].pwm.mode = .stopped ∧ (after (.counterStart 0) up).ax[0].pwm.mode = .waiting ∧
      (after (.counterStart 0) (up.modPwm 0 fun w => { w with dbgHalted := true })).ax[0].pwm.mode = .frozen) ∧
    (let s := up.modPwm 0 fun w => { w with mode := .slipping, goAt := 1000 }
     s.ax[0].pwm.goAt ≤ s.cref ∧ (after (.slipEnd 0) s).ax[0].pwm.mode = .counting) ∧
    (let s := (counting.modPwm 0 fun w => { w with count := 3996 }).modSns 0 fun q => { q with cfg := 0#32 }
     s.riseCalled 0 .mark = true ∧ s.commitDue = false ∧ s.ax[0].sns.trigHigh = none ∧
      (after (.sampleTriggerRise 0 .mark) s).ax[0].sns.trigHigh = some (.mark, 1000)) ∧
    (let s := counting.modPh 0 1 fun x => { x with refresh := true, refreshEnd := some 32031, lo := true, loFall := some 32031 }
     s.ax[0].pwm.ph[(1 : Fin 3)].refresh = true ∧ (31999 : Int) < s.nowT ∧ (32031 : Int) < s.nowT + 32 ∧ s.forced 0 ≠ .short ∧ (after (.refreshEnd 0 .b) s).ax[0].pwm.ph[(1 : Fin 3)].refresh = false ∧
      s.ax[0].pwm.dbgHalted = false ∧ s.ax[0].gdr.latches = 0#16 ∧ (after (.refreshEnd 0 .b) (s.modPwm 0 fun w => { w with dbgHalted := true })).ax[0].pwm.ph[(1 : Fin 3)].refresh = true) ∧
    (let s := (up.modCh 0 fun c => { c with st := .charging }).modPwm 0 fun w => { w with chargeZeros := 64 }
     s.ax[0].gdr.bstLive ≠ 7#3 ∧ (after (.chargeFail 0) s).ax[0].ch.st = .hold ∧ (after (.chargeFail 0) s).ax[0].ch.refuse = 7#8) ∧
    (let s := counting.modSec fun c => { c with lc := 3#3, tokenOpen := true, scope := 2#2 }
     s.engDebug = true ∧ s.ax[0].clu.eng[15].st ≠ .halted ∧ s.dbgFree = false ∧ (after (.debugHalt 0 15) s).ax[0].pwm.dbgHalted = true ∧
      (after (.debugHalt 0 15) s).ax[0].clu.dbg ≠ 0#16 ∧ (after (.debugResume 0) (after (.debugHalt 0 15) s)).ax[0].clu.dbg = 0#16) ∧
    (let s := counting.modPwm 0 fun w => { w with dbgHalted := true, dbgHold := true, dbgAt := 200, now := { w.now with dbg := 0xC8#32 } }
     s.ax[0].pwm.dbgHold = true ∧ s.ax[0].pwm.charging = false ∧ s.ax[0].pwm.dbgAt + s.ax[0].pwm.holdCp = s.cref ∧ (after (.dbgHoldEnd 0) s).ax[0].pwm.dbgHold = false) ∧
    ((counting.modSec fun c => { c with lc := 5#3 }).engDebug = false) := by
  decide +kernel

theorem witness_CounterZerosPeaksAndSwitchingPoints :
    (let s := counting.modPwm 0 fun w => { w with down := true, count := 0 }
     s.ax[0].pwm.atZero s.cref = true ∧ s.commitDue = false ∧ (after (.zero 0 {}) s).ax[0].pwm.down = false ∧ (after (.zero 0 {}) s).ax[0].pwm.pcount = 1#32) ∧
    (let s := { up.modPwm 0 fun w => { w with mode := .waiting, goAt := 8000 } with cref := 8000 }
     s.ax[0].pwm.atZero s.cref = true ∧ (after (.zero 0 {}) s).ax[0].pwm.pcount = 0#32) ∧
    (let s := counting.modPwm 0 fun w => { w with count := 4000 }
     s.ax[0].pwm.down = false ∧ s.ax[0].pwm.count = s.ax[0].pwm.half ∧ (after (.peak 0) s).ax[0].pwm.down = true ∧
      (after (.peak 0) s).ax[0].pwm.count = 4000 ∧ counting.ax[0].pwm.count ≠ counting.ax[0].pwm.half) ∧
    (up.ax[0].pwm.mode ≠ .counting) ∧
    (let s := (counting.modPwm 0 fun w => { w with act := { w.act with cmpA := 0x00000020#32 }, count := 1 }).modPh 0 0 fun x => { x with lo := true, loAt := 0 }
     let w := s.ax[0].pwm
     let x := w.ph[(0 : Fin 3)]
     w.atPoint 0 true = true ∧ s.switching 0 = true ∧ w.hem = false ∧ w.act.level 0 = none ∧ 0 < w.act.cmp 0 ∧ w.act.cmp 0 ≤ w.act.perT ∧ x.lo = true ∧ x.hi = false ∧
      x.loAt + w.minpw ≤ s.nowT ∧ x.refreshEnd = none ∧ 0 < 2 * (w.act.perT - w.act.cmp 0) - x.shiftUp - w.act.dtr 0 ∧
      w.minpw ≤ 2 * (w.act.perT - w.act.cmp 0) - x.shiftUp - w.act.dtr 0 ∧
      (after (.cmpEvent 0 .a true) s).ax[0].pwm.ph[(0 : Fin 3)].hiDue = some (s.nowT + (w.act.cmp 0 + x.shiftUp) % 32 + w.act.dtr 0)) := by
  decide +kernel

/-! Feedback and the control chain. -/

/-- Axis 0 with a quadrature encoder. -/
def quad : State := up.modFbk 0 fun f => { f with ctrl := 1#32 }

/-- A terminal whose level has stood long enough, or has come just now. -/
def stood (l : Bool) : Pin := { level := l, held := 20 }
def fresh (l : Bool) : Pin := { level := l, held := 3 }

theorem witness_CountedEdgesMoveThePosition :
    (up.axOn 0 = true ∧ quad.ax[0].fbk.accept 0 (stood true) = true ∧ quad.ax[0].fbk.accept 0 (fresh true) = false ∧ quad.ax[0].fbk.edge = none) ∧
    (quad.ax[0].fbk.mode = .quad ∧ bits quad.ax[0].fbk.ctrl 3 2 = 0 ∧ quad.ax[0].fbk.tooSoon quad.cref = false ∧ quad.ax[0].fbk.cprVal = 4096 ∧
      (after (.countingEdge 0 (stood true) (stood false)) quad).ax[0].fbk.pos = 1 ∧
      (after (.countingEdge 0 (stood false) (stood true)) quad).ax[0].fbk.pos = -1 ∧
      (after (.countingEdge 0 (fresh true) (stood false)) quad).ax[0].fbk.pos = 0) ∧
    ((after (.countingEdge 0 (stood true) (stood true)) quad).ax[0].fbk.pos = 0 ∧
      (after (.countingEdge 0 (stood true) (stood true)) quad).ax[0].fbk.sticky = 1#8) ∧
    (let s := up.modFbk 0 fun f => { f with ctrl := 2#32, levels := 1#4, sector := some 0 }
     s.ax[0].fbk.mode = .hall ∧ s.ax[0].fbk.lossHall = false ∧ hallSector ({ s.ax[(0 : AxisId)].fbk with levels := 3#4 } : Fbk).code = some 1 ∧
      (after (.hallCodeChange 0 (stood true) (stood true) (stood false)) s).ax[0].fbk.sector = some 1 ∧
      (after (.hallCodeChange 0 (stood true) (stood true) (stood false)) s).ax[0].fbk.pos = 1) := by
  decide +kernel

theorem witness_IndexPresetAndSsiEvents :
    (let s := quad.modFbk 0 fun f => { f with ctrl := 0x101#32, count := 77 }
     bits s.ax[0].fbk.ctrl 9 8 = 1 ∧ s.ax[0].fbk.gateOk = true ∧ s.ax[0].fbk.idxHeld = false ∧ s.ax[0].fbk.accept 2 (stood true) = true ∧
      (after (.indexEvent 0 (stood true)) s).ax[0].fbk.idxLo = 77#32 ∧ (after (.indexEvent 0 (stood true)) s).ax[0].clu.eng[9].ev.getLsbD 8 = true) ∧
    (let s := quad.modFbk 0 fun f => { f with ctrl := 0x301#32, count := 4095, idxCfg := 0x04000FFF#32 }
     bits s.ax[0].fbk.ctrl 9 8 = 3 ∧ s.ax[0].fbk.gateOk = true ∧ s.ax[0].fbk.count < s.ax[0].fbk.cprVal ∧ bits s.ax[0].fbk.idxCfg 23 0 < s.ax[0].fbk.cprVal ∧
      (after (.indexEvent 0 (stood true)) s).ax[0].fbk.count = 4095 ∧ (after (.indexEvent 0 (stood true)) s).ax[0].fbk.idxErr = 0#32) ∧
    (let s := quad.modFbk 0 fun f => { f with ctrl := 0x101#32, count := 77, idxHeld := true, levels := 4#4 }
     s.ax[0].fbk.idxHeld = true ∧ s.ax[0].fbk.accept 2 (stood true) = true ∧ (after (.indexEvent 0 (stood true)) s).ax[0].fbk.idxLo = 0#32) ∧
    (let s := quad.modFbk 0 fun f => { f with ctrl := 0x2001#32, count := 5 }
     s.ax[0].fbk.mode ≠ .ssi ∧ s.ax[0].fbk.accept 3 (stood true) = true ∧ bit s.ax[0].fbk.ctrl 13 = true ∧
      (after (.auxCapture 0 (stood true)) s).ax[0].fbk.auxLo = 5#32) ∧
    (let s := quad.modFbk 0 fun f => { f with presetLo := 4095#32, presetHi := 9#32 }
     s.inHold 0 = true ∧ (after (.preset 0) s).ax[0].fbk.count = 4095 ∧ (after (.preset 0) s).ax[0].fbk.rev = 9#32) ∧
    ((running 0).inHold 0 = false ∧ (after (.preset 0) (running 0)).ax[0].fbk.sticky = 0x80#8) ∧
    ((after (.idxArm 0) up).ax[0].fbk.idxArm = true) ∧
    (let s := { up.modFbk 0 fun f => { f with ctrl := 3#32, ssi := some 900, ssiMiss := 1, lossIll := true } with cref := 6105 }
     s.ax[0].fbk.mode = .ssi ∧ 900 + s.ax[0].fbk.ssiFinal + 1 = s.cref ∧ qbAt [(0, true), (1000, false)] 0 = true ∧
      qbAt [(0, true), (1000, false)] s.ax[0].fbk.ssiFinal = false ∧
      (after (.ssiFrameEnd 0 [(0, true), (1000, false)]) s).ax[0].fbk.ssiRaw = 0x1800#64 ∧
      (after (.ssiFrameEnd 0 [(0, true), (1000, false)]) s).ax[0].fbk.lossIll = false ∧ (after (.ssiFrameEnd 0 []) s).ax[0].fbk.ssiMiss = 2) ∧
    (let s := { quad.modFbk 0 fun f => { f with leak := 1#8, lossIll := true } with cref := 400000 }
     s.ax[0].fbk.leakAt ≠ some s.cref ∧ (after (.leakTick 0) s).ax[0].fbk.leak = 0#8 ∧ (after (.leakTick 0) s).ax[0].fbk.lossIll = false) ∧
    (up.cref % 400000 ≠ 0) ∧
    (let s := { up.modFbk 0 fun f => { f with ctrl := 2#32, hallInvalid := true } with cref := 40000 }
     s.ax[0].fbk.hallInvAt + s.ax[0].fbk.hallInvT = s.cref ∧ (after (.hallInvalidTimeout 0) s).ax[0].fbk.lossHall = true ∧
      (after (.hallInvalidTimeout 0) s).flt.raised = [7]) := by
  decide +kernel

/-- A sample of a current step at a zero. -/
def sample : SampleIn := { frame := { frame with i := ⟨100#14, -50#14, -50#14⟩ }, win := 0x00000800#32, closing := some { peak := false, pcount := 7#32, at_ := 900 }, fb := Vector.replicate 6 0#32 }

/-- Nothing is injected where FLT_INJ is not armed. -/
theorem uninjected_of {s : State} (h : bit s.flt.inj 31 = false) : Uninjected s := fun k i => by simp [State.injected, h]

theorem witness_SampleConditioningPublishesTheCurrents :
    (let s := (up.modClu 0 fun c => { c with frames := [sample] })
     storedB s = true ∧ s.axOn 0 = true ∧ s.ax[0].clu.role = false ∧ s.ax[0].clu.recovering = false ∧ s.epochHeld = false ∧ bit s.flt.inj 31 = false ∧ s.enginesRun = true ∧
      sample.frame.cal = false ∧ sample.frame.boundary = true ∧
      sample.closing = some { peak := false, pcount := 7#32, at_ := 900 } ∧ bit sample.win 1 = false ∧ bits sample.win 6 4 = 0 ∧
      (after (.sampleConditioning 0) s).ax[0].ch.curDue = true ∧ (after (.sampleConditioning 0) s).e 0 0 16 = 100#32 ∧
      bit ((after (.sampleConditioning 0) s).e 0 0 3) 7 = true ∧ ((after (.sampleConditioning 0) s).e 0 0 0).msb = true) := by
  decide +kernel

theorem witness_CurrentStepRotatesAndModulates :
    (let s := (up.setE 0 0 0 0x3F800000#32).modCh 0 fun c => { c with curDue := true, thisHold := 55 }
     storedB s = true ∧ s.controls 0 = false ∧ s.ax[0].ch.failDue = false ∧ s.enginesRun = true ∧ s.epochHeld = false) ∧
    (let s := ((live.setE 0 0 0 0x3F800000#32).modPwm 0 fun w => { w with mode := .counting }).modCh 0 fun c => { c with curDue := true, thisHold := 55 }
     s.ax[0].clu.role = false ∧ s.ax[0].clu.recovering = false ∧ s.controls 0 = true ∧ s.ax[0].ch.curDue = true) := by
  decide +kernel

theorem witness_SpeedAndPositionStepsFollow :
    (let s := (up.setE 0 12 18 0x80000001#32).modCh 0 fun c => { c with spdDue := true, thisHold := 9 }
     storedB s = true ∧ bit (s.e 0 12 18) 31 = true ∧ modeOf (bits (s.e 0 12 18) 3 0) = some .speed ∧ modeAllowed s.ax[0].ch .speed (bit (s.e 0 12 18) 4) = true ∧
      s.ax[0].ch.st ≠ .starting ∧ s.sweepOn 0 = none ∧ F32.isFinite (s.refWordOf 0 12 17) = true ∧
      (after (.speedStep 0) s).ax[0].ch.mode = .speed ∧ (after (.speedStep 0) s).e 0 12 18 = 0#32) ∧
    (let s := ((running 0).setE 0 12 18 0x80000003#32).modCh 0 fun c => { c with spdDue := true, mode := .torque }
     modeOf (bits (s.e 0 12 18) 3 0) = some .fan ∧ modeAllowed s.ax[0].ch .fan (bit (s.e 0 12 18) 4) = false ∧
      (after (.speedStep 0) s).ax[0].ch.mode = .torque ∧ (after (.speedStep 0) s).ax[0].ch.refuse = 8#8) ∧
    (let s := (up.modCh 0 fun c => { c with posDue := true })
     s.ax[0].ch.mode ≠ .position ∧ (after (.positionStep 0) s).ax[0].ch.posDue = false ∧ s.enginesRun = true ∧ s.epochHeld = false) ∧
    (let s := ((running 0).setE 0 9 0 0xFFFFFFFF#32).modCh 0 fun c => { c with posDue := true, mode := .position }
     s.ax[0].ch.reduced = false ∧ s.ax[0].ch.seg = none ∧ s.segDepth 0 = 0 ∧ (after (.positionStep 0) s).e 0 9 2 = 0x7FFFFFFF#32) ∧
    (let s := ((running 0).setE 0 9 0 0x7FFFFFFF#32).modCh 0 fun c => { c with posDue := true, mode := .position }
     (after (.positionStep 0) s).e 0 9 2 = 0x7FFFFFFF#32) ∧
    (let s := (((running 0).setE 0 9 0 0x80000000#32).setE 0 9 1 0xFFFFFFFF#32).modCh 0 fun c => { c with posDue := true, mode := .position }
     (after (.positionStep 0) s).e 0 9 2 = 0x80000000#32) ∧
    (let s := (((running 0).setE 0 9 0 0x7FFFFFFF#32).setE 0 9 1 0xFFFFFFFF#32).modCh 0 fun c => { c with posDue := true, mode := .position }
     (after (.positionStep 0) s).e 0 9 2 = 0x80000000#32) := by
  decide +kernel

/-- Axis 0 in STARTING at a step, with two tries. -/
def starting (x : StartStep) (k : Nat) : State := live.modCh 0 fun c => { c with
  st := .starting, start := x, attempt := k, mode := .speed, failDue := true, startRec := 0x20#8 :: List.replicate 47 0#8 }

theorem witness_StartStopAndChainEventsComplete :
    ((starting .align 1).ax[0].ch.sinceStart 1000 8 = true ∧ (after (.alignmentEnd 0) (starting .align 1)).ax[0].ch.start = .ramp ∧
      ({ st := .starting, startAt := 900, startRec := List.replicate 8 0#8 ++ wordBytes 0x3F800000#32 } : Chain).sinceStart 1000 8 = false) ∧
    (1 < triesOf (starting .ramp 1).ax[0].ch.startRec ∧ (after (.startAttemptFail 0) (starting .ramp 1)).ax[0].ch.start = .wait) ∧
    (triesOf (starting .ramp 2).ax[0].ch.startRec ≤ 2 ∧ (after (.startAttemptFail 0) (starting .ramp 2)).ax[0].ch.st = .hold ∧
      9 ∈ (after (.startAttemptFail 0) (starting .ramp 2)).flt.raised) ∧
    (let s := (starting .align 9).modCh 0 fun c => { c with mode := .fan }
     s.ax[0].ch.mode = .fan ∧ (after (.startAttemptFail 0) s).ax[0].ch.st = .starting ∧ (after (.startAttemptFail 0) s).flt.raised = [9]) ∧
    (up.ax[0].ch.failDue = false) ∧
    ((starting .wait 1).ax[0].ch.hardBrake = false ∧ (starting .wait 1).ax[0].ch.sinceStart 1000 40 = true ∧
      (after (.retryWaitEnd 0) (starting .wait 1)).ax[0].ch.attempt = 2) ∧
    (let s := (running 0).modCh 0 fun c => { c with stallFrom := some 5 }
     s.stallDue 0 = true ∧ s.flt.met.getLsbD 10 = false ∧ (after (.stall 0) s).flt.raised = [10]) ∧
    (up.stallDue 0 = false ∧ up.stopDone 0 = false ∧ up.plausDue 0 = false ∧ up.wordLate 0 = false) ∧
    (let s := up.modCh 0 fun c => { c with st := .stopping, lowRun := 8 }
     s.stopDone 0 = true ∧ (after (.stopEnd 0) s).ax[0].ch.st = .hold) ∧
    (let s := ((running 0).ctmWrite 0 0x12B0 [0x10#8]).modCh 0 fun c => { c with mode := .fan, startRec := List.replicate 48 0#8 }
     s.tachWatched 0 = true ∧ secsPassed (s.cref - s.ax[0].ch.tachAt) (wordAt (s.stopRecord 0) 36) = true ∧
      (after (.tachLoss 0) s).flt.raised = [1152]) ∧
    (let s := { up.modCh 0 fun c => { c with plausFrom := some 5 } with cref := 400000000 }
     s.plausDue 0 = true ∧ (after (.feedbackPlaus 0) s).flt.raised = [8]) ∧
    (let s := { ((up.setE 0 4 64 1#32).setE 0 4 74 0x3C23D70A#32).modCh 0 fun c => { c with curDue := true, wordValid := true } with cref := 400000000 }
     s.param 0 4 64 = 1#32 ∧ F32.isZero (s.param 0 4 74) = false ∧ s.wordLate 0 = true ∧ (after (.wordSourceTimeout 0) s).flt.raised = [7]) := by
  decide +kernel

theorem witness_GovernorTicksComplete :
    (let s := { up with cref := 40000 }
     s.sup = .ready ∧ s.gov.tickAt + s.gov.period ≤ s.cref ∧ s.gov.hard = false ∧ bit s.gov.ctrl 0 = true ∧ s.gov.active = false ∧
      (after .govTick s).gov.active = false ∧ bits (after .govTick s).gov.lvlNow 11 0 = 3360 ∧ (after .govTick s).gov.maskAt = 40000) ∧
    (up.cref < up.gov.tickAt + up.gov.period ∧ up.cref < up.gov.maskAt + 4 * up.gov.period) ∧
    (let s := { up with cref := 160000 }
     s.gov.maskAt + 4 * s.gov.period ≤ s.cref ∧ (after .govMaskStale s).gov.stale = true) ∧
    (let s := { (up.modGov fun g => { g with hard := true }).modCh 0 fun c => { c with hardBrake := true } with cref := 200000000 }
     s.gov.hardAt + s.gov.tHard ≤ s.cref ∧ s.govV + 4 * bits s.gov.cfgNow 23 16 < bits s.gov.lvlNow 27 16 ∧ (after .hardBrakeEnd s).gov.hard = false ∧
      (after .hardBrakeEnd s).ax[0].ch.hardRelease = true) ∧
    (let s := { up.modGov fun g => { g with hard := true, lvlNow := 0#32 } with cref := 200000000 }
     bits s.gov.lvlNow 27 16 ≤ s.govV + 4 * bits s.gov.cfgNow 23 16 ∧ (after .hardBrakeEnd s).gov.hard = true) ∧
    (up.cref < up.gov.hardAt + up.gov.tHard) := by
  decide +kernel

/-! The YEI engines. -/

/-- Engine 14 of axis 0, open, with values in g1, g2 and g3. -/
def eng (a b c : Word) (f : BitVec 6 := 0#6) : State :=
  up.modEng 0 14 fun y => { y with st := .active, pc := 7, g := ((y.g.set 1 a).set 2 b).set 3 c, flags := f }

/-- The words of formats A, I and J, by the table of 09 R249. -/
def fA (op : BitVec 6) (sub : BitVec 11) (d a b : BitVec 5) : Word := op ++ d ++ a ++ b ++ sub
def fI (op : BitVec 6) (d a : BitVec 5) (imm : BitVec 16) : Word := op ++ d ++ a ++ imm
def fJ (op : BitVec 6) (t : BitVec 26) : Word := op ++ t

/-- The engine with a word at its pc. -/
def holding (w : Word) (s : State) : State := s.modEng 0 14 fun y => { y with imem := [(7, w)] }

/-- The engine after a command. -/
def ran (i : Instr) (s : State) : Eng := (after i s).eng 0 14

/-- The state, and the engine, after an instruction that its word spells. -/
def goes (w : Word) (i : Instr) (s : State) : State := after i (holding w s)
def runs (w : Word) (i : Instr) (s : State) : Eng := (goes w i s).eng 0 14

theorem witness_IntegerInstructionsCompute :
    ((holding 0x00611000#32 (eng 1#32 2#32 3#32)).issues (.add 0 14 3 1 2) 0 14 = true ∧ fA 0#6 0#11 3 1 2 = 0x00611000#32 ∧ (eng 1#32 2#32 3#32).injected 0 14 = false ∧
      (holding 0x00611001#32 (eng 1#32 2#32 3#32)).issues (.add 0 14 3 1 2) 0 14 = false) ∧
    ((runs (fA 0x00#6 0x000#11 3 1 2) (.add 0 14 3 1 2) (eng 0xFFFFFFFF#32 1#32 0#32)).g[3] = 0#32 ∧ (runs (fA 0x00#6 0x000#11 3 1 2) (.add 0 14 3 1 2) (eng 0xFFFFFFFF#32 1#32 0#32)).flags = 5#6 ∧
      (runs (fA 0x00#6 0x000#11 3 1 2) (.add 0 14 3 1 2) (eng 0xFFFFFFFF#32 1#32 0#32)).pc = 8) ∧
    ((runs (fI 0x08#6 3 1 0x8000#16) (.addi 0 14 3 1 0x8000#16) (eng 0x80000000#32 0#32 0#32)).g[3] = 0x7FFF8000#32 ∧ (runs (fI 0x08#6 3 1 0x8000#16) (.addi 0 14 3 1 0x8000#16) (eng 0x80000000#32 0#32 0#32)).flags = 0x0C#6) ∧
    ((runs (fA 0x00#6 0x001#11 3 1 2) (.sub 0 14 3 1 2) (eng 0x80000000#32 1#32 0#32)).g[3] = 0x7FFFFFFF#32 ∧ (runs (fA 0x00#6 0x001#11 3 1 2) (.sub 0 14 3 1 2) (eng 0x80000000#32 1#32 0#32)).flags = 8#6) ∧
    ((runs (fA 0x00#6 0x001#11 3 1 2) (.sub 0 14 3 1 2) (eng 1#32 2#32 0#32)).flags = 6#6 ∧ (runs (fA 0x00#6 0x00D#11 0 1 2) (.cmp 0 14 1 2) (eng 5#32 5#32 9#32)).flags = 1#6 ∧
      (runs (fA 0x00#6 0x00D#11 0 1 2) (.cmp 0 14 1 2) (eng 5#32 5#32 9#32)).g[3] = 9#32) ∧
    ((runs (fI 0x0E#6 0 1 0xFFFF#16) (.cmpi 0 14 1 0xFFFF#16) (eng 0#32 0#32 0#32)).flags = 4#6) ∧
    ((runs (fA 0x00#6 0x000#11 0 1 2) (.add 0 14 0 1 2) (eng 5#32 5#32 9#32)).g[0] = 0#32) ∧
    ((runs (fI 0x09#6 3 1 0xFF00#16) (.andi 0 14 3 1 0xFF00#16) (eng 0xFFFFFFFF#32 0#32 0#32 0x3C#6)).g[3] = 0xFF00#32 ∧ (runs (fI 0x09#6 3 1 0xFF00#16) (.andi 0 14 3 1 0xFF00#16) (eng 0xFFFFFFFF#32 0#32 0#32 0x3C#6)).flags = 0x3C#6) ∧
    ((runs (fI 0x0A#6 3 1 0x8000#16) (.ori 0 14 3 1 0x8000#16) (eng 1#32 0#32 0#32)).g[3] = 0x8001#32 ∧ (runs (fA 0x00#6 0x004#11 3 1 2) (.xor 0 14 3 1 2) (eng 3#32 5#32 0#32)).g[3] = 6#32) ∧
    ((runs (fI 0x0C#6 3 0 0xABCD#16) (.lui 0 14 3 0xABCD#16) (eng 1#32 0#32 0#32 9#6)).g[3] = 0xABCD0000#32 ∧ (runs (fI 0x0C#6 3 0 0xABCD#16) (.lui 0 14 3 0xABCD#16) (eng 1#32 0#32 0#32 9#6)).flags = 9#6) ∧
    ((33#32 : Word).toNat % 32 = 1 ∧ (runs (fA 0x00#6 0x005#11 3 1 2) (.shl 0 14 3 1 2) (eng 0x80000001#32 33#32 0#32)).g[3] = 2#32 ∧ (runs (fA 0x00#6 0x005#11 3 1 2) (.shl 0 14 3 1 2) (eng 0x80000001#32 33#32 0#32)).flags = 4#6) ∧
    ((runs (fA 0x00#6 0x007#11 3 1 2) (.sra 0 14 3 1 2) (eng 0x80000001#32 1#32 0#32)).g[3] = 0xC0000000#32 ∧ (runs (fA 0x00#6 0x007#11 3 1 2) (.sra 0 14 3 1 2) (eng 0x80000001#32 1#32 0#32)).flags = 6#6) ∧
    ((runs (fA 0x00#6 0x006#11 3 1 2) (.shr 0 14 3 1 2) (eng 0x80000001#32 31#32 0#32)).g[3] = 1#32 ∧ (runs (fA 0x00#6 0x006#11 3 1 2) (.shr 0 14 3 1 2) (eng 0x80000001#32 0#32 0#32 4#6)).flags = 2#6) ∧
    ((0x0044#16 : BitVec 16).toNat / 32 % 4 = 2 ∧ (runs (fI 0x0D#6 3 1 0x0044#16) (.shi 0 14 3 1 0x0044#16) (eng 0x80000000#32 0#32 0#32)).g[3] = 0xF8000000#32) ∧
    ((runs (fA 0x00#6 0x009#11 3 1 2) (.mulh 0 14 3 1 2) (eng 0xFFFFFFFF#32 1#32 0#32)).g[3] = 0xFFFFFFFF#32 ∧ (runs (fA 0x00#6 0x008#11 3 1 2) (.mul 0 14 3 1 2) (eng 0x10000#32 0x10000#32 0#32)).flags = 1#6) ∧
    ((runs (fA 0x00#6 0x00A#11 3 1 2) (.div 0 14 3 1 2) (eng 0xFFFFFFF9#32 2#32 0#32)).g[3] = 0xFFFFFFFD#32 ∧ (runs (fA 0x00#6 0x00A#11 3 1 2) (.div 0 14 3 1 2) (eng 5#32 0#32 0#32)).g[3] = 0#32 ∧
      (runs (fA 0x00#6 0x00A#11 3 1 2) (.div 0 14 3 1 2) (eng 5#32 0#32 0#32)).flags = 9#6 ∧ (runs (fA 0x00#6 0x00A#11 3 1 2) (.div 0 14 3 1 2) (eng 0x80000000#32 0xFFFFFFFF#32 0#32)).g[3] = 0x80000000#32) ∧
    ((runs (fA 0x00#6 0x00B#11 3 1 2) (.min 0 14 3 1 2) (eng 0xFFFFFFFF#32 1#32 0#32)).g[3] = 0xFFFFFFFF#32 ∧ (runs (fA 0x00#6 0x00C#11 3 1 2) (.max 0 14 3 1 2) (eng 0xFFFFFFFF#32 1#32 0#32)).g[3] = 1#32) := by
  decide +kernel

theorem witness_SaturatingInstructionsCompute :
    ((runs (fA 0x01#6 0x000#11 3 1 2) (.qadd 0 14 3 1 2) (eng 0x7FFFFFFF#32 1#32 0#32)).g[3] = 0x7FFFFFFF#32 ∧ (runs (fA 0x01#6 0x000#11 3 1 2) (.qadd 0 14 3 1 2) (eng 0x7FFFFFFF#32 1#32 0#32)).flags = 0x10#6) ∧
    ((runs (fA 0x01#6 0x001#11 3 1 2) (.qsub 0 14 3 1 2) (eng 0x80000000#32 1#32 0#32)).g[3] = 0x80000000#32 ∧ (runs (fA 0x01#6 0x004#11 3 1 0) (.qneg 0 14 3 1) (eng 0x80000000#32 0#32 0#32)).g[3] = 0x7FFFFFFF#32) ∧
    ((runs (fA 0x01#6 0x005#11 3 1 0) (.qabs 0 14 3 1) (eng 0x80000000#32 0#32 0#32)).flags = 0x10#6 ∧ (runs (fA 0x01#6 0x006#11 3 1 2) (.qshl 0 14 3 1 2) (eng 0xC0000000#32 2#32 0#32)).g[3] = 0x80000000#32) ∧
    (2 * ((2 : Int) ^ 31 * 1 - 0x40000000 * 2).natAbs ≤ 2 ^ 31) := by
  decide +kernel

theorem witness_FloatInstructionsCompute :
    ((runs (fA 0x02#6 0x000#11 3 1 2) (.fadd 0 14 3 1 2) (eng 0x3F800000#32 0x40000000#32 0#32)).g[3] = 0x40400000#32 ∧ (runs (fA 0x02#6 0x001#11 3 1 2) (.fsub 0 14 3 1 2) (eng 0x3F800000#32 0x40000000#32 0#32)).g[3] = 0xBF800000#32) ∧
    ((runs (fA 0x02#6 0x002#11 3 1 2) (.fmul 0 14 3 1 2) (eng 0x40400000#32 0x40000000#32 0#32)).g[3] = 0x40C00000#32 ∧ (runs (fA 0x02#6 0x003#11 3 1 2) (.fma 0 14 3 1 2) (eng 0x40400000#32 0x40000000#32 0x3F800000#32)).g[3] = 0x40E00000#32) ∧
    ((runs (fA 0x02#6 0x004#11 3 1 2) (.fdiv 0 14 3 1 2) (eng 0x3F800000#32 0x40000000#32 0#32)).g[3] = 0x3F000000#32 ∧ F32.isNaN 0x7F800001#32 = true ∧
      (runs (fA 0x02#6 0x000#11 3 1 2) (.fadd 0 14 3 1 2) (eng 0x7F800001#32 0#32 0#32)).g[3] = 0x7FC00000#32) ∧
    ((runs (fA 0x02#6 0x005#11 3 1 0) (.fsqrt 0 14 3 1) (eng 0x40800000#32 0#32 0#32)).g[3] = 0x40000000#32 ∧ (runs (fA 0x02#6 0x00C#11 3 1 0) (.ftoi 0 14 3 1) (eng 0xC0200000#32 0#32 0#32)).g[3] = 0xFFFFFFFE#32) ∧
    (F32.lt 0xBF800000#32 0x3F800000#32 = true ∧ (runs (fA 0x02#6 0x006#11 3 1 2) (.fmin 0 14 3 1 2) (eng 0xBF800000#32 0x3F800000#32 0#32)).g[3] = 0xBF800000#32 ∧
      (runs (fA 0x02#6 0x006#11 3 1 2) (.fmin 0 14 3 1 2) (eng 0x7FC00000#32 0x3F800000#32 0#32)).g[3] = 0x3F800000#32 ∧ (runs (fA 0x02#6 0x007#11 3 1 2) (.fmax 0 14 3 1 2) (eng 0xBF800000#32 0x3F800000#32 0#32)).g[3] = 0x3F800000#32) ∧
    ((runs (fA 0x02#6 0x008#11 3 1 0) (.fabs 0 14 3 1) (eng 0xBF800000#32 0#32 0#32)).g[3] = 0x3F800000#32 ∧ (runs (fA 0x02#6 0x009#11 3 1 0) (.fneg 0 14 3 1) (eng 0xBF800000#32 0#32 0#32)).g[3] = 0x3F800000#32) ∧
    ((runs (fA 0x02#6 0x00A#11 0 1 2) (.fcmp 0 14 1 2) (eng 0xBF800000#32 0x3F800000#32 0#32)).flags = 2#6 ∧ (runs (fA 0x02#6 0x00A#11 0 1 2) (.fcmp 0 14 1 2) (eng 0#32 0x80000000#32 0#32)).flags = 1#6 ∧
      (runs (fA 0x02#6 0x00A#11 0 1 2) (.fcmp 0 14 1 2) (eng 0x7FC00000#32 0x80000000#32 0#32)).flags = 8#6) ∧
    ((runs (fA 0x02#6 0x00B#11 3 1 0) (.itof 0 14 3 1) (eng 0xFFFFFFFF#32 0#32 0#32)).g[3] = 0xBF800000#32 ∧ (runs (fA 0x02#6 0x00D#11 3 1 0) (.qtof 0 14 3 1) (eng 0x40000000#32 0#32 0#32)).g[3] = 0x3F000000#32) ∧
    ((runs (fA 0x02#6 0x00E#11 3 1 0) (.ftoq 0 14 3 1) (eng 0x3F800000#32 0#32 0#32)).g[3] = 0x7FFFFFFF#32 ∧ (runs (fA 0x02#6 0x00E#11 3 1 0) (.ftoq 0 14 3 1) (eng 0x3F800000#32 0#32 0#32)).flags = 0x10#6) ∧
    ((runs (fA 0x02#6 0x012#11 3 1 2) (.tatan 0 14 3 1 2) (eng 0#32 0x80000000#32 1#32)).g[3] = 0#32) := by
  decide +kernel

/-- The engine at its budget, waiting for its mailbox. -/
def waits (m : Word) (e : Word) : State := up.modEng 0 14 fun y => { y with st := .waiting, wait := some (3, m), ev := e }

theorem witness_ControlInstructionsAndEventsComplete :
    (condHolds 1#6 1 = some true ∧ condHolds 8#6 10 = some false ∧ (runs (fI 0x18#6 1 0 0xFFFE#16) (.b 0 14 1 0xFFFE#16) (eng 0#32 0#32 0#32 1#6)).pc = 6 ∧ (runs (fI 0x18#6 1 0 0xFFFE#16) (.b 0 14 1 0xFFFE#16) (eng 0#32 0#32 0#32)).pc = 8) ∧
    ((runs (fJ 0x19#6 100#26) (.call 0 14 100#26) (eng 0#32 0#32 0#32)).pc = 100 ∧ (runs (fJ 0x19#6 100#26) (.call 0 14 100#26) (eng 0#32 0#32 0#32)).g[31] = 8#32 ∧ (runs (fA 0x1A#6 0x000#11 0 1 0) (.jr 0 14 1) (eng 55#32 0#32 0#32)).pc = 55) ∧
    ((runs (fA 0x20#6 0x000#11 3 1 0) (.waitev 0 14 3 1) (eng 2#32 0#32 0#32)).wait = some (3, 2#32)) ∧
    ((goes (fA 0x20#6 0x001#11 0 1 2) (.post 0 14 1 2) (eng 0x1F#32 77#32 0#32)).posts = [{ to_ := 1, eng := 15, sender := (0, 14), val := 77#32 }]) ∧
    ((runs (fA 0x20#6 0x002#11 0 0 0) (.fence 0 14) (eng 0#32 0#32 0#32)).fence = false) ∧
    (let s := (eng 0#32 0#32 0#32).modSec fun c => { c with lc := 3#3 }
     s.engDebug = false ∧ (runs (fA 0x20#6 0x003#11 0 0 0) (.brk 0 14) s).pc = 8) ∧
    ((eng 0#32 0#32 0#32 9#6).csr 0 14 0 = some 9#32 ∧ (runs (fI 0x21#6 3 0 0#16) (.csrr 0 14 3 0) (eng 0#32 0#32 0#32 9#6)).g[3] = 9#32) ∧
    ((eng 0#32 0#32 0#32).csr 0 14 6 = some 1000#32 ∧ (runs (fI 0x21#6 3 0 6#16) (.csrr 0 14 3 6) (eng 0#32 0#32 0#32)).crefHi = 0#32) ∧
    ((runs (fI 0x22#6 0 1 0#16) (.csrw 0 14 1 0) (eng 0x3F#32 0#32 0#32)).flags = 0x3F#6 ∧ (runs (fI 0x22#6 0 1 9#16) (.csrw 0 14 1 9) (eng 0x3F#32 0#32 0#32)).flags = 0#6) ∧
    ((runs (fI 0x22#6 0 1 10#16) (.csrw 0 14 1 10) (eng 0x3F#32 0#32 0#32)).st = .stopped ∧ (runs (fI 0x18#6 11 0 0#16) (.b 0 14 11 0#16) (eng 0x3F#32 0#32 0#32)).st = .stopped) ∧
    (let s := waits 0x100#32 0x300#32
     s.axOn 0 = true ∧ s.enginesRun = true ∧ s.epochHeld = false ∧ s.evPend 0 14 &&& 0x100#32 = 0x100#32 ∧
      (ran (.waitevReturn 0 14) s).st = .active ∧ (ran (.waitevReturn 0 14) s).ev = 0x200#32 ∧ (ran (.waitevReturn 0 14) s).g[3] = 0x100#32) ∧
    (let s := { waits 2#32 0#32 with posts := [{ to_ := 1, eng := 3, sender := (2, 5), val := 9#32 }, { to_ := 0, eng := 14, sender := (2, 5), val := 6#32 }, { to_ := 0, eng := 1, sender := (2, 5), val := 8#32 }] }
     (ran (.mboxPostArrival (.engine 2 5 0)) s).mbox = [(0x25#32, 6#32)] ∧
      (after (.mboxPostArrival (.engine 2 5 0)) s).posts = [{ to_ := 1, eng := 3, sender := (2, 5), val := 9#32 }, { to_ := 0, eng := 1, sender := (2, 5), val := 8#32 }]) ∧
    (let s := { (waits 2#32 0#32).modEng 0 14 (fun y => { y with mbox := List.replicate 8 (0#32, 1#32) }) with posts := [{ to_ := 0, eng := 14, sender := (2, 5), val := 6#32 }] }
     (ran (.mboxPostArrival (.engine 2 5 0)) s).mbox.length = 8 ∧ (ran (.mboxPostArrival (.engine 2 5 0)) s).sticky = 8#7) ∧
    (let s := { up with posts := [{ to_ := 0, eng := 14, sender := (2, 5), val := 6#32 }] }
     (s.eng 0 14).st = .stopped ∧ s.aheadOf 2 5 0 0 = false ∧ (after (.mboxPostArrival (.engine 2 5 0)) s).posts = []) ∧
    ((ran (.mboxPostArrival (.supervisor 0 14 6#32)) (waits 2#32 0#32)).mbox = [(0x80000000#32, 6#32)]) ∧
    (let s := holding (fI 0x21#6 3 0 10#16) (eng 0#32 0#32 0#32)
     s.issues (.csrr 0 14 3 10) 0 14 = true ∧ (after (.csrr 0 14 3 10) s).ax[0].clu.eng[14].st = .stopped) := by
  decide +kernel

theorem witness_LoadsAndStoresReachTheirTargets :
    (let s := (eng 0x1001#32 0xAB#32 0#32).modEng 0 14 fun y => { y with priv := [(1024, 9#32), (1025, 10#32)] }
     ((0x1001#32 : Word) + (2#16 : BitVec 16).signExtend 32).toNat / 4 = 1024 ∧ (s.eng 0 14).stores = [] ∧ s.injected 1 14 = false ∧
      (runs (fI 0x10#6 3 1 2#16) (.ld 0 14 3 1 2#16) s).g[3] = 9#32 ∧ (runs (fI 0x11#6 4 1 2#16) (.ld2 0 14 4 1 2#16) s).g[4] = 9#32 ∧ (runs (fI 0x11#6 4 1 2#16) (.ld2 0 14 4 1 2#16) s).g[5] = 10#32 ∧
      (runs (fI 0x12#6 2 1 2#16) (.st 0 14 2 1 2#16) s).priv = [(1024, 0xAB#32), (1025, 10#32)] ∧ (runs (fI 0x13#6 2 1 2#16) (.st2 0 14 2 1 2#16) s).priv = [(1024, 0xAB#32)]) ∧
    (let s := eng 0x00110004#32 0xAB#32 0#32
     0x100000 + 4 * 16384 * (0 + 1) ≤ (0x00110004#32 : Word).toNat ∧ (s.eng 0 14).stores.length < 4 ∧
      (runs (fI 0x10#6 3 1 0#16) (.ld 0 14 3 1 0#16) s).load = some { addr := 0x00110004#32, d := 3, two := false } ∧
      (runs (fI 0x12#6 2 1 0#16) (.st 0 14 2 1 0#16) s).stores = [{ addr := 0x00110004#32, val := 0xAB#32, val2 := none }]) ∧
    (let s := (eng 0x00110004#32 0xAB#32 0#32).modEng 0 14 fun y => { y with stores := List.replicate 4 { addr := 0#32, val := 0#32, val2 := none } }
     4 ≤ (s.eng 0 14).stores.length ∧ s.reserved 0 = 0 ∧ s.ax[0].clu.role = false ∧ (runs (fI 0x12#6 2 1 0#16) (.st 0 14 2 1 0#16) s).pc = 7) ∧
    (let s := ((eng 0#32 0#32 0#32).modEng 0 14 fun y => { y with load := some { addr := 0x1C004#32, d := 3, two := false } }).modClu 0 fun c => { c with ctm := [(0x3001, 8#32)] }
     target 0 14 0x1C004#32 = .ctm 0x3001 ∧ s.injected 2 0 = false ∧ (ran (.fabricLoadReturn 0 14) s).g[3] = 8#32) ∧
    (let s := (eng 0#32 0#32 0#32).modEng 0 14 fun y => { y with stores := [{ addr := 0x1C004#32, val := 7#32, val2 := none }], fence := true }
     (after (.postedStoreArrival 0 14 0) s).ax[0].clu.ctm = [(0x3001, 7#32)] ∧ (ran (.postedStoreArrival 0 14 0) s).fence = false ∧ s.aheadOf 0 14 0 0 = false) ∧
    (let s := { (eng 0#32 0#32 0#32).modEng 0 14 (fun y => { y with seq := 3, stores := [{ addr := 0x00110004#32, val := 6#32, val2 := none, seq := 0 }, { addr := 0x1C004#32, val := 7#32, val2 := none, seq := 2 }] }) with
       posts := [{ to_ := 0, eng := 14, sender := (0, 14), val := 6#32, seq := 1 }] }
     s.aheadOf 0 14 0 2 = true ∧ (after (.postedStoreArrival 0 14 0) s).ax[0].clu.ctm = [] ∧ s.aheadOf 0 14 0 1 = false ∧
      (after (.postedStoreArrival 0 14 0) (after (.mboxPostArrival (.engine 0 14 0)) s)).ax[0].clu.ctm = [(0x3001, 7#32)] ∧
      s.storesAhead 0 14 { addr := 0x1C004#32, d := 3, two := false } = true) := by
  decide +kernel

/-- An image of one word, its header, length and instruction. -/
def image : List Byte := wordBytes 0x58494559#32 ++ wordBytes 1#32 ++ wordBytes 1#32 ++ wordBytes 0#32 ++ wordBytes 0x12345678#32

/-- A vendor engine that runs. -/
def vendorActive : State := up.modEng 0 3 fun y => { y with st := .active, budget := 1000#20, period := 4000 }

theorem witness_EngineErrorsLoadsAndStops :
    (vendorActive.engLive 0 3 = true ∧ (vendorActive.eng 0 3).budget.toNat < vendorActive.actLen 0 3 ∧ (vendorActive.eng 0 3).missed = false ∧
      vendorActive.isOpen 0 3 = false ∧ (after (.deadline 0 3) vendorActive).ax[0].clu.miss = 8#32) ∧
    (let s := { vendorActive with cref := 500 }
     s.actLen 0 3 ≤ (s.eng 0 3).budget.toNat ∧ s.actLen 0 3 < 8 * (s.eng 0 3).period) ∧
    (let s := { vendorActive with cref := 16000 }
     s.engLive 0 3 = true ∧ 8 * (s.eng 0 3).period ≤ s.actLen 0 3 ∧ (after (.wedge 0 3) s).ax[0].clu.recovering = true) ∧
    (let s := { eng 0#32 0#32 0#32 with cref := 32000 }
     s.engLive 0 14 = true ∧ s.isOpen 0 14 = true ∧ 8 * (s.eng 0 14).period ≤ s.actLen 0 14 ∧ (ran (.wedge 0 14) s).st = .stopped) ∧
    (vendorActive.illegalMet 0 3 = true ∧ vendorActive.ax[0].clu.recovering = false ∧ (after (.illegalInstruction 0 3) vendorActive).ax[0].clu.lastCause = 3#2 ∧
      (after (.illegalInstruction 0 3) vendorActive).ax[0].clu.recoverCnt = 1#8) ∧
    (let s := holding 0xFC000000#32 (eng 0#32 0#32 0#32)
     s.illegalMet 0 14 = true ∧ (ran (.illegalInstruction 0 14) s).sticky = 0x20#7) ∧
    ((after (.engineEcc 0 3 .dmem false) vendorActive).ax[0].clu.lastCause = 2#2 ∧ (ran (.engineEcc 0 14 .dmem false) (eng 0#32 0#32 0#32)).sticky = 0x40#7 ∧
      (after (.engineEcc 0 3 .dmem true) vendorActive).ax[0].clu.corrCnt = 1#16) ∧
    (let s := up.modClu 0 fun c => { c with recovering := true, ctrl := 8#32 }
     s.ax[0].clu.recovering = true ∧ (after (.clusterRecoveryComplete 0) s).ax[0].ch.st = .hold) ∧
    (up.axOn 0 = true ∧ up.isOpen 0 14 = true ∧ 20 ≤ image.length ∧ image.length % 4 = 0 ∧ dataCheck hd 4 image.length = none ∧
      takesB false hd (.engineLoad hd 0#8 14#8 1000#32 20#32 (crc32c image) image) up = true ∧
      (taken hd (.engineLoad hd 0#8 14#8 1000#32 20#32 (crc32c image) image) up).ax[0].clu.recovering = false ∧ imgOk image image.length = true ∧
      (ran (.engineLoad hd 0#8 14#8 1000#32 20#32 (crc32c image) image) up).st = .active ∧
      (ran (.engineLoad hd 0#8 14#8 1000#32 20#32 (crc32c image) image) up).imem = [(0, 0x12345678#32)] ∧
      (ran (.engineLoad hd 0#8 14#8 1000#32 20#32 (crc32c image) image) up).budget = 1000) ∧
    ((0#32 : Word) ≠ crc32c image ∧ (ran (.engineLoad hd 0#8 14#8 1000#32 20#32 0#32 image) up).st = .stopped ∧
      (after (.engineLoad hd 0#8 14#8 1000#32 20#32 0#32 image) up).hst.cplWait.length = 1) ∧
    (let h := { hd with dataAddr := 2#64 }
     h.dataAddr.toNat % 4 ≠ 0 ∧ takesB false h (.engineLoad h 0#8 14#8 1000#32 20#32 (crc32c image) image) up = true ∧ (after (.engineLoad h 0#8 14#8 1000#32 20#32 (crc32c image) image) up).hst.cplWait.length = 1) ∧
    ((ran (.engineStop hd 0#8 14#8) (eng 1#32 0#32 0#32)).st = .stopped ∧ (ran (.engineStop hd 0#8 14#8) (eng 1#32 0#32 0#32)).g[1] = 0#32) := by
  decide +kernel

/-! Descriptors. -/

/-- Axis 0 in HOLD, ready to run on the observer. -/
def fit : State := ((((up.modSns 0 fun q => { q with cfg := 0x10#32 }).modCh 0 fun c => { c with calDone := true }).modPwm 0 fun w =>
  { w with shadow := { w.shadow with per := 4000 } }).modBank 0 fun k =>
    { k with trimOk := true, vdrvOk := true, gateEn := true, allow := true, en := true, stoA := true, stoB := true }).setE 0 4 64 2#32

/-- A timed descriptor that starts at 1 ms. -/
def hdt : DescHdr := { hd with flags := 4#8, time := 1000000#64 }

/-- A state with one descriptor in flight. -/
def flying (a : Act) (s : State) : State := s.modHst fun h => { h with
  inflight := [{ src := .sq 0, tag := 5#16, flags := 0#8, cls := 2#2, since := 0, timeoutUs := 1000, act := a }] }

/-- Descriptors byte by byte, by the tables of 11 R317, R326 and 12 R352. -/
theorem test_descriptor_bytes :
    descOf (.axisStateRun { src := .sq 0, tag := 0x1234#16, flags := 8#8, timeoutUs := 0x56789ABC#32, time := 0x0102030405060708#64 } 0x1122334455667788#64) =
      [0x10#8, 8#8, 0x34#8, 0x12#8, 0xBC#8, 0x9A#8, 0x78#8, 0x56#8, 8#8, 7#8, 6#8, 5#8, 4#8, 3#8, 2#8, 1#8,
       0x88#8, 0x77#8, 0x66#8, 0x55#8, 0x44#8, 0x33#8, 0x22#8, 0x11#8, 1#8] ++ List.replicate 39 0#8 ∧
    descOf (.canSend { hd with dataAddr := 0x1000#64 } 3#8 2#8 12#8 0x7FF#32 []) =
      [0x60#8, 0#8, 5#8, 0#8] ++ List.replicate 12 0#8 ++ [3#8, 2#8, 12#8, 0#8, 0xFF#8, 7#8, 0#8, 0#8, 0#8, 0x10#8, 0#8, 0#8, 0#8, 0#8, 0#8, 0#8] ++ List.replicate 32 0#8 ∧
    (descOf (.badDescriptor hd 0#8) = [] ∧ descBad (0x02#8 :: List.replicate 63 0#8) = true ∧ descBad (List.replicate 64 0#8) = false ∧
      descBad ([0#8, 0x10#8] ++ List.replicate 62 0#8) = true ∧ descBad (List.replicate 63 0#8 ++ [1#8]) = true) := by
  decide +kernel

/-- A state with these 64 bytes fetched from ring 0. -/
def bringing (bs : List Byte) : State := up.modHst fun h => { h with inflight := [up.newEntry (.sq 0) bs] }

theorem witness_DescriptorsAreTakenInOrder :
    (let s := { up with sup := .boot }
     (fetched (.nop hd) s).accept hd = none ∧ (after (.nop hd) s).hst.cplWait = []) ∧
    ((fetched (.nop hd) up).spelled hd (.heartbeat hd) = false ∧ (fetched (.nop hd) up).spelled hd (.badDescriptor hd 0#8) = false ∧
      (fetched (.nop hd) up).spelled hd (.axisStateRun hd 0#64) = false) ∧
    ((taken hd (.nop hd) up).hst.inflight.all (fun d => !d.mute) = true ∧ (after (.nop hd) up).hst.cplWait = [{ src := .sq 0, tag := 5#16, status := .ok, info := 0#32, time := none, irq := false }] ∧
      (after (.heartbeat hd) up).hst.hbAt = 1000 ∧ 
      (let s := bringing (descWith 0x7F#8 hd []); s.spelled hd (.badDescriptor hd 0x7F#8) = true ∧ (s.accept hd).isSome = true ∧
        ((after (.badDescriptor hd 0x7F#8) s).hst.cplWait.map (·.status)) = [.badArg]) ∧
      (let s := bringing ((descOf (.axisStateRun hd 1#64)).set 40 1#8); s.spelled hd (.badDescriptor hd 0x10#8) = true ∧ s.spelled hd (.axisStateRun hd 1#64) = false)) ∧
    (let s := up.modHst fun h => { h with sq := h.sq.set 0 { h.sq[0] with chainFail := true } }
     (((fetched (.nop hd) s).accept hd).map fun t => t.hst.sq[0].chainFail) = some true ∧ ((after (.nop hd) s).hst.cplWait.map (·.status)) = [.aborted]) ∧
    (let h := { hd with flags := 0x10#8 }
     (((fetched (.nop h) up).accept h).map fun t => t.hst.sq[0].chainFail) = some false ∧ ((after (.nop h) up).hst.cplWait.map (·.status)) = [.badArg]) ∧
    (((fetched (.nop hdt) up).accept hdt).isSome = true ∧ ((after (.nop hdt) up).hst.cplWait.map (·.status)) = [.badArg]) ∧
    (let s := { up with sup := .service }
     ((fetched (.axisStateRun hd 1#64) s).accept hd).isSome = true ∧ ((after (.axisStateRun hd 1#64) s).hst.cplWait.map (·.status)) = [.denied]) ∧
    (up.axesCheck 1#64 = none ∧ up.alm.time.toNat + 2000 ≤ hdt.time.toNat ∧ ((after (.axisStateRun hdt 1#64) up).hst.inflight.map (·.act)) = [.timed (.axisStateRun hdt 1#64)] ∧
      (let h := { hdt with time := 1999#64 }; h.time.toNat < up.alm.time.toNat + 2000 ∧ ((after (.axisStateRun h 1#64) up).hst.cplWait.map (·.info)) = [1#32])) := by
  decide +kernel

/-- Almanac time 1 ms. -/
def atTime (s : State) : State := s.modAlm fun a => { a with time := 1000000#64 }

/-- The oldest in flight, where there is one alone. -/
theorem oldest_of {s : State} {d : InFlight} (h : s.hst.inflight = [d]) : Oldest s d := ⟨[], [], h, by simp⟩

theorem witness_TimedStartsPulsesAndTimeouts :
    (let s := atTime (flying (.timed (.signalWrite hdt [(0x3001#32, 9#32)])) up)
     hdt.time ≤ s.alm.time ∧ s.hst.inflight.length = 1 ∧
      ((after (.timedStart (.sq 0) 5#16) s).hst.inflight.map (·.act)) = [.begun (.signalWrite hdt [(0x3001#32, 9#32)]) 1000]) ∧
    (let s := atTime (flying (.timed (.axisMode hdt 1#64 2#8 0#8)) up)
     let u := { after (.timedStart (.sq 0) 5#16) s with cref := 1002 }
     (after (.timedStart (.sq 0) 5#16) s).e 0 12 18 = 0#32 ∧ (after (.timedStart (.sq 0) 5#16) u).e 0 12 18 = 0x80000002#32) ∧
    (let s := flying (.begun (.signalWrite hdt [(0x3001#32, 9#32)]) 998) up
     storedB s = true ∧ s.sigCheck [(0x3001#32, 9#32)] = none ∧ s.unloaded (sigAxis 0x3001) (sigEng 0x3001) = false ∧
      (after (.timedStart (.sq 0) 5#16) s).sig = [(0x3001, 9#32)]) ∧
    (let s := flying (.pulse 0x3001#32 (some (9#32, 998)) 0#32 2000000#64 none) up
     storedB s = true ∧ s.axOn (sigAxis 0x3001) = true ∧ s.noWords (sigAxis 0x3001) (sigEng 0x3001) = false ∧
      (after (.timedStart (.sq 0) 5#16) s).sig = [(0x3001, 9#32)]) ∧
    (let s := atTime (flying (.pulse 0x3001#32 none 0#32 1000000#64 none) up)
     (1000000#64 : Dword) ≤ s.alm.time ∧ ((after (.pulseStopEdge (.sq 0) 5#16) s).hst.inflight.map (·.act)) = [.pulse 0x3001#32 none 0#32 1000000#64 (some 1000)]) ∧
    (let s := (flying (.pulse 0x3001#32 none 0#32 2000000#64 (some 998)) up).setE 0 12 1 9#32
     storedB s = true ∧ (after (.pulseStopEdge (.sq 0) 5#16) s).sig = [] ∧ ((after (.pulseStopEdge (.sq 0) 5#16) s).hst.cplWait.map (·.status)) = [.ok]) ∧
    (let s := { flying (.axisRun 1#64 none) up with cref := 400000 }
     (s.hst.inflight.all fun d => d.expired s.cref && !d.mute) = true ∧ ((after (.descriptorTimeout (.sq 0) 5#16) s).hst.cplWait.map (·.status)) = [.timeout]) ∧
    (let s := { flying (.seamOpen 1#64 true) up with cref := 400000 }
     (s.hst.inflight.all fun d => d.expired s.cref) = true ∧ ((after (.descriptorTimeout (.sq 0) 5#16) s).hst.cplWait.map (·.status)) = [.timeout]) ∧
    (((after (.descriptorTimeout (.sq 0) 5#16) (flying .fetched up)).hst.cplWait) = []) := by
  decide +kernel

/-- A MOTOR_ID Fitting of axis 0. -/
def motor : FitOp := { axes := 1#64, iTest := 0x3F800000#32 }

/-- The same Fitting, accepted and charging. -/
def waitingFit : State := { (flying (.fitting .motorId) fit).modCh 0 (fun c => { c with st := .charging }) with fits := [{ hdr := hd, kind := .motorId, op := motor }] }

/-- The same Fitting at the end of its sweep. -/
def sweeping (commit : Bool) : State := { (running 0).modCh 0 (fun c => { c with sweep := some { kind := .motorId, op := motor, at_ := 900, over_ := true, startL := 0 } }) with
  fits := [{ hdr := hd, kind := .motorId, op := { motor with commit := commit }, started := true }] }

/-- A CROSS Fitting in a holdover that has lasted. -/
def heldOver : State := { (running 0).modAlm (fun a => { a with st := .holdover }) with
  cref := 400000000
  fits := [{ hdr := hdt, kind := .motorId, op := { motor with cross := true }, started := true, holdover := true }] }

theorem witness_AxisDescriptorsComplete :
    ((running 0).axesCheck 1#64 = none ∧ (running 0).roleCheck 1#64 = none ∧ (running 0).fits = [] ∧ (running 0).outstanding 0 = false ∧
      (after (.axisStateHold hd 1#64) (running 0)).ax[0].ch.st = .stopping) ∧
    (let s := up.modCh 0 fun c => { c with st := .safe }
     s.ax[0].clu.recovering = false ∧ (after (.axisStateHold hd 1#64) s).ax[0].ch.st = .hold) ∧
    (let s := up.modClu 0 fun c => { c with recovering := true }
     s.ax[0].clu.recovering = true ∧ ((after (.axisStateHold hd 1#64) s).hst.cplWait.map (·.status)) = [.faulted]) ∧
    (let s := sweeping false
     let i := Instr.axisStateHold hd 1#64
     takesB false hd i s = true ∧ (taken hd i s).axesCheck 1#64 = none ∧ (taken hd i s).roleCheck 1#64 = none ∧ (taken hd i s).inAnyFit 0 = true ∧
      (after i s).ax[0].ch.st = .stopping ∧ ((after i s).hst.cplWait.map (·.status)) = [.conflict]) ∧
    (let i := Instr.axisStateRun hd 1#64
     let u := taken hd i fit
     takesB false hd i fit = true ∧ u.runCheck 1#64 = none ∧ u.exitCheck 0 u.ax[0].ch.mode = none ∧
      (after (.axisStateRun hd 1#64) fit).ax[0].ch.st = .charging ∧ (after (.axisStateRun hd 1#64) fit).ax[0].pwm.charging = true) ∧
    (let u := taken hd (.axisStateRun hd 1#64) up
     u.runCheck 1#64 = none ∧ u.exitCheck 0 u.ax[0].ch.mode = some (2, .faulted) ∧ (after (.axisStateRun hd 1#64) up).ax[0].ch.refuse = 2#8) ∧
    (takesB false hd (.axisMode hd 1#64 2#8 1#8) up = true ∧ (taken hd (.axisMode hd 1#64 2#8 1#8) up).modeCheck 1#64 2#8 1#8 = none ∧
      storedB (taken hd (.axisMode hd 1#64 2#8 1#8) up) = true ∧ (after (.axisMode hd 1#64 2#8 1#8) up).e 0 12 18 = 0x80000012#32 ∧ (after (.axisMode hd 1#64 2#8 1#8) up).ax[0].ch.modeWait = true) ∧
    (((after (.axisMode hd 1#64 4#8 0#8) up).hst.cplWait.map (·.status)) = [.badArg]) ∧
    (up.ax[0].clu.role = false ∧ startDflt.length = 48 ∧ startOk startDflt = true ∧ stopOk stopDflt = true ∧
      takesB false hd (.axisProfile hd 0#8 0#8 (crc32c startDflt) startDflt) up = true ∧
      (after (.axisProfile hd 0#8 0#8 (crc32c startDflt) startDflt) up).ax[0].clu.ctm.rd (0x1280 / 4) = 0x31#32 ∧
      (after (.axisProfile hd 0#8 1#8 (crc32c stopDflt) stopDflt) up).ax[0].clu.ctm.rd (0x12B0 / 4 + 1) = 0x42C80000#32) ∧
    ((0#32 : Word) ≠ crc32c startDflt ∧ ((after (.axisProfile hd 0#8 0#8 0#32 startDflt) up).hst.cplWait.map (·.status)) = [.crc]) := by
  decide +kernel

/-- A segment of 1 s. -/
def segment : List Byte := List.replicate 20 0#8 ++ wordBytes 0x3F800000#32 ++ List.replicate 16 0#8

/-- Axis 0 in POSITION. -/
def positioned : State := up.modCh 0 fun c => { c with mode := .position }

theorem witness_SignalAndSegmentDescriptorsComplete :
    (let i := Instr.signalWrite hd [(0x3001#32, 0xBF800000#32), (0x3001#32, 0xC0000000#32)]
     let u := taken hd i up
     takesB false hd i up = true ∧ storedB u = true ∧ u.sigCheck [(0x3001#32, 0xBF800000#32), (0x3001#32, 0xC0000000#32)] = none ∧
      u.haltCheck (u.motionAxes i) = none ∧ (after i up).sig = [(0x3001, 0xC0000000#32)]) ∧
    ((taken hd (.signalWrite hd [(0x100000#32, 0#32)]) up).sigCheck [(0x100000#32, 0#32)] = some (.badArg, 0#32) ∧ (after (.signalWrite hd [(0x100000#32, 0#32)]) up).sig = []) ∧
    (((after (.signalPulse hd 0x3001#32 0#32 0#32 5#64) up).hst.cplWait.map (·.status)) = [.badArg]) ∧
    (let i := Instr.signalPulse hdt 0x3001#32 0#32 0#32 1000003#64
     takesB true hdt i up = true ∧ (taken hdt i up).writeCheck 0x3001 0#32 = none ∧ (taken hdt i up).haltCheck ((taken hdt i up).motionAxes i) = none ∧
      ((after (.signalPulse hdt 0x3001#32 0#32 0#32 1000000#64) up).hst.cplWait.map (·.status)) = [.badWindow] ∧ hdt.time.toNat + 3 ≤ (1000003#64 : Dword).toNat ∧
      ((after i up).hst.inflight.map (·.act)) = [.timed i]) ∧
    (let i := Instr.segmentPush hd 0#8 segment
     takesB false hd i positioned = true ∧ storedB (taken hd i positioned) = true ∧ (taken hd i positioned).segCheck 0#8 segment = none ∧
      (after (.segmentPush hd 0#8 segment) positioned).e 0 10 1 = 1#32 ∧ (after (.segmentPush hd 0#8 segment) positioned).ax[0].clu.ctm.rd (0x1000 / 4 + 5) = 0x3F800000#32) ∧
    (let s := positioned.setE 0 10 1 3#32
     let u := taken hd (.segmentFlush hd 1#64) s
     takesB false hd (.segmentFlush hd 1#64) s = true ∧ u.axesCheck 1#64 = none ∧ u.roleCheck 1#64 = none ∧ storedB u = true ∧ (after (.segmentFlush hd 1#64) s).e 0 10 1 = 0#32) := by
  decide +kernel

/-- Stream 3 open with one word and room for 1 KiB. -/
def streaming (rp : Word) : State := { up with cref := 4002 }.modHst fun h => { h with
  tel := h.tel.set 3 { h.tel[3] with isOpen := true, event := 7#8, ringAddr := 0x10000#64, ringSize := 4096, list := [0#32], decim := 1, wp := 64#32, rp := rp } }

theorem witness_TelemetryStreamsComplete :
    (takesB false hd (.telOpen hd 3#8 1#8 0#8 0#8 1#16 0xFF#8 [0#32] 0x10000#64 4096#32 (crc32c (wordBytes 0#32)) 0#32) up = true ∧
      (taken hd (.telOpen hd 3#8 1#8 0#8 0#8 1#16 0xFF#8 [0#32] 0x10000#64 4096#32 (crc32c (wordBytes 0#32)) 0#32) up).telCheck hd 3#8 1#8 0#8 0#8 0xFF#8 [0#32] 0x10000#64 4096#32 (crc32c (wordBytes 0#32)) 0#32 = none ∧ (3#8 : BitVec 8) = BitVec.ofNat 8 (3 : Fin 32).val ∧
      (after (.telOpen hd 3#8 1#8 0#8 0#8 1#16 0xFF#8 [0#32] 0x10000#64 4096#32 (crc32c (wordBytes 0#32)) 0#32) up).hst.tel[3].isOpen = true) ∧
    (takesB false hd (.telClose hd 3#8) (streaming 0#32) = true ∧ up.sysOn 76 = true ∧ (after (.telClose hd 3#8) (streaming 0#32)).hst.tel[3].isOpen = false) ∧
    (let s := streaming 0#32; let x := s.hst.tel[3]
     s.telDue x = some 4000 ∧ s.epochHeldAt 4000 = false ∧ s.bar0 = true ∧ x.gapDrops = 0 ∧ x.pad (sampleLen x.list.length) = 0 ∧ sampleLen x.list.length + 48 ≤ x.free ∧
      (after (.telSample 3) s).hst.tel[3].seq = 1#32 ∧ (after (.telSample 3) s).hst.tel[3].wp = 64#32 + BitVec.ofNat 32 (sampleLen 1) ∧ (after (.telSample 3) s).out.length = 1) ∧
    (let s := streaming (64#32 - 4096#32); let x := s.hst.tel[3]
     s.telDue x = some 4000 ∧ x.free < sampleLen x.list.length + 48 ∧ (after (.telSample 3) s).hst.tel[3].seq = 1#32 ∧ (after (.telSample 3) s).out = [] ∧
      (after (.telSample 3) s).hst.tel[3].drop = 1#32) ∧
    ((64#32 - 0#32 : Word).toNat ≤ (streaming 0#32).hst.tel[3].ringSize ∧ (after (.telRpWrite 3 64#32) (streaming 0#32)).hst.tel[3].rp = 64#32) ∧
    ((streaming 0#32).hst.tel[3].ringSize < (64#32 - 65#32 : Word).toNat ∧ (after (.telRpWrite 3 65#32) (streaming 0#32)).hst.rpBad = 8#32) := by
  decide +kernel

theorem witness_FittingsRunAndComplete :
    (let u := taken hd (.motorId hd motor) fit
     takesB false hd (.motorId hd motor) fit = true ∧ u.fitChecks hd .motorId motor = none ∧ u.fitExit .motorId motor = none ∧
      (after (.motorId hd motor) fit).ax[0].ch.st = .charging ∧ (after (.motorId hd motor) fit).fits.length = 1) ∧
    (let s := fit.modBank 0 fun k => { k with gateEn := false }
     let u := taken hd (.motorId hd motor) s
     u.fitChecks hd .motorId motor = none ∧ u.fitExit .motorId motor = some (0, 4, .faulted) ∧ (after (.motorId hd motor) s).ax[0].ch.refuse = 4#8) ∧
    (hdt.flags.getLsbD 2 = true ∧ takesB false { hdt with flags := hdt.flags &&& 0xFB#8 } (.motorId hdt motor) fit = true ∧ (taken { hdt with flags := 0#8 } (.motorId hdt motor) fit).fitChecks hdt .motorId motor = none ∧
      (after (.motorId hdt motor) fit).ax[0].ch.st = .hold ∧ (after (.motorId hdt motor) fit).fits.length = 1) ∧
    (let s := waitingFit.modGdr 0 fun d => { d with bstOk := 7#3, live := 0x00002007#32 }
     (s.fitOf (.sq 0) 5#16).isSome = true ∧ storedB s = true ∧ s.ax[0].gdr.bstLive = 7#3 ∧ s.ax[0].sns.calRun = false ∧
      (after (.fittingStart (.sq 0) 5#16) s).ax[0].ch.st = .run ∧ ((after (.fittingStart (.sq 0) 5#16) s).fits.map (·.started)) = [true]) ∧
    (let s := { waitingFit with fits := [{ hdr := { hdt with time := 2000000#64 }, kind := .motorId, op := motor }] }
     ((s.fitOf (.sq 0) 5#16).map fun f => s.fitTime f (s.chargeNs f)) = some false ∧ ((after (.fittingStart (.sq 0) 5#16) s).fits.map (·.started)) = [false]) ∧
    (storedB (sweeping false) = true ∧ (((sweeping false).fitOf (.sq 0) 5#16).map fun f => (f.started, (sweeping false).sweepsOver f)) = some (true, true) ∧
      (after (.sweepComplete (.sq 0) 5#16 0#64) (sweeping false)).ax[0].ch.st = .stopping ∧
      ((after (.sweepComplete (.sq 0) 5#16 0#64) (sweeping false)).img.pend.length = 1)) ∧
    (storedB (sweeping true) = true ∧ (((sweeping true).fitOf (.sq 0) 5#16).map fun f => (f.op.commit, (sweeping true).sweepsOver f)) = some (true, true)) ∧
    ((heldOver.fits.all fun f => f.started && f.ending.isNone && heldOver.holdoverOver f) = true ∧
      (after (.almHoldoverExpiry (.sq 0) 5#16) heldOver).ax[0].ch.st = .stopping) ∧
    (up.alm.st ≠ .holdover ∧ up.alm.st ≠ .lost) := by
  decide +kernel

/-! Patterns, coordination, Seams and snapshots. -/

/-- The first 60 bytes of a MOTOR_ID Pattern of axis 0. -/
def patHead : List Byte := wordBytes 0x54505943#32 ++ [1#8, 0#8, 0#8, 0#8] ++ List.replicate 24 0#8 ++ wordBytes 20#32 ++ List.replicate 24 0#8
/-- That Pattern, its payload zero. -/
def pat : List Byte := patHead ++ wordBytes (crc32c (patHead ++ List.replicate 20 0#8)) ++ List.replicate 20 0#8

theorem byteAt_append_left {l r : List Byte} {k : Nat} (h : k < l.length) : byteAt (l ++ r) k = byteAt l k := by
  simp [byteAt, List.getD, List.getElem?_append_left h]
theorem byteAt_append_right {l r : List Byte} {k : Nat} (h : l.length ≤ k) : byteAt (l ++ r) k = byteAt r (k - l.length) := by
  simp [byteAt, List.getD, List.getElem?_append_right h]

theorem word_of_bytes (w : Word) : w = byteAt (wordBytes w) 3 ++ byteAt (wordBytes w) 2 ++ byteAt (wordBytes w) 1 ++ byteAt (wordBytes w) 0 := by
  apply BitVec.eq_of_getLsbD_eq
  intro i hi
  change w.getLsbD i = ((w >>> 24).setWidth 8 ++ (w >>> 16).setWidth 8 ++ (w >>> 8).setWidth 8 ++ w.setWidth 8).getLsbD i
  rw [BitVec.getLsbD_append, BitVec.getLsbD_append, BitVec.getLsbD_append]
  simp only [BitVec.getLsbD_setWidth, BitVec.getLsbD_ushiftRight]
  by_cases h1 : i < 8
  · simp [h1]
  · by_cases h2 : i < 16
    · simp [h1, show i - 8 < 8 by omega, show 8 + (i - 8) = i by omega]
    · by_cases h3 : i < 24
      · simp [h1, show ¬ i - 8 < 8 by omega, show i - 8 - 8 < 8 by omega, show 16 + (i - 8 - 8) = i by omega]
      · simp [h1, show ¬ i - 8 < 8 by omega, show ¬ i - 8 - 8 < 8 by omega, show i - 8 - 8 - 8 < 8 by omega, show 24 + (i - 8 - 8 - 8) = i by omega]

theorem pat_crc : wordAt pat 60 = crc32c (pat.take 60 ++ pat.drop 64) := by
  have hl : patHead.length = 60 := by decide +kernel
  have e1 : pat.take 60 = patHead := by rw [pat, List.append_assoc, ← hl, List.take_left]
  have e2 : pat.drop 64 = List.replicate 20 0#8 := by
    rw [pat, show (64 : Nat) = (patHead ++ wordBytes (crc32c (patHead ++ List.replicate 20 0#8))).length by rw [List.length_append, hl]; rfl, List.drop_left]
  have b : ∀ i, i < 4 → byteAt pat (60 + i) = byteAt (wordBytes (crc32c (patHead ++ List.replicate 20 0#8))) i := fun i hi => by
    rw [pat, byteAt_append_left (by rw [List.length_append, hl]; change _ < 60 + 4; omega), byteAt_append_right (by rw [hl]; omega), hl]; congr 1; omega
  rw [e1, e2]
  simp only [wordAt, b 1 (by omega), b 2 (by omega), b 3 (by omega), show byteAt pat 60 = byteAt (wordBytes (crc32c (patHead ++ List.replicate 20 0#8))) 0 from b 0 (by omega)]
  exact (word_of_bytes _).symm

theorem patternWrite_ok : (taken hd (.patternWrite hd 84#32 pat) up).patternWriteCheck hd 84#32 pat = none := by
  have hk : kindOf? (byteAt pat 6) = some .motorId := by decide +kernel
  simp only [State.patternWriteCheck, hk]
  rw [show failIf (wordAt pat 60 ≠ crc32c (pat.take 60 ++ pat.drop 64)) Status.crc = none by simp [failIf, pat_crc]]
  decide +kernel

/-- The Pattern with no CRC, which is pending. -/
def pat0 : List Byte := patHead ++ List.replicate 24 0#8
def pended (b : List Byte) : State := up.modImg fun i => { i with pend := [{ axis := 0, kind := .motorId, pat := { bytes := b } }] }

theorem witness_PatternDescriptorsComplete :
    (let i := Instr.patternCommit hd 1#8 0#8 0#8 0#32 0#64
     takesB false hd i (pended pat0) = true ∧ (taken hd i (pended pat0)).selectCheck 1#8 0#8 0#8 0#32 = none ∧
      (taken hd i (pended pat0)).selected 1#8 0#8 0#8 0#32 = [{ axis := 0, kind := .motorId, pat := { bytes := pat0 } }] ∧ Pattern.partial_ { bytes := pat0 } = false ∧
      64 ≤ pat0.length) ∧
    ((taken hd (.patternCommit hd 1#8 0#8 0#8 0#32 0#64) up).selected 1#8 0#8 0#8 0#32 = [] ∧ ((after (.patternCommit hd 1#8 0#8 0#8 0#32 0#64) up).hst.cplWait.map (·.status)) = [.conflict]) ∧
    (((after (.patternCommit hd 0#8 0#8 0#8 0#32 0#64) (pended (pat0.set 7 1#8))).hst.cplWait.map (·.status)) = [.partialRes]) ∧
    (after (.patternDiscard hd 0#8 0#8 0#8 0#32) (pended pat0)).img.pend = [] ∧ takesB false hd (.patternWrite hd 84#32 pat) up = true ∧
    (after (.patternCommit hd 1#8 0#8 0#8 0#32 1#64) (pended pat0)).img.pend.length = 1 ∧
    (let s := up.setOut 0 7 1 1#32
     takesB false hd (.patternCommitCtm hd 0#8 2#8 0#64) s = true ∧ (taken hd (.patternCommitCtm hd 0#8 2#8 0#64) s).ripLoaded 0 = true) ∧
    ((taken hd (.patternCommitCtm hd 0#8 2#8 0#64) up).ripLoaded 0 = false ∧ ((after (.patternCommitCtm hd 0#8 2#8 0#64) up).hst.cplWait.map (·.status)) = [.conflict]) ∧
    (takesB false hd (.patternRead hd 0#8 0#8 1#8 0x1000#64 84#32) (pended pat0) = true ∧ (taken hd (.patternRead hd 0#8 0#8 1#8 0x1000#64 84#32) (pended pat0)).readPattern 0 .motorId 1#8 = some { bytes := pat0 } ∧ pat0.length ≤ (84#32 : Word).toNat ∧
      (after (.patternRead hd 0#8 0#8 1#8 0x1000#64 84#32) (pended pat0)).out = [.hostWrite 0x1000#64 pat0]) ∧
    ((taken hd (.patternRead hd 0#8 0#8 1#8 0x1000#64 84#32) up).readPattern 0 .motorId 1#8 = none ∧ ((after (.patternRead hd 0#8 0#8 1#8 0x1000#64 84#32) up).hst.cplWait.map (·.status)) = [.conflict]) := by
  decide +kernel

/-- Axis 0 in the coordination role. -/
def coord : State := up.modClu 0 fun c => { c with role := true }

theorem witness_CoordinationCommandsComplete :
    (up.axOn 0 = true ∧ up.variant.openEngines = true ∧ up.ax[0].clu.role = false ∧ up.ax[0].clu.recovering = false ∧ up.ax[0].ch.st = .hold ∧
      takesB false hd (.coordRoleSet hd 0#8) up = true ∧ storedB (taken hd (.coordRoleSet hd 0#8) up) = true ∧
      (taken hd (.coordRoleSet hd 0#8) up).inAnyFit 0 = false ∧ (taken hd (.coordRoleSet hd 0#8) up).hasPending 0 = false ∧ (after (.coordRoleSet hd 0#8) up).ax[0].clu.role = true) ∧
    (((after (.coordRoleClear hd 0#8) up).hst.cplWait.map (·.status)) = [.conflict]) ∧
    (takesB false hd (.coordRoleSet hd 0#8) coord = true ∧ storedB (taken hd (.coordRoleSet hd 0#8) coord) = true ∧ coord.ax[0].clu.role = true ∧ ((after (.coordRoleSet hd 0#8) coord).hst.cplWait.map (·.status)) = [.conflict]) ∧
    ((after (.coordRoleClear hd 0#8) coord).ax[0].clu.role = false ∧ (after (.coordRoleClear hd 0#8) coord).ax[0].clu.eng[3].st = .waiting) := by
  decide +kernel

/-- A lens map that rises from 1.0 and deflects nothing, before its CRC. -/
def lensHead : List Byte := wordBytes 1#32 ++ List.replicate 28 0#8 ++ (List.range 64).flatMap (fun i => wordBytes (BitVec.ofNat 32 i)) ++
  (List.range 64).flatMap fun i => wordBytes (BitVec.ofNat 32 (0x3F800000 + i))
def lensBody : List Byte := lensHead ++ List.replicate 16384 0#8
def lens : List Byte := lensBody ++ wordBytes (crc32c lensBody)

theorem lensHead_length : lensHead.length = 544 := by decide +kernel
theorem lensBody_length : lensBody.length = 16928 := by
  rw [lensBody, List.length_append, lensHead_length, List.length_replicate]
theorem wordAt_lens_head {k : Nat} (h : k + 3 < 544) : wordAt lens k = wordAt lensHead k := by
  have e : ∀ i, i < 544 → byteAt lens i = byteAt lensHead i := fun i hi => by
    rw [lens, lensBody, List.append_assoc, byteAt_append_left (by rw [lensHead_length]; omega)]
  simp [wordAt, e k (by omega), e (k + 1) (by omega), e (k + 2) (by omega), e (k + 3) (by omega)]

theorem wordAt_lens_zero {k : Nat} (h0 : 544 ≤ k) (h : k + 3 < 16928) : wordAt lens k = 0#32 := by
  have e : ∀ i, 544 ≤ i → i < 16928 → byteAt lens i = 0#8 := fun i h0 hi => by
    rw [lens, byteAt_append_left (by rw [lensBody_length]; omega), lensBody, byteAt_append_right (by rw [lensHead_length]; omega)]
    simp only [byteAt, List.getD, List.getElem?_replicate]; split <;> rfl
  simp [wordAt, e k (by omega) (by omega), e (k + 1) (by omega) (by omega), e (k + 2) (by omega) (by omega), e (k + 3) (by omega) (by omega)]

theorem wordAt_lens_crc : wordAt lens 16928 = crc32c (lens.take 16928) := by
  have e : lens.take 16928 = lensBody := by rw [lens, ← lensBody_length, List.take_left]
  rw [e]
  have b : ∀ i, byteAt lens (16928 + i) = byteAt (wordBytes (crc32c lensBody)) i := fun i => by
    rw [lens, byteAt_append_right (by rw [lensBody_length]; omega), lensBody_length]; simp
  simp only [wordAt, b, show byteAt lens 16928 = byteAt (wordBytes (crc32c lensBody)) 0 from b 0]
  exact (word_of_bytes _).symm

theorem all_range_congr {n : Nat} {f g : Nat → Bool} (h : ∀ i < n, f i = g i) : (List.range n).all f = (List.range n).all g := by
  rw [Bool.eq_iff_iff, List.all_eq_true, List.all_eq_true]
  exact forall_congr' fun i => imp_congr_right fun hi => by rw [h i (List.mem_range.mp hi)]

theorem witness_LensMapIsTaken : lens.length = 16932 ∧ wordAt lens 16928 = crc32c (lens.take 16928) ∧ (wordAt lens 4).toNat < up.variant.axes ∧
    (wordAt lens 12).toNat < up.variant.axes ∧ lensOk lens = true := by
  refine ⟨?_, wordAt_lens_crc, ?_, ?_, ?_⟩
  · rw [lens, List.length_append, lensBody_length]; rfl
  · rw [wordAt_lens_head (by omega)]; decide +kernel
  · rw [wordAt_lens_head (by omega)]; decide +kernel
  · have hb : dwordAt lens 16 = 0#64 := by
      rw [dwordAt, wordAt_lens_head (by omega), wordAt_lens_head (by omega)]; decide +kernel
    have hall : ((List.range 4096).all fun i => decide (hi32 (0#64 + (wordAt lens (544 + 4 * i)).signExtend 64) = hi32 0#64)) = true := by
      rw [List.all_eq_true]
      intro i hi
      rw [wordAt_lens_zero (by omega) (by have := List.mem_range.mp hi; omega)]; decide +kernel
    have h0 : wordAt lens 0 = 1#32 := by rw [wordAt_lens_head (by omega)]; decide +kernel
    have hrise : ∀ (f : Word → Word → Bool) (o : Nat), o + 256 ≤ 544 → risesBy f lens o = risesBy f lensHead o := fun f o ho => by
      exact all_range_congr fun i hi => by rw [wordAt_lens_head (by omega), wordAt_lens_head (by omega)]
    have hx : ((List.range 64).all fun i => F32.lt 0#32 (wordAt lens (288 + 4 * i))) = true := by
      have : ((List.range 64).all fun i => F32.lt 0#32 (wordAt lensHead (288 + 4 * i))) = true := by decide +kernel
      rw [← this]
      exact all_range_congr fun i hi => by rw [wordAt_lens_head (by omega)]
    unfold lensOk
    simp only [h0, hb, hall, hx, hrise _ 32 (by omega), hrise _ 288 (by omega)]
    decide +kernel

theorem witness_LensMapWaits :
    (let i := Instr.lensMap hd 0#8 16932#32 lens
     let s := taken hd i coord
     takesB false hd i coord = true ∧ s.openActs 0 = [] ∧ spanCheck hd.src hd.dataAddr 16932 = none ∧ (s.hst.inflight.all fun d => match d.act with | .lensMap _ _ _ => false | _ => true) = true) ∧
    (taken hd (.lensMap hd 0#8 16932#32 lens) (coord.modEng 0 3 fun y => { y with st := .active })).openActs 0 ≠ [] := by
  decide +kernel

/-! Seams and snapshots. -/

/-- A state whose Seam slot 0 is as given. -/
def slot0 (x : SeamSlot) (s : State := up) : State := s.modSlot 0 fun _ => x
/-- An entry that writes PER of axis 0, as bytes. -/
def perEntry : List Byte := [2#8, 0#8, 0#8, 0#8] ++ wordBytes 0x00080004#32 ++ wordBytes 4000#32 ++ wordBytes 0xFFFFFFFF#32

theorem witness_SeamsAreBuiltAndStaged :
    ((1#8 : BitVec 8).toNat < 2 ∧ up.seam.slot[0].st = .free ∧ takesB false hd (.seamOpen hd 1#64 1#8) up = true ∧ (taken hd (.seamOpen hd 1#64 1#8) up).axesCheck 1#64 = none ∧ (after (.seamOpen hd 1#64 1#8) up).seam.slot[0].gen = 1#10 ∧
      ((after (.seamOpen hd 1#64 1#8) up).hst.cplWait.map (·.info)) = [0x40#32]) ∧
    (let s := up.modSeam fun u => { u with slot := Vector.replicate 64 { st := .opened } }
     takesB false hd (.seamOpen hd 1#64 1#8) s = true ∧ ((after (.seamOpen hd 1#64 1#8) s).hst.cplWait.map (·.status)) = [.noSpace]) ∧
    (let s := up.modSeam fun u => { u with slot := (Vector.replicate 64 { st := .opened }).set 5 { st := .retiring, gen := 3#10 } }
     (∀ j : Fin 64, s.seam.slot[j].st ≠ .free) ∧ s.seam.slot[5].st = .retiring ∧ ((after (.seamOpen hd 1#64 1#8) s).hst.cplWait = []) ∧
      ((after (.seamOpen hd 1#64 1#8) s).hst.inflight.map (·.act)) = [.seamOpen 1#64 true]) ∧
    (let s := slot0 { st := .opened, gen := 1#10, axes := 1#64 }
     let i := Instr.seamAdd hd 0x40#16 1#16 (crc32c perEntry) perEntry
     takesB false hd i s = true ∧ (taken hd i s).slotOf? 0x40#16 = some 0 ∧ (taken hd i s).entryChecks [] [entryAt perEntry 0] = [none] ∧ perEntry.length = 16 ∧
      (after (.seamAdd hd 0x40#16 1#16 (crc32c perEntry) perEntry) s).seam.slot[0].entries.length = 1 ∧
      ((after (.seamAdd hd 0x40#16 1#16 0#32 perEntry) s).hst.cplWait.map (·.status)) = [.crc] ∧
      (taken hd (.seamArm hd 0x40#16 0#8 0#8 0#8 0#64 0#64) s).armCheck 0x40#16 0#8 0#8 0#8 0#64 0#64 = none ∧ (after (.seamArm hd 0x40#16 0#8 0#8 0#8 0#64 0#64) s).seam.slot[0].st = .armed ∧
      (after (.seamCancel hd 0x40#16) s).seam.slot[0].st = .retiring) ∧
    (let s := slot0 { st := .retiring, gen := 1#10 }
     (taken hd (.seamCancel hd 0x40#16) s).slotOf? 0x40#16 = some 0 ∧ s.seam.slot[0].waits = false ∧ ((after (.seamCancel hd 0x40#16) s).hst.cplWait.map (·.status)) = [.conflict]) ∧
    (let s := slot0 { st := .armed }
     s.stagingHeld 0 = false ∧ (after (.stagingStart 0) s).seam.slot[0].staging = true) ∧
    (let s := (slot0 { st := .armed, order := 1, entries := [{ kind := 1#8, addr := 5#32, value := 0#32 }] }).modSlot 1 fun _ => { st := .armed, entries := [{ kind := 1#8, addr := 5#32, value := 2#32 }] }
     s.stagingHeld 0 = true ∧ (after (.stagingStart 0) s).seam.slot[0].staging = false) ∧
    (let s := slot0 { st := .armed, staging := true }
     s.seamLate s.seam.slot[0] = false ∧ (after (.stagingComplete 0) s).seam.slot[0].stagedAt = 1000) ∧
    (let s := slot0 { st := .armed, staging := true, entries := [{ kind := 2#8, addr := 0x00080004#32, value := 10#32 }] }
     s.restage s.seam.slot[0].entries { kind := 2#8, addr := 0x00080004#32, value := 10#32 } = true ∧ (after (.stagingComplete 0) s).seam.slot[0].st = .retiring) := by
  decide +kernel

theorem witness_SeamsCommitWhole :
    (let s := slot0 { st := .staged, stagedAt := 1000, axes := 1#64 } (up.modCh 0 fun c => { c with st := .safe })
     s.seamPoint s.seam.slot[0] = true ∧ (0 : AxisId) ∈ axesOf s.seam.slot[0].members ∧ s.seamBlocked 0 = true ∧ (after (.seamDecision 0) s).seam.slot[0].st = .retiring ∧
      (after (.seamDecision 0) s).seam.abortCnt = 1#16) ∧
    (let s := slot0 { st := .staged, stagedAt := 1000, axes := 1#64, entries := [{ kind := 0x10#8, addr := 0#32, value := 1#32 }] }
     s.seam.slot[0].expects.length = 1 ∧ s.expectHolds { kind := 0x10#8, addr := 0#32, value := 1#32 } = false ∧ (after (.seamDecision 0) s).seam.slot[0].st = .retiring) ∧
    (let s := slot0 { st := .staged, stagedAt := 1000, axes := 1#64 }
     s.seamPoint s.seam.slot[0] = true ∧ s.seamBlocked 0 = false ∧ s.baseBad s.seam.slot[0] = none ∧ (after (.seamDecision 0) s).seam.slot[0].dueT = 1004) ∧
    (let s := slot0 { st := .staged, stagedAt := 1000, axes := 1#64, entries := [{ kind := 2#8, addr := 0x00080C08#32, value := 1#32 }] } (running 0)
     s.seamPoint s.seam.slot[0] = true ∧ s.baseBad s.seam.slot[0] = some 0 ∧ (after (.seamDecision 0) s).seam.slot[0].st = .retiring ∧ (after (.seamDecision 0) s).seam.abortCnt = 1#16) ∧
    (up.seam.slot[0].st ≠ .staged ∧ up.seam.slot[0].going = false) ∧
    (let s := slot0 { st := .retiring, decided := true, dueT := 1000, hdr := some hd, axes := 1#64, entries := [{ kind := 2#8, addr := 0x00080004#32, value := 4000#32 }] }
     s.seam.slot[0].going = true ∧ s.seam.slot[0].t = none ∧ s.seam.slot[0].dueT = s.cref ∧ 0x00080004#32 = BitVec.ofNat 32 (0x80000 + 0x2000 * (0 : AxisId).val + 4) ∧ (after (.seamCommit 0) s).ax[0].pwm.shadow.per = 4000 ∧ (after (.seamCommit 0) s).seam.slot[0].t = some 1000 ∧
      (after (.seamCommit 0) { s with cref := 1001 }).seam.slot[0].t = none) ∧
    (let s := slot0 { st := .retiring, decided := true, hdr := some hd, t := some 998, axes := 1#64, entries := [{ kind := 1#8, addr := 0x3001#32, value := 7#32 }] }
     storedB s = true ∧ s.axOn (sigAxis 0x3001) = true ∧ s.noWords (sigAxis 0x3001) (sigEng 0x3001) = false ∧ (after (.seamEpoch 0) s).sig = [(0x3001, 7#32)] ∧
      (after (.seamEpoch 0) s).seam.commitCnt = 1#16 ∧ s.seam.slot[0].segGo = false ∧ (after (.seamEpoch 0) s).seam.epoch = 1#32 ∧
      (after (.seamEpoch 0) (s.modSlot 1 fun _ => { st := .retiring, t := some 998, epoch := 0 })).seam.epoch = 0#32) ∧
    (let s := slot0 { st := .retiring, decided := true, dueT := 1000, hdr := some hd, t := some 998, axes := 1#64, segGo := true }
       ((up.setOut 0 10 1 1#32).ctmWrite 0 0x1000 (segment.set 24 2#8))
     storedB s = true ∧ s.axOn 0 = true ∧ s.ax[0].clu.role = false ∧ s.ax[0].ch.seg = none ∧ s.segDepth 0 = 1 ∧ segOk (s.headSeg 0) = true ∧
      byteAt (s.headSeg 0) 24 = 2#8 ∧ ((after (.seamEpoch 0) s).ax[0].ch.seg.map (·.beganAt)) = some 998) ∧
    (let s := slot0 { st := .retiring, t := some 1000, epoch := 0, gen := 5#10 }
     s.seam.slot[0].going = false ∧ s.olderRuns s.seam.slot[0].epoch = false ∧ s.hst.inflight = [] ∧ (after (.seamRetire 0) s).seam.slot[0].st = .free ∧
      (let u := slot0 s.seam.slot[0] (flying (.seamOpen 3#64 true) up)
       (u.hst.inflight.map (·.act)) = [.seamOpen 3#64 true] ∧ (after (.seamRetire 0) u).seam.slot[0].st = .opened ∧ (after (.seamRetire 0) u).seam.slot[0].gen = 6#10)) ∧
    (let s := (slot0 { st := .retiring, t := some 1000, epoch := 1 }).modEng 0 14 fun y => { y with st := .active }
     s.seam.slot[0].going = false ∧ s.olderRuns s.seam.slot[0].epoch = true ∧ (after (.seamRetire 0) s).seam.slot[0].st = .retiring) := by
  decide +kernel

/-- A snapshot of a signal word and of CREF's low half, which waits. -/
def snap : Snap := { hdr := hd, trigger := 0#8, event := 0#8, ref := 0#8, handle := 0#16, at_ := 0#64, list := [0x3001#32], dest := 0x1000#64, from_ := 999 }
def snapped (x : Snap) : State := (up.setE 0 12 1 9#32).modSeam fun u => { u with snaps := [x] }

theorem witness_SnapshotsCaptureOneInstant :
    (takesB false hd (.snapshot hd 0#8 0#8 0#8 1#8 0#16 0#64 [0x3001#32] 0x1000#64) up = true ∧
      (taken hd (.snapshot hd 0#8 0#8 0#8 1#8 0#16 0#64 [0x3001#32] 0x1000#64) up).snapCheck { snap with from_ := 1000 } = none ∧
      (after (.snapshot hd 0#8 0#8 0#8 1#8 0#16 0#64 [0x3001#32] 0x1000#64) up).seam.snaps.length = 1) ∧
    ((taken hd (.snapshot hd 5#8 0#8 0#8 1#8 0#16 0#64 [0x3001#32] 0x1000#64) up).snapCheck { snap with trigger := 5#8, from_ := 1000 } = some (.badArg, 0#32) ∧
      ((after (.snapshot hd 5#8 0#8 0#8 1#8 0#16 0#64 [0x3001#32] 0x1000#64) up).hst.cplWait.map (·.status)) = [.badArg]) ∧
    (snap.regs = none ∧ (snapped snap).snapNow snap = true ∧ (snapped snap).commitDue = false ∧
      ((after (.snapshotCapture (.sq 0) 5#16) (snapped snap)).seam.snaps.map (·.regs)) = [some [0#32]]) ∧
    (let s := snapped { snap with t := some (998, 5#64), regs := some [0#32] }
     s.epochHeldAt 998 = false ∧ (after (.snapshotCapture (.sq 0) 5#16) s).out = [.hostWrite 0x1000#64 (dwordBytes 998#64 ++ dwordBytes 5#64 ++ wordBytes 9#32)] ∧
      (after (.snapshotCapture (.sq 0) 5#16) s).seam.snaps = []) := by
  decide +kernel

/-! CAN and the Almanac. -/

/-- Controller 0 enabled, with the parts of the given one. -/
def bus (k : Can) : State := { up with can := up.can.set 0 { k with ctrl := k.ctrl ||| 1#32 } }
/-- A frame that waits. -/
def txb : TxBuf := { id := 3, owner := .send (.sq 0) 5#16, frame := { id := 0x123#29, data := [1#8, 2#8] } }
/-- A frame on the bus. -/
def rxf : CanFrame := { id := 0x123#29, data := [1#8, 2#8] }
/-- Filter 0 accepts everything, into a ring of 16 at 0x1000. -/
def hears (k : Can) : Can := { k with fltId := k.fltId.set 0 0x80000000#32, fltMask := k.fltMask.set 0 0#32, rxCfg := 0x80000004#32, rxLo := 0x1000#32 }

theorem witness_CanControllersComplete :
    (up.canOn 0 = true ∧ bit up.can[0].ctrl 0 = false ∧ up.can[0].cfgOk = true ∧ bit (after (.canEnable 0 0x17#32) up).can[0].ctrl 0 = true) ∧
    (let s := { up with can := up.can.set 0 { up.can[0] with nbt := 0#32 } }
     s.can[0].cfgOk = false ∧ bit (after (.canEnable 0 1#32) s).can[0].ctrl 0 = false ∧ bit (after (.canEnable 0 1#32) s).can[0].sticky 27 = true) ∧
    (let h := { hd with timeoutUs := 100000#32 }
     let i := Instr.canSend h 0#8 0#8 2#8 0x123#32 [1#8, 2#8]
     takesB false h i (bus {}) = true ∧ (taken h i (bus {})).canSendCheck h 0#8 0#8 2#8 0x123#32 = none ∧
      (after (.canSend { hd with timeoutUs := 100000#32 } 0#8 0#8 2#8 0x123#32 [1#8, 2#8]) (bus {})).can[0].tx.length = 1) ∧
    (let s := bus { tx := [txb], tec := 7#8 }
     s.canSends 0 = true ∧ s.can[0].mayGo txb (s.sofCref 7) = true ∧ s.can[0].tried txb (s.sofCref 7) = true ∧ txb.late = false ∧ (after (.canFrameSent 0 3 0#7 7) s).out = [.canFrame 0 rxf] ∧ (after (.canFrameSent 0 3 0#7 7) s).can[0].tec = 6#8 ∧
      (after (.canTxRetry 0 3 true 7) s).can[0].tec = 15#8 ∧ ((after (.canTxRetry 0 3 false 7) s).can[0].tx.map (·.retries)) = [1]) ∧
    (let s := bus { tx := [txb], tecOver := true }
     s.canOn 0 = true ∧ s.can[0].tecOver = true ∧ bit s.can[0].ctrl 0 = true ∧ (after (.busOff 0) s).can[0].busOff = true ∧ (after (.busOff 0) s).can[0].tx = []) ∧
    (let s := bus { busOff := true, tec := 255#8 }
     (after (.canRecover 0) s).can[0].recovering = true ∧ (after (.canRecover 0) (bus {})).can[0].recovering = false ∧
      (let u := { after (.canRecover 0) s with cref := 4000000 }
       u.can[0].recoverAt + u.can[0].recoverCp ≤ u.cref ∧ (after (.busOffRecovered 0) u).can[0].tec = 0#8)) ∧
    ((after (.canRxError 0 8#8) (bus { rec_ := 250#8 })).can[0].rec_ = 255#8) ∧
    (let s := bus (hears {})
     s.canTakes 0 rxf = true ∧ s.tunFrame 0 rxf = none ∧ s.refFrame 0 rxf = none ∧ s.can[0].filterOf rxf = some 0 ∧ s.bar0 = true ∧ s.can[0].rxUsed < 2 ^ bits s.can[0].rxCfg 3 0 ∧
      (after (.canFrameReceived 0 rxf 7) s).can[0].wp = 1#32) ∧
    (let s := bus (hears { wp := 16#32 })
     2 ^ bits s.can[0].rxCfg 3 0 ≤ s.can[0].rxUsed ∧ (after (.canFrameReceived 0 rxf 7) s).can[0].rx.length = 1) ∧
    (let s := bus (hears { wp := 16#32 })
     (16#32 - 0#32 : Word).toNat ≤ 2 ^ bits s.can[0].rxCfg 3 0 ∧ (after (.canRxRpWrite 0 16#32) s).can[0].rp = 16#32 ∧
      2 ^ bits s.can[0].rxCfg 3 0 < (16#32 - 17#32 : Word).toNat ∧ bit (after (.canRxRpWrite 0 17#32) s).can[0].sticky 25 = true) := by
  decide +kernel

/-- The tunnel of controller 0. -/
def tunnel : State := bus { ctrl := 0x12#32 }
/-- A tunnel frame at an offset from TUN_BASE. -/
def tf (o : Nat) (d : List Byte) : CanFrame := { fdf := true, id := BitVec.ofNat 29 (0x600 + o), data := d }

theorem witness_TunnelFramesComplete :
    (storedB tunnel = true ∧ bit tunnel.can[0].ctrl 1 = true ∧ tunnel.tunFrame 0 (tf 0 [0#8, 0#8, 0#8, 9#8]) = some 0 ∧
      tunnel.urgentAxes (bits (wordAt [0#8, 0#8, 0#8, 9#8] 0) 31 24) (bits (wordAt [0#8, 0#8, 0#8, 9#8] 0) 7 0) = none ∧
      (after (.tunnelUrgent 0 (tf 0 [0#8, 0#8, 0#8, 9#8])) tunnel).hst.urgBad = 1#8) ∧
    (tunnel.urgentAxes (bits (wordAt [63#8, 0#8, 0#8, 3#8] 0) 31 24) (bits (wordAt [63#8, 0#8, 0#8, 3#8] 0) 7 0) = some (axisMask 63) ∧
      (after (.tunnelUrgent 0 (tf 0 [63#8, 0#8, 0#8, 3#8])) tunnel).hst.halted = axisMask 63) ∧
    (bits tunnel.can[0].cnt 23 16 < 255 ∧ bits (after (.tunnelUrgent 0 (tf 0 [])) tunnel).can[0].cnt 23 16 = 1) ∧
    (tunnel.tunFrame 0 (tf 1 (List.replicate 64 0#8)) = some 1 ∧ (after (.tunnelDescriptor 0 (tf 1 (List.replicate 64 0#8))) tunnel).hst.inflight.length = 1) ∧
    (let s := tunnel.modHst fun h => { h with inflight := List.replicate 16 (tunnel.newEntry (.tun 0) []) }
     let d := [0#8, 8#8, 7#8, 0#8] ++ List.replicate 60 0#8
     s.tunFrame 0 (tf 1 d) = some 1 ∧ d.length = 64 ∧ ((after (.tunnelDescriptor 0 (tf 1 d)) s).hst.cplWait.map fun e => (e.tag, e.status)) = [(7#16, .noSpace)] ∧
      (after (.tunnelDescriptor 0 (tf 1 d)) s).can[0].chainDrop = true) ∧
    (let d := wordBytes 65476#32 ++ List.replicate 60 7#8
     tunnel.tunFrame 0 (tf 2 d) = some 2 ∧ d.length = 64 ∧ (wordAt d 0).toNat % 4 = 0 ∧ (wordAt d 0).toNat ≤ 65476 ∧
      (after (.tunnelWindowData 0 (tf 2 d)) tunnel).can[0].window.rd 65535 = 7#8) ∧
    (let d := wordBytes 65480#32 ++ List.replicate 60 7#8
     65476 < (wordAt d 0).toNat ∧ (after (.tunnelWindowData 0 (tf 2 d)) tunnel).can[0].window = []) := by
  decide +kernel

/-- A descriptor that came through a tunnel takes its data from the window as it stands (12 R357, R358). -/
theorem test_tunnelled_data :
    (let h : DescHdr := { src := .tun 0, tag := 5#16, dataAddr := 8#64 }
     let i (d : List Byte) := Instr.spTransfer h 1#8 0#8 16#16 d 0#64
     let s := (bus { ctrl := 0x12#32, window := [(8, 0xAB#8)] }).modHst fun x => { x with inflight := [up.newEntry (.tun 0) (descOf (i []))] }
     s.spelled h (i [0xAB#8, 0#8]) = true ∧ s.spelled h (i [0#8, 0#8]) = false ∧ (s.accept h).isSome = true) := by
  decide +kernel

/-- The Almanac with the role given, on controller 0. -/
def alm (r : Word) (f : Alm → Alm) : State := (bus {}).modAlm fun a => f { a with ctrl := a.ctrl ||| r }
/-- The time frame that a slave hears, with a pair for the last one. -/
def refData (m : Dword) (seq flags : Byte) : List Byte := dwordBytes m ++ [seq, 0#8, 0#8, flags] ++ List.replicate 4 0#8
def refF (m : Dword) (seq flags : Byte) : CanFrame := { fdf := true, id := 0x10#29, data := refData m seq flags }
/-- A slave that follows offset 0 and stamped reference 4 at 2000000 ns. -/
def slave : State := { alm 1#32 (fun a => { a with following := true, stamps := [{ off := 0#4, seq := 4#16, stamp := 2000000#64, at_ := 100000 }], time := 12000000#64 }) with cref := 4100000 }

theorem witness_AlmanacCommandsComplete :
    (let s := up.modAlm fun a => { a with set := 77#64 }
     s.almOn = true ∧ s.almSlave = false ∧ (after .almSet s).alm.time = 77#64 ∧ takesB false hd (.wallTimeSet hd 9#64) s = true ∧ (taken hd (.wallTimeSet hd 9#64) s).almSlave = false ∧ (after (.wallTimeSet hd 9#64) s).alm.time = 9#64) ∧
    (let s := alm 1#32 id
     s.almSlave = true ∧ (after .almSet s).alm.sticky.getLsbD 7 = true ∧ takesB false hd (.wallTimeSet hd 9#64) s = true ∧ ((after (.wallTimeSet hd 9#64) s).hst.cplWait.map (·.status)) = [.conflict]) ∧
    (almRole 1#32 ≠ almRole up.alm.ctrl ∧ (after (.almRoleWrite 1#32) up).alm.st = .holdover) ∧
    (let s := alm 1#32 id
     almRole 0#32 ≠ almRole s.alm.ctrl ∧ (after (.almRoleWrite 0#32) s).alm.st = .off) ∧
    (let s := bus {}
     s.canOn 0 = true ∧ bit s.can[0].ctrl 0 = true ∧ bit s.can[0].ctrl 2 = false ∧ (after (.almRoleWrite 2#32) s).alm.st = .master) ∧
    (bit up.can[0].ctrl 0 = false ∧ (after (.almRoleWrite 2#32) up).alm.sticky.getLsbD 7 = true) ∧
    (let s := alm 2#32 fun a => { a with st := .master, prevSof := some 0x1234#64 }
     s.alm.refNext ≤ s.cref ∧ s.canSends s.almChan = true ∧ (after .almReferenceDue s).alm.seq = 1#16 ∧ (after .almReferenceDue s).can[0].tx.length = 1) ∧
    (let s := alm 1#32 id
     s.canTakes s.almChan (refF 0#64 5#8 0#8) = true ∧ s.refFrame s.almChan (refF 0#64 5#8 0#8) = some 0#4 ∧ (refData 0#64 5#8 0#8).length = 16 ∧
      (after (.almReferenceReceived (refF 0#64 5#8 0#8) 0) s).alm.following = true) ∧
    (let o : Int := ((2000000#64 : Dword).toNat : Int) - bits slave.alm.cfg 15 0 - (dwordAt (refData 2000000#64 5#8 1#8) 0).toNat
     o.natAbs ≤ 1000 ∧ slave.cref ≤ 100000 + 3 * ms slave.alm.interval ∧ ms slave.alm.interval ≤ 2 * (slave.cref - 100000) ∧
      4#16 + 1#16 = byteAt (refData 2000000#64 5#8 1#8) 9 ++ byteAt (refData 2000000#64 5#8 1#8) 8 ∧ (after (.almReferenceReceived (refF 2000000#64 5#8 1#8) 0) slave).alm.st = .locked) ∧
    ((after (.almReferenceReceived (refF 1000000#64 5#8 1#8) 0) slave).alm.time = 11000000#64) ∧
    (let s := slave.modAlm fun a => { a with lastRef := some 0 }
     s.missDue = true ∧ (after .almReferenceMissed s).alm.misses = 1) ∧
    (let s := { slave.modAlm fun a => { a with lastRef := some 0, misses := 2, st := .locked } with cref := 12000000 }
     s.missDue = true ∧ (after .almReferenceMissed s).alm.st = .holdover) ∧
    (let s := { slave.modAlm fun a => { a with lastRef := some 0, misses := 2, yielded := true } with cref := 12000000 }
     s.missDue = true ∧ (after .almReferenceMissed s).alm.st = .master) ∧
    (let s := { slave.modAlm fun a => { a with st := .holdover } with cref := 1020000000 }
     s.lossDue = true ∧ (after .almLost s).alm.st = .lost) := by
  decide +kernel

theorem witness_AlmanacSyncClauses :
    (bits up.alm.syncCfg 7 0 ≤ 255 ∧ up.alm.syncLevel = false ∧ bit up.alm.syncCfg 31 = false ∧ up.frameLock = false ∧
      (after (.syncinEdge { level := true, held := 255 }) up).alm.syncCnt = 1#64 ∧ (after (.syncinEdge { level := true, held := 255 }) up).alm.syncAt = some 1000 ∧ (after (.syncinEdge { level := true, held := 255 }) up).alm.syncEdges = [(1000, 1#64)]) ∧
    (let s := up.modAlm fun a => { a with syncLevel := true }
     (after (.syncinEdge { level := false, held := 255 }) s).alm.syncCnt = 0#64 ∧ (after (.syncinEdge { level := false, held := 255 }) s).alm.syncLevel = false) ∧
    (let s := alm 0x802#32 fun a => { a with st := .master, syncPer := 65536000000#64, syncOrg := 0#64, time := 1000050#64, lockFirst := false }
     s.frameLock = true ∧ (Alm.phaseError { s.alm with syncTs := s.alm.time }).natAbs ≤ 6553600 ∧ (after (.syncinEdge { level := true, held := 255 }) s).alm.lockRun = 1) ∧
    (let s := { alm 0x802#32 fun a => { a with st := .master, syncPer := 65536000000#64, syncAt := some 0 } with cref := 800000 }
     s.lockLapsed = true ∧ (after .frameLockTimeout s).alm.lockFirst = true) ∧
    ((after .syncZero up).alm.zeroArmed = true ∧ (after .syncZeroApply ((after .syncZero up).modAlm fun a => { a with syncCnt := 5#64 })).alm.syncCnt = 0#64) ∧
    (let s := up.modAlm fun a => { a with soutCfg := 0x80000028#32, soutPer := 65536000#64, soutStart := 10#64, time := 20#64 }
     s.alm.soutHas s.alm.soutNext = true ∧ almPer s.alm.soutPer ≠ 0 ∧ s.alm.soutAt s.alm.soutNext ≤ 65536 * s.alm.time.toNat ∧ 65536 * s.alm.time.toNat < s.alm.soutAt (s.alm.soutNext + 1) ∧
      (after .syncoutPulse s).out = [.syncout true] ∧ (after .syncoutPulse s).alm.soutEnd = some 1040 ∧ (after .syncoutPulseEnd { after .syncoutPulse s with cref := 1040 }).alm.soutEnd = none) ∧
    (let s := up.modAlm fun a => { a with soutCfg := 0x80000028#32, soutStart := 10#64, time := 20#64 }
     s.alm.soutHas s.alm.soutNext = true ∧ almPer s.alm.soutPer = 0 ∧ s.alm.soutAt s.alm.soutNext ≤ 65536 * s.alm.time.toNat ∧ (after .syncoutPulse s).out = [.syncout true] ∧
      (after .syncoutPulse (after .syncoutPulse s)).out = [.syncout true]) := by
  decide +kernel

/-! Serial and general-purpose ports, power, clocks and the supervisor. -/

/-- Port 1 as given. -/
def port (f : SpPort → SpPort) : State := up.modSer fun r => { r with port := r.port.set 0 (f { r.port[0] with en := true }) }
/-- A slot that deposits 32 bits in word 5 of engine 14. -/
def spSlot : SpSlot := { en := true, trig := 7#8, len := 32, width := 32, dest := BitVec.ofNat 32 (sigAddr 0 14 5), mask := 0#32 }
/-- Bits clocked in. -/
def ones32 : List Bool := List.replicate 32 true
/-- A slave port whose owner is engine 14 of axis 0, enabled. -/
def slavePort : State := (up.modEng 0 14 fun y => { y with st := .active, loaded := true }).modSer fun r => { r with spsCfg := 0x880E0000#32 }

theorem witness_SerialAndGeneralPortsComplete :
    (let i := Instr.spSchedule hd 1#8 0#8 0#8 7#8 0#8 0#8 0#8 32#8 32#16 (BitVec.ofNat 32 (sigAddr 0 14 5)) 9#64 0#32 0#32
     (7#8 : BitVec 8) ≠ 0xFF#8 ∧ takesB false hd i up = true ∧ (taken hd i up).schedCheck 1#8 0#8 0#8 7#8 0#8 0#8 0#8 32#8 32#16 (BitVec.ofNat 32 (sigAddr 0 14 5)) = none ∧
      (after i up).ser.port[0].slot[0].en = true) ∧
    (let s := { port fun x => { x with slot := x.slot.set 2 spSlot } with cref := 4000 }
     s.sysOn 74 = true ∧ s.schedDue s.ser.port[0].slot[2] = true ∧ (after (.scheduleTrigger 0 2) s).ser.port[0].slot[2].pend = true ∧
      (after (.scheduleTrigger 0 2) { after (.scheduleTrigger 0 2) s with cref := 8000 }).ser.port[0].slot[2].overrun = 1#8) ∧
    (let s := port id
     let h := { hd with timeoutUs := 1000#32 }
     let i := Instr.spTransfer h 1#8 0#8 16#16 [1#8, 2#8] 0x1000#64
     takesB false h i s = true ∧ (taken h i s).spCheck h 1#8 0#8 16#16 0x1000#64 = none ∧
      (after i s).ser.port[0].queue.length = 1) ∧
    (let s := port fun x => { x with slot := x.slot.set 2 { spSlot with pend := true } }
     s.ser.port[0].job = none ∧ s.ser.port[0].idled 0#2 s.cref = true ∧ (after (.portTransferStart 0) s).ser.port[0].job.isSome = true ∧ (after (.portTransferStart 0) s).ser.port[0].slot[2].pend = false) ∧
    (let s := port fun x => { x with queue := [{ src := .sq 0, tag := 5#16, sel := 0#2, len := 8, tx := [3#8], rxAddr := 0x1000#64 }] }
     (after (.portTransferStart 0) s).ser.port[0].queue = [] ∧ (after (.portTransferStart 0) s).out = [.spTx 0 0#2 0#2 ((wireBits [3#8]).take 8)]) ∧
    (let s := port fun x => { x with busy := true, endAt := 900, job := some (.desc (.sq 0) 5#16 0x1000#64 false, { spSlot with len := 8 }) }
     s.ser.port[0].endAt ≤ s.cref ∧ (after (.portTransferEnd 0 ones32) s).out = [.hostWrite 0x1000#64 [0xFF#8]] ∧ (after (.portTransferEnd 0 ones32) s).ser.port[0].busy = false) ∧
    (let s := port fun x => { x with busy := true, job := some (.sched 2, { spSlot with mask := 1#32 }) }
     (after (.portTransferEnd 0 ones32) s).ser.port[0].slot[2].chkFail = 1#8) ∧
    (let s := (port fun x => { x with busy := true, job := some (.sched 2, spSlot) }).modEng 0 14 fun y => { y with st := .active, loaded := true }
     storedB s = true ∧ s.axOn (sigAxis (sigAddr 0 14 5)) = true ∧ s.noWords (sigAxis (sigAddr 0 14 5)) (sigEng (sigAddr 0 14 5)) = false ∧
      (after (.portTransferEnd 0 ones32) s).sig = [(sigAddr 0 14 5, 0xFFFFFFFF#32)]) ∧
    (bit up.ser.spsCfg 31 = false ∧ bit (0x90000000#32 : Word) 31 = true ∧ bits (0x90000000#32 : Word) 28 27 ≠ 1 ∧ bits up.ser.spsBuf 9 0 ≤ 959 ∧
      bits up.ser.spsBuf 19 10 + spsTxN up.ser.spsBuf ≤ 1024 ∧ (after (.spsEnable 0x90000000#32) up).ser.spsCfg = 0x90000000#32) ∧
    (bit slavePort.ser.spsCfg 31 = true ∧ (after .spsSelectFall slavePort).ser.spsActive = true) ∧
    (let s := slavePort.modSer fun r => { r with spsActive := true }
     bits s.ser.spsCfg 28 27 = 1 ∧ s.spsOwnerRuns = true ∧ s.axOn (spsEng s.ser.spsCfg).1 = true ∧ s.noWords (spsEng s.ser.spsCfg).1 (spsEng s.ser.spsCfg).2 = false ∧
      storedB s = true ∧ (after (.spsSelectRise [7#32] 0 0#32 1) s).sig.rd (sigAddr 0 14 1) = 7#32) ∧
    (bit up.ser.gpLevel 3 ≠ true ∧ bits up.ser.gpCfg[3] 23 16 ≤ 255 ∧ bit (after (.gpInputChange 3 { level := true, held := 255 }) up).ser.gpEdge 3 = true) ∧
    (let s := up.modSer fun r => { r with gpEnd := r.gpEnd.set 3 (some 5), gpOut := 8#32 }
     (after (.gpPulseEnd 3) s).ser.gpOut = 0#32) ∧
    ((after (.gpOutWrite 0xF0#32) up).ser.gpOut = 0xF0#32 ∧ (after (.gpSet 0x0F#32) (after (.gpOutWrite 0xF0#32) up)).ser.gpOut = 0xFF#32 ∧
      (after (.gpClr 0x30#32) (after (.gpOutWrite 0xF0#32) up)).ser.gpOut = 0xC0#32) := by
  decide +kernel

/-- Three seconds after reset. -/
def later (s : State) : State := { s with cref := 3 * ms 1000 }

/-- The module in a power state. -/
def inMode (m : PwrMode) (f : Power → Power := id) : State := up.modPwr fun p => f { p with mode := m }

theorem witness_PowerStatesDomainsAndFan :
    (up.bar0 = true ∧ up.supUp = true ∧ up.dbgHalts = false ∧ up.restOk false = true ∧ up.restOk true = true ∧ (after .reqDoze up).pwr.mode = .enteringDoze ∧
      (after .reqSleep up).pwr.mode = .enteringSleep ∧ (after .reqRun (inMode .doze)).pwr.mode = .waking ∧ (after .reqRun (inMode .enteringDoze)).pwr.runHeld = true) ∧
    ((running 0).restOk false = false ∧ (running 0).restOk true = false ∧ (after .reqDoze (running 0)).pwr.reqReject = true) ∧
    (0 ∈ (inMode .enteringDoze).dozeAxes ∧ (after .powerStateEntryComplete (inMode .enteringDoze)).pwr.mode = .doze ∧ (after .powerStateEntryComplete (inMode .enteringDoze)).axOn 0 = false) ∧
    ((after .powerStateEntryComplete (inMode .enteringSleep)).pwr.pdOn = 0#80) ∧
    ((after .wakeComplete (inMode .waking)).pwr.mode = .active) ∧
    (bit (inMode .sleep fun p => { p with wakeCfg := 0x10#32 }).pwr.wakeCfg 4 = true ∧ (after .wakeN (inMode .sleep fun p => { p with wakeCfg := 0x10#32 })).pwr.wakeCause.getLsbD 0 = true) ∧
    (up.hasCan 2 = true ∧ (after (.canWake 2) (inMode .sleep fun p => { p with wakeCfg := 4#32 })).pwr.wakeCause.getLsbD 3 = true) ∧
    ((after .wakeTimer (inMode .sleep fun p => { p with wakeTimer := 5#32 })).pwr.wakeCause.getLsbD 5 = true ∧
      (after (.canWake 2) (inMode .enteringSleep fun p => { p with wakeCfg := 4#32 })).pwr.wakeHeld.getLsbD 3 = true) ∧
    (bit up.pwr.wakeCfg 1 = false ∧ up.linked = true ∧ (after .wakeNDriveEnd up).pwr.wakeDrive = false) ∧
    (0 ∈ (running 0).pdChanges 0 0xFFFFFFFE#32 ∧ (running 0).pwr.pdReq.getLsbD 0 = true ∧ (running 0).pdRefused 0 = true ∧ (after (.pdReqWrite 0 0xFFFFFFFE#32) (running 0)).pwr.reqReject = true) ∧
    (up.pdChanges 0 0xFFFFFFFE#32 = [0] ∧ up.pdRefused 0 = false ∧ (after (.pdReqWrite 0 0xFFFFFFFE#32) up).pwr.pdOn.getLsbD 0 = false) ∧
    (let s := later (inMode .active fun p => { p with pdOn := setBitW p.pdOn 0 false, pdRamp := 1#80, pdFrom := [(0, 0)] })
     s.axOn 0 = false ∧ s.pdReady 0 = true ∧ (after (.domainPowerUpComplete 0) s).axOn 0 = true) ∧
    (let s := later (inMode .active fun p => { p with pdOn := setBitW p.pdOn 64 false, pdRamp := setBitW 0#80 64 true, pdFrom := [(64, 0)] })
     s.bankOn 0 = false ∧ s.pdReady 64 = true ∧ (after (.domainPowerUpComplete 64) s).bankOn 0 = true) ∧
    (let s := inMode .active fun p => { p with fanEdge := some 0, fanStopped := false }
     s.pwr.fanStopped = false ∧ (after .fanTachEdge s).pwr.fanRpm = fanSpeed 1000 ∧ (after .fanTachEdge s).pwr.fanEdge = some 1000) ∧
    (let s := later (inMode .active fun p => { p with fanSeq := .window })
     s.pwr.fanSeqAt + 2 * ms 1000 ≤ s.cref ∧ (after .fanWindowExpiry s).pwr.fanSeq = .kick ∧
      (after .fanKickEnd { after .fanWindowExpiry s with cref := 4 * ms 1000 }).pwr.fanSeq = .window) ∧
    (let s := later (inMode .active fun p => { p with fanSeq := .window, fanKicks := 3#2 })
     (after .fanWindowExpiry s).pwr.fanFail = true ∧ s.flt.met.getLsbD 1109 = false ∧ (after .fanWindowExpiry s).flt.raised = [1109]) ∧
    ((after .fanTachTimeout (later (inMode .active fun p => { p with fanRunning := true, fanEdge := some 5 }))).pwr.fanFail = true) ∧
    (let s := { inMode .active fun p => { p with fanFail := true, fanEdge := some (9 * ms 1000), fanGoodSince := 0 } with cref := 10 * ms 1000 }
     s.pwr.fanGoodSince + 10 * ms 1000 ≤ s.cref ∧ (after .fanFailClear s).pwr.fanFail = false) ∧
    (up.cref < up.pwr.fanGoodSince + 10 * ms 1000) := by
  decide +kernel

theorem witness_SupplyClocksAndSupervisorComplete :
    ((after (.powerOn true) (inMode .off)).pwr.mode = .start ∧ (after (.powerOn true) (inMode .off)).rst = 1#6 ∧ (after (.powerOn false) (inMode .off)).flt.grave = true) ∧
    (up.pwr.mode ≠ .off ∧ (after .resetN up).rst.getLsbD 1 = true ∧ (after .resetN up).cref = 1000) ∧
    (up.watched = true ∧ (after .vinUv (running 0)).pwr.uv = true ∧ (after .vinUv (running 0)).flt.met.getLsbD 1088 = true) ∧
    (let s := inMode .active fun p => { p with uv := true }
     (∀ b : BankId, s.bank[b].gateEn = false) ∧ (after .vinUvRecover s).pwr.uv = false) ∧
    ((after .powerLoss up).pwr.mode = .off ∧ (after .graveClear up).flt.grave = false) ∧
    ((after (.vinOvWarn true) up).flt.raised = [1089] ∧ (after (.vinOvWarn false) (after (.vinOvWarn true) up)).pwr.ovWarn = false ∧ (after .rbReverse (inMode .active fun p => { p with rbOn := true })).pwr.rbOn = false ∧ (after .rbSwitchOn up).pwr.rbOn = true) ∧
    (up.railed = true ∧ (after (.railFault .r12v) up).pwr.rails.getLsbD (railIdx .r12v) = false ∧ (after (.railRecover .r12v) (after (.railFault .r12v) up)).pwr.rails = 0x1F#5) ∧
    (up.pwr.mode ≠ .sleep ∧ (after .vcoreLowReset up).pwr.vcoreLow = true) ∧
    (up.clocked .plle = true ∧ (after (.clockLoss .plle) live).bank[0].gateEn = false ∧ (after (.clockLoss .plle) live).flt.clockCut = true ∧
      (after (.clockRelock .plle) (after (.clockLoss .plle) up)).clk.plle = true) ∧
    (up.clocked .ckh = true ∧ (after (.clockLoss .ckh) up).hst.linkUp = false ∧ (after (.clockRelock .ckh) (after (.clockLoss .ckh) up)).hst.linkUp = true) ∧
    (up.supRuns = true ∧ up.flt.lockstepAt = none ∧ (after .lockstepMismatch up).flt.met.getLsbD 1100 = true ∧
      (after .lockstepMismatch (up.modFlt fun f => { f with lockstepAt := some 0 })).flt.met.getLsbD 1101 = true) ∧
    (up.sec.supHalted = false ∧ (after .supWatchdog up).sup = .held ∧ (after .supEcc up).flt.met.getLsbD 1105 = true) ∧
    (let s := { up with sup := .held, cref := us 20 }
     s.ckt (s.flt.supHeldAt + us 10) = true ∧ s.supRuns = false ∧ s.pwr.mode.live = true ∧ (after .supervisorRestart s).sup = .boot) ∧
    ((inMode .start).pwr.mode = .start ∧ (inMode .start).pwr.vcoreLow = false) := by
  decide +kernel

/-! Faults. -/

/-- Sources on their way. -/
def raised (l : List Nat) (s : State := up) : State := s.modFlt fun f => { f with raised := l }

theorem witness_FaultsReactOnTheirScopes :
    (up.flt.raised = [] ∧ srcListed 1113 = false ∧ (after .faultReaction (raised [1113, 3])).flt.raised = [3]) ∧
    (let s := raised [5]
     srcListed 5 = true ∧ s.srcFitted 5 = true ∧ s.flt.merge = [] ∧ 1 ≤ s.actClass 5 (s.raisedClass 5) ∧ (after .faultReaction s).flt.sticky.getLsbD 5 = true ∧
      (after .faultReaction s).ax[0].ch.st = .safe ∧ (after .faultReaction s).flt.axisOut.getLsbD 0 = true) ∧
    (let s := raised [1100]
     s.actClass 1100 (s.raisedClass 1100) = 3 ∧ (after .faultReaction s).flt.deviceOut = true) ∧
    (let s := raised [1102]
     s.actClass 1102 (s.raisedClass 1102) = 4 ∧ (after .faultReaction s).flt.grave = true) ∧
    (let s := raised [1024]
     s.actClass 1024 (s.raisedClass 1024) = 2 ∧ (after .faultReaction s).flt.bankOut = 1#8) ∧
    (let s := raised [1089]
     s.actClass 1089 (s.raisedClass 1089) = 0 ∧ (after .faultReaction s).flt.sticky.getLsbD 1089 = true) ∧
    (let s := after .faultReaction (raised [5, 6])
     s.flt.raised = [6] ∧ s.flt.merge.find? (fun w => s.mergeOpen w && (w.scope.join (actScope 6 (s.actClass 6 (s.fltClass 6)))).isSome) = some { scope := .axis 0, cls := 1#3, start := 1000 } ∧
      (after .faultReaction s).flt.mergeCnt = 1#16 ∧ (after .mergeWindowClose s).flt.merge = s.flt.merge ∧
      (after .mergeWindowClose { s with cref := 10000 }).flt.merge = []) ∧
    ((after (.escWindowClose 5) ({ up with cref := ms 1000 }.modFlt fun f => { f with escWin := [{ src := 5, count := 1#8, opened := 0 }] })).flt.escWin = []) := by
  decide +kernel

theorem witness_FaultCommandsComplete :
    (((after (.faultClear hd 0#64 0#8 0#8) up).hst.cplWait.map (·.status)) = [.badArg]) ∧
    (let u := taken hd (.faultClear hd 1#64 1#8 0#8) up
     takesB false hd (.faultClear hd 1#64 1#8 0#8) up = true ∧ u.absentMask 1#64 = false ∧ u.offMask 1#64 = false ∧ (∀ b : BankId, (1#8 : BitVec 8).getLsbD b.val = true → u.hasBank b = true)) ∧
    (let s := up.modFlt fun f => { f with grave := true }
     takesB false hd (.faultClear hd 1#64 0#8 0#8) s = true ∧ ((after (.faultClear hd 1#64 0#8 0#8) s).hst.cplWait.map (·.status)) = [.denied]) ∧
    (let s := up.modFlt fun f => { f with axisOut := 1#64, reacted := [(.axis 0, 5)] }
     takesB false hd (.faultClear hd 1#64 0#8 0#8) s = true ∧ (∀ sc ∈ namedScopes 1#64 0#8 0#8, (taken hd (.faultClear hd 1#64 0#8 0#8) s).remaining sc = []) ∧
      (∀ b : BankId, s.bank[b].hot = false) ∧ (after (.faultClear hd 1#64 0#8 0#8) s).flt.axisOut = 0#64) ∧
    (let s := up.modFlt fun f => { f with deviceOut := true, axisOut := 1#64, reacted := [(.device, 1090)], cause := setBitW 0#1536 1090 true, met := setBitW 0#1536 1090 true }
     let s := s.modPwr fun p => { p with rails := 0#5 }
     (taken hd (.faultClear hd 1#64 0#8 1#8) s).remaining .device = [1090] ∧ (after (.faultClear hd 1#64 0#8 1#8) s).flt.deviceOut = true ∧ (after (.faultClear hd 1#64 0#8 1#8) s).flt.axisOut = 0#64 ∧
      ((after (.faultClear hd 1#64 0#8 1#8) s).hst.cplWait.map (·.info)) = [0x80000442#32]) ∧
    (let s := (up.modBank 0 fun k => { k with hot := true }).modFlt fun f => { f with bankOut := 1#8, reacted := [(.bank 0, bankSrc 0 2)] }
     (∀ sc ∈ namedScopes 0#64 1#8 0#8, (taken hd (.faultClear hd 0#64 1#8 0#8) s).remaining sc = []) ∧ hottest s.bank[0].tempsIn.toList < 1840 ∧
      (after (.faultClear hd 0#64 1#8 0#8) s).bank[0].hot = false ∧ (after (.faultClear hd 0#64 1#8 0#8) s).flt.bankOut = 0#8) ∧
    (up.awake = true ∧ up.testDue up.flt.onlineAt = true ∧ (after (.onlineSelftest true true 3#64) up).flt.raised = [12, 28] ∧ (after (.onlineSelftest false true 0#64) up).flt.raised = [1102] ∧ up.supRuns = true ∧
      (after (.onlineSelftest true false 0#64) up).sup = .held) ∧
    (up.bankOn 0 = true ∧ (bankAxes 0).all up.atRest = true ∧ up.testDue up.flt.holdTestAt[0] = true ∧ (after (.holdSelftest 0 false) up).flt.raised = [1031] ∧ (∀ n ∈ bankAxes 0, up.forced n = Forced.open) ∧
      (after (.holdSelftest 0 true) up).flt.stAt[0] = some 1000) ∧
    ((bankAxes 0).all (running 0).atRest = false ∧ (after (.holdSelftest 0 true) (running 0)).flt.stAt[0] = none) ∧
    (up.selftestOld = true ∧ (after .selftestDue up).flt.raised = [1110]) ∧
    (let s := up.modFlt fun f => { f with stAt := Vector.replicate 8 (some 1000) }
     s.selftestOld = false ∧ (after .selftestDue s).flt.raised = []) ∧
    (up.injUnit (bits (0x4200000E#32 : Word) 27 24) (bits (0x4200000E#32 : Word) 9 0) = true ∧ (after (.faultInject 0x4200000E#32) up).flt.inj = 0xC200000E#32) ∧
    (up.injUnit (bits (0x46000000#32 : Word) 27 24) 0 = true ∧ up.sysOn 77 = true ∧ (after (.faultInject 0x46000000#32) up).flt.raised = [] ∧ (after (.faultInject 0x06000000#32) up).flt.raised = [1112]) ∧
    (up.injUnit (bits (0x04000000#32 : Word) 27 24) 0 = true ∧ up.sec.supHalted = false ∧ (after (.faultInject 0x44000000#32) up).sup = .ready ∧ (after (.faultInject 0x04000000#32) up).sup = .held ∧
      (after (.faultInject 0x05000000#32) up).flt.lockstepAt = some 1000 ∧ up.injUnit (bits (0x05000000#32 : Word) 27 24) 0 = true) ∧
    (let s := up.modSec fun c => { c with supHalted := true }
     s.sec.supHalted = true ∧ (after (.faultInject 0x04000000#32) s).flt.inj = 0x84000000#32) ∧
    (up.injUnit (bits (0x0F000000#32 : Word) 27 24) 0 = false ∧ (after .enclaveFault up).flt.raised = [1112]) ∧
    ((after (.gdrLockSet 0) up).bank[0].lock = true ∧ (after (.cmpLockSet 0) up).ax[0].sns.lock = true ∧ (after .fltLockSet up).flt.lock = true ∧ (after .tlyLockSet up).tly.lock = true) := by
  refine ⟨?_, ?_, ?_, ?_, ?_, ?_, ?_⟩ <;> decide +kernel

/-! Security and debug. -/

/-- A module of a life-cycle state. -/
def lc (k : BitVec 3) (f : Sec → Sec := id) : State := up.modSec fun c => f { c with lc := k }

/-- A token of the nonce 5, with a scope. -/
def token (scope : BitVec 8) : List Byte :=
  [0x43#8, 0x59#8, 0x44#8, 0x54#8, 1#8, 0#8, scope, 0#8] ++ List.replicate 48 0#8 ++ [5#8] ++ List.replicate 231 0#8

/-- The same token of another signer. -/
def forged (scope : BitVec 8) : List Byte := (token scope).set 100 1#8

/-- The SHA-384 of 97 zero bytes, as the words of a slot's HASH, by a program outside the model. -/
def zeroHash : List Word :=
  [0x2C85E02A#32, 0x4717D41B#32, 0x59ECC1B4#32, 0xF4BC66AF#32, 0x7A8807DA#32, 0xE18505FE#32, 0xB2EBC530#32, 0x74CFBCC0#32,
   0x100C2C2A#32, 0x505E99F8#32, 0x2BEAA656#32, 0x0A919F9D#32]

theorem test_sha384 : wordsOf (sha384 (List.replicate 97 0#8)) = zeroHash := by decide +kernel

/-- A module in use, whose slot 0 holds the hash of a key of zero bytes, with the nonce 5 given out. -/
def keyed : State := lc 3#3 fun c => { c with
  nonce := some { val := 5#256 }, otp := otpWords 0x120 zeroHash ++ [(0x12E, 0xF60FA655#32)] }

theorem witness_OtpCommandsComplete :
    (hd.src = .sq 0 ∧ (after (.otpRead hd 0#16 1#16 0x1000#64) (lc 1#3 fun c => { c with otp := [(0, 7#32)] })).out = [.hostWrite 0x1000#64 (wordBytes 7#32)] ∧
      ((after (.otpRead hd 0x700#16 0x101#16 0x1000#64) up).hst.cplWait.map (·.status)) = [.badArg]) ∧
    ((taken hd (.otpProgram hd 0x10#16 1#16 (crc32c ([3#32].flatMap wordBytes)) [3#32] none) up).otpRefused (otpWords 0x10 [3#32]) = none ∧ (after (.otpProgram hd 0x10#16 1#16 (crc32c ([3#32].flatMap wordBytes)) [3#32] none) up).sec.otp = [(16, 3#32)] ∧
      ((after (.otpProgram hd 0x10#16 1#16 0#32 [3#32] none) up).hst.cplWait.map (·.status)) = [.crc]) ∧
    (let i := Instr.otpProgram hd 0x10#16 1#16 (crc32c ([3#32].flatMap wordBytes)) [3#32] none
     takesB false hd i (lc 3#3) = true ∧ (taken hd i (lc 3#3)).otpRefused (otpWords 0x10 [3#32]) = some 0x10 ∧
      ((after (.otpProgram hd 0x10#16 1#16 (crc32c ([3#32].flatMap wordBytes)) [3#32] none) (lc 3#3)).hst.cplWait.map (·.status)) = [.denied]) ∧
    (up.bar0 = true ∧ (after (.otpLockWrite 5#32) up).sec.otpLock = 5#7) ∧
    ((0#8 : BitVec 8) ≠ ~~~ (4#8 : BitVec 8) ∧ ((after (.lifecycle hd 4#8 0#8 [] true) up).hst.cplWait.map (·.status)) = [.badArg]) ∧
    ((taken hd (.lifecycle hd 3#8 (~~~ 3#8) [] true) up).lcStep 3 = none ∧ ((after (.lifecycle hd 3#8 (~~~ 3#8) [] true) up).hst.cplWait.map (·.status)) = [.denied]) ∧
    (let s := lc 2#3
     let i := Instr.lifecycle hd 3#8 (~~~ 3#8) [] true
     takesB false hd i s = true ∧ (taken hd i s).lcStep 3 = some (some 4) ∧ (taken hd i s).allRest = true ∧ ((after (.lifecycle hd 3#8 (~~~ 3#8) [] true) s).hst.cplWait.map (·.info)) = [4#32]) ∧
    (let u := taken hd (.lifecycle hd 4#8 (~~~ 4#8) (token 0x80#8) true) keyed
     keyed.sec.lc = 3#3 ∧ takesB false hd (.lifecycle hd 4#8 (~~~ 4#8) (token 0x80#8) true) keyed = true ∧ storedB keyed = true ∧ u.lcStep 4 = some none ∧ u.allRest = true ∧
      (u.judgeToken true (token 0x80#8) true).1 = none ∧
      (after (.lifecycle hd 4#8 (~~~ 4#8) (token 0x80#8) true) keyed).sec.otp.rd 0x106 = 0xFFFFFFFF#32 ∧
      (u.judgeToken true (forged 0x80#8) true).1 ≠ none ∧
      ((after (.lifecycle hd 4#8 (~~~ 4#8) (forged 0x80#8) true) keyed).hst.cplWait.map (·.info)) = [5#32]) ∧
    ((taken hd (.lifecycle hd 5#8 (~~~ 5#8) [] true) up).lcStep 5 = some none ∧ (after (.lifecycle hd 5#8 (~~~ 5#8) [] true) up).sec.scrapped = true) ∧
    (let s := keyed.modCh 0 fun c => { c with st := .run }
     (taken hd (.lifecycle hd 4#8 (~~~ 4#8) (token 0x80#8) true) s).allRest = false ∧ ((after (.lifecycle hd 4#8 (~~~ 4#8) (token 0x80#8) true) s).hst.cplWait.map (·.status)) = [.conflict]) := by
  decide +kernel

theorem witness_IdentityAndDebugComplete :
    (takesB false hd (.report hd 0x1000#64 0#256) (lc 3#3 fun c => { c with certOk := true }) = true ∧ storedB (lc 3#3 fun c => { c with certOk := true }) = true ∧
      ((after (.report hd 0x1000#64 0#256) up).hst.cplWait.map (·.status)) = [.denied]) ∧
    (takesB false hd (.keygen hd 0x1000#64) (lc 1#3) = true ∧ (taken hd (.keygen hd 0x1000#64) (lc 1#3)).identityBurnt = false ∧ (after (.keygen hd 0x1000#64) (lc 1#3)).sec.sealed = true ∧
      ((after (.keygen hd 0x1000#64) (lc 2#3)).hst.cplWait.map (·.status)) = [.denied]) ∧
    (let s := lc 1#3 fun c => { c with sealed := true, pub := [4#8, 9#8] }
     let i := Instr.certInstall hd 97#16 (List.replicate 97 0#8) [4#8, 9#8]
     takesB false hd i s = true ∧ (taken hd i s).sec.sealed = true ∧ (taken hd i s).sec.pub = [4#8, 9#8] ∧ (taken hd i s).identityBurnt = false ∧
      (after i s).sec.cert = List.replicate 97 0#8 ∧ (List.range 12).map (fun k => (after i s).sec.otp.rd (0x110 + k)) = zeroHash ∧
      ((after (.certInstall hd 3#16 [1#8, 2#8, 3#8] []) s).hst.cplWait.map (·.status)) = [.badArg] ∧
      ((after (.certInstall hd 3#16 [1#8, 2#8, 3#8] []) (lc 1#3)).hst.cplWait.map (·.status)) = [.badArg]) ∧
    ((after (.certRead hd 0x1000#64) (lc 1#3 fun c => { c with cert := [1#8, 2#8] })).out = [.hostWrite 0x1000#64 [1#8, 2#8]] ∧
      ((after (.certRead hd 0x1000#64) up).hst.cplWait.map (·.status)) = [.denied]) ∧
    ((after (.challenge hd 0x1000#64) up).sec.nonce.isSome = true) ∧
    ((taken hd (.debugTokenOpen hd (token 1#8) true) up).tokenEarly false (token 1#8) = some (.denied, 0#32) ∧ ((after (.debugTokenOpen hd (token 1#8) true) up).hst.cplWait.map (·.status)) = [.denied]) ∧
    ((taken hd (.debugTokenOpen hd (forged 1#8) true) keyed).tokenEarly false (forged 1#8) = none ∧ (taken hd (.debugTokenOpen hd (forged 1#8) true) keyed).tokenLate false (forged 1#8) true = some (.sig, 0#32) ∧
      (after (.debugTokenOpen hd (forged 1#8) true) keyed).sec.nonce = none) ∧
    (takesB false hd (.debugTokenOpen hd (token 1#8) true) keyed = true ∧ (taken hd (.debugTokenOpen hd (token 1#8) true) keyed).tokenEarly false (token 1#8) = none ∧
      (taken hd (.debugTokenOpen hd (token 1#8) true) keyed).tokenLate false (token 1#8) true = none ∧ (after (.debugTokenOpen hd (token 1#8) true) (keyed.modSec fun c => { c with scope := 2#2, tokenOpen := true })).sec.scope = 3#2 ∧
      (after (.debugTokenOpen hd (token 1#8) true) keyed).sec.scope = 1#2) ∧
    (up.sec.deferred = false ∧ (after (.debugTokenClose hd) (lc 3#3 fun c => { c with tokenOpen := true })).sec.tokenOpen = false) ∧
    ((after (.jtagAccess .idcode) up).sec.tapData = up.idcode ∧ (lc 3#3).dbgOpen .engine = false ∧ (after (.jtagAccess (.engine 0 3)) (lc 3#3)).sec.tapErr = true) ∧
    (up.dbgOpen .supervisor = true ∧ up.tapOn (.register 0x8) = true ∧ (after (.jtagAccess (.register 0x8)) up).sec.tapData = up.readValue 2 0x8 ∧
      up.dbgOpen .engine = true ∧ (after (.jtagAccess (.engine 0 3)) up).sec.jtagActive = true ∧ (after (.jtagAccess (.supervisor true)) up).sec.supHalted = true) ∧
    ((lc 2#3).dbgOpen .keep = true ∧ (after (.keepAlive 3#64) (lc 2#3)).sec.keep = 3#64 ∧ up.dbgOpen .keep = false ∧ (after (.keepAlive 3#64) up).sec.tapErr = true) ∧
    (up.dbgOpen .scan = true ∧ (after (.extestSelect true) live).bank[0].gateEn = false ∧ (lc 3#3).dbgOpen .scan = false ∧ (after (.extestSelect false) up).sec.extest = false) := by
  decide +kernel

/-! Images, settings, the Tally and register accesses. -/

/-- The SHA-384 of the bytes 1 to 4, as a payload (FIPS 180-4, worked outside the model). -/
def hash4 : BitVec 384 := 0x5c7f32e2b2fb46cc66a3812d76d7bad282ada305b9593177049747dcdc411d6edc04393333e4ba3e258c0a43627d665a#384
def ech : ImgHeader := { payloadHash := hash4, kind := 1#8, offerE := 1#8, accEMin := 1#8, accEMax := 1#8, payloadLen := 4#32, blockCrcs := [crc32c [1#8, 2#8, 3#8, 4#8]] }
def svf : ImgHeader := { payloadHash := hash4, kind := 0#8, offerE := 1#8, accEMin := 1#8, accEMax := 1#8, offerN := 1#8, accNMin := 1#8, accNMax := 1#8, setFmt := 1#16, payloadLen := 4#32, blockCrcs := [0#32] }
def enc : ImgHeader := { payloadHash := hash4, kind := 2#8, offerN := 1#8, accNMin := 1#8, accNMax := 1#8, payloadLen := 4#32, blockCrcs := [0#32] }

/-- The header of an ECH image of four bytes. -/
def echHeader : List Byte :=
  [0x43#8, 0x59#8, 0x49#8, 0x4D#8, 1#8, 0#8, 1#8, 0#8, 0#8, 0#8, 0#8, 0#8, 0#8, 0#8, 0#8, 0#8, 1#8, 1#8, 1#8, 1#8, 1#8] ++ List.replicate 19 0#8 ++
  wordBytes 4#32 ++ List.replicate 596 0#8 ++ wordBytes (crc32c [1#8, 2#8, 3#8, 4#8]) ++ List.replicate 16 0#8

/-- A session of ECH on bank B, with its header. -/
def session (w : List Nat) (h : ImgHeader := ech) : State := up.modImg fun i => { i with
  session := i.session.set 1 (some { toB := true, written := w }), bank := i.bank.set 3 { i.bank[3] with st := .writing, hdr := some h, blocks := w.map fun j => (j, [1#8, 2#8, 3#8, 4#8]) } }
/-- Three confirmed banks A and ECH written to B. -/
def stored (st : BankSt) (h : ImgHeader) : ImgBank := { st := st, hdr := some h, blocks := [(0, [1#8, 2#8, 3#8, 4#8])] }
def images : State := up.modImg fun i => { i with bank := #v[stored .confirmed svf, {}, stored .confirmed ech, stored .written ech, stored .confirmed enc, {}] }
/-- ECH on trial. -/
def trial (c : Bool) : State := images.modImg fun i => { i with trial := true, awaitConfirm := c, trialTimer := some (0, 0), bank := i.bank.set 3 { i.bank[3] with st := .trial } }

theorem witness_ImageCommandsComplete :
    (padTo 660 echHeader = echHeader ∧ takesB false hd (.imageBegin hd 1#8 660#32 0#32 echHeader true) up = true ∧ (taken hd (.imageBegin hd 1#8 660#32 0#32 echHeader true) up).beginCheck hd 1#8 660#32 true (imgHeader echHeader) true = none ∧
      (imgHeader echHeader).blockCrcs = ech.blockCrcs ∧ (taken hd (.imageBegin hd 1#8 660#32 0#32 echHeader true) up).targetBank 1 = true) ∧
    ((taken hd (.imageBegin hd 3#8 660#32 0#32 echHeader true) up).beginCheck hd 3#8 660#32 true (imgHeader echHeader) true = some (.badArg, 0#32) ∧
      (taken hd (.imageBegin hd 1#8 660#32 0#32 (echHeader.set 11 1#8) true) up).beginCheck hd 1#8 660#32 true (imgHeader (echHeader.set 11 1#8)) true = some (.badArg, 0#32)) ∧
    ((taken hd (.imageAbandon hd 1#8) up).img.session[1] = none ∧ ((after (.imageAbandon hd 1#8) up).hst.cplWait.map (·.status)) = [.conflict] ∧ ((after (.imageEnd hd 1#8 true) up).hst.cplWait.map (·.status)) = [.conflict]) ∧
    (let i := Instr.imageBlock hd 1#8 0#16 4#32 [1#8, 2#8, 3#8, 4#8] false true
     takesB false hd i (session []) = true ∧ (taken hd i (session [])).img.session[1] = some { toB := true } ∧ (taken hd i (session [])).sessionHdr 1 { toB := true } = ech ∧
      ImgBlocks ech = 1 ∧ blockLen ech 0 = 4 ∧ ((after (.imageBlock hd 1#8 1#16 4#32 [1#8, 2#8, 3#8, 4#8] true true) (session [])).hst.cplWait.map (·.status)) = [.badArg] ∧
      ((after (.imageBlock hd 1#8 0#16 4#32 [9#8, 2#8, 3#8, 4#8] true true) (session [])).hst.cplWait.map (·.status)) = [.crc] ∧
      ((after (.imageBlock hd 1#8 0#16 4#32 [1#8, 2#8, 3#8, 4#8] false true) (session [])).img.session[1].map (·.written)) = some [0] ∧
      (after (.imageBlock hd 1#8 0#16 4#32 [1#8, 2#8, 3#8, 4#8] false true) (session [])).img.bank[3].blocks = [(0, [1#8, 2#8, 3#8, 4#8])]) ∧
    (((after (.imageBlock hd 1#8 0#16 4#32 [1#8, 2#8, 3#8, 4#8] false true) (session [] { ech with transit := true })).hst.cplWait.map (·.status)) = [.sig]) ∧
    (missing ech { toB := true } = [0] ∧ ((after (.imageEnd hd 1#8 true) (session [])).hst.cplWait.map (·.status)) = [.badArg]) ∧
    (missing ech { toB := true, written := [0] } = [] ∧ (session [0]).img.bank[3].hashed = true ∧ (after (.imageEnd hd 1#8 true) (session [0])).img.bank[3].st = .written ∧
      (after (.imageEnd hd 1#8 false) (session [0])).img.bank[3].st = .empty ∧
      (session [0] { ech with payloadHash := 0#384 }).img.bank[3].hashed = false ∧ (after (.imageEnd hd 1#8 true) (session [0] { ech with payloadHash := 0#384 })).img.bank[3].st = .empty ∧ (after (.imageAbandon hd 1#8) (session [0])).img.bank[3].st = .empty) ∧
    (let i := Instr.imageActivate hd 2#8 true true
     takesB false hd i images = true ∧ (taken hd i images).activateCheck 2#8 true true = none ∧ (taken hd i images).setWith .written (namedKind 2#8) = some (false, true, false) ∧
      (after (.imageActivate hd 2#8 true true) images).img.bank[3].st = .trial ∧ (after (.imageActivate hd 2#8 true true) images).img.activated = true) ∧
    ((taken hd (.imageActivate hd 0#8 true true) up).activateCheck 0#8 true true = some (.badArg, 0#32) ∧ (after .activateRestart up).img.activated = false) ∧
    (let s := { up.modImg fun i => { i with activated := true } with cref := ms 11 }
     s.activateSent = true ∧ (after .activateRestart s).rst.getLsbD 3 = true) ∧
    (let s := { trial false with sup := .boot }
     s.trialOut = true ∧ (after .trialReadyTimeout s).img.revertCause = 1#3 ∧ (after .trialReadyTimeout s).img.bank[3].st = .rejected) ∧
    ((after .trialReadyTimeout (trial true)).img.bank[3].st = .trial ∧ (after .trialConfirmTimeout (trial true)).img.revertWait = true ∧
      (after .trialRevertRestart (after .trialConfirmTimeout (trial true))).rst.getLsbD 4 = true ∧ (after .trialRevertRestart up).rst.getLsbD 4 = false) ∧
    (takesB false hd (.imageConfirm hd none) (trial true) = true ∧ (after (.imageConfirm hd none) (trial true)).img.bank[3].st = .confirmed ∧
      ((after (.imageConfirm hd none) up).hst.cplWait.map (·.status)) = [.conflict]) := by
  refine ⟨?_, ?_, ?_, ?_, ?_, ?_, ?_, ?_, ?_, ?_, ?_, ?_, ?_⟩ <;> decide +kernel

/-- A block of settings. -/
def block (q : Word) : SettingsBlock := { format := 0#16, seq := q, payload := [1#8] }

/-- The bytes of a block of settings whose SEQ is 0. -/
def blockData : List Byte := blockBytes (block 0#32)

theorem witness_SettingsCommandsComplete :
    (blockData.length = 65 ∧ padTo 65 blockData = blockData ∧ (wordAt blockData 12).toNat + 64 = 65 ∧ takesB false hd (.settingsWrite hd 65#32 blockData) up = true ∧ (taken hd (.settingsWrite hd 65#32 blockData) up).img.fmtFirmware = 0#16 ∧
      settingsOf blockData = block 0#32 ∧ ((after (.settingsWrite hd 65#32 blockData) up).img.copy[0].block.map (·.payload)) = some [1#8] ∧
      ((after (.settingsWrite hd 65#32 (blockData.set 64 2#8)) up).hst.cplWait.map (·.status)) = [.crc] ∧
      ((after (.settingsWrite hd 65#32 (blockData.set 0 0#8)) up).hst.cplWait.map (·.status)) = [.badArg]) ∧
    (let s := up.modImg fun i => { i with copy := i.copy.set 0 { block := some (block 4#32) } }
     let u := taken hd (.settingsWrite hd 65#32 blockData) s
     takesB false hd (.settingsWrite hd 65#32 blockData) s = true ∧ u.newestCopy = some 0 ∧ u.copyNext = 5#32 ∧ u.copyDest = 1) ∧
    ((taken hd (.settingsRelease hd) up).img.preserved = none ∧ ((after (.settingsRelease hd) up).hst.cplWait.map (·.status)) = [.conflict] ∧ (taken hd (.settingsRead hd 1#8 0x1000#64 9#32) up).settingsBlock 1#8 = none ∧
      ((after (.settingsRead hd 1#8 0x1000#64 9#32) up).hst.cplWait.map (·.status)) = [.conflict]) ∧
    (let s := up.modImg fun i => { i with preserved := some 1 }
     (after (.settingsRelease hd) s).img.preserved = none ∧ (taken hd (.settingsRelease hd) s).copyDest = 0) ∧
    (let s := up.modImg fun i => { i with inUse := [1#8, 2#8] }
     takesB false hd (.settingsRead hd 0#8 0x1000#64 2#32) s = true ∧ (taken hd (.settingsRead hd 0#8 0x1000#64 2#32) s).settingsBlock 0#8 = some [1#8, 2#8] ∧ (after (.settingsRead hd 0#8 0x1000#64 2#32) s).out = [.hostWrite 0x1000#64 [1#8, 2#8]] ∧
      ((after (.settingsRead hd 0#8 0x1000#64 1#32) s).hst.cplWait.map (·.info)) = [2#32]) := by
  decide +kernel

/-- A period is due. -/
def due : State := (up.modTly fun y => { y with wasSet := true, nextEnd := 100#64 }).modAlm fun a => { a with time := 200#64 }

theorem witness_TallyCommandsComplete :
    (due.variant.tally = true ∧ due.sup = .ready ∧ due.wallOk = true ∧ due.tly.nextEnd ≠ 0#64 ∧ due.tly.nextEnd ≤ due.alm.time ∧ (after (.periodClose true) due).tly.headSeq = 1#32) ∧
    (up.tly.nextEnd = 0#64 ∧ (after (.periodClose true) up).tly.headSeq = 0#32) ∧
    (let s := { due with cref := ms 600000 }
     s.checkDue = true ∧ (after (.checkpoint true) s).tly.checks.length = 1 ∧ (after (.checkpoint false) s).tly.journalErr = true) ∧
    (up.checkDue = false ∧ (after (.checkpoint true) up).tly.checks = []) ∧
    (let s := { up with variant := .cya6400 }
     takesB false hd (.tallyRead hd 0#8 1#16 0#32 0x1000#64) s = true ∧ ((after (.tallyRead hd 0#8 1#16 0#32 0x1000#64) s).hst.cplWait.map (·.status)) = [.absent]) ∧
    (((after (.tallyRead hd 3#8 1#16 0#32 0x1000#64) up).hst.cplWait.map (·.status)) = [.badArg] ∧ (taken hd (.tallyRead hd 0#8 1#16 1#32 0x1000#64) up).tly.headSeq < 1#32 ∧
      ((after (.tallyRead hd 0#8 1#16 1#32 0x1000#64) up).hst.cplWait.map (·.status)) = [.badArg] ∧ (0#32 : Word) ≤ (taken hd (.tallyRead hd 0#8 1#16 0#32 0x1000#64) up).tly.headSeq ∧
      ((after (.tallyRead hd 0#8 1#16 0#32 0x1000#64) up).hst.cplWait.map (·.status)) = [.ok]) := by
  decide +kernel

theorem witness_RegisterAccessesComplete :
    (let s := up.modFlt fun f => { f with mergeCnt := 9#16 }
     s.bar0 = true ∧ (after (.readClear 0x4004 15#4) s).readData = 9#32 ∧ (after (.readClear 0x4004 15#4) s).flt.mergeCnt = 0#16 ∧ (after (.readClear 0x4005 15#4) s).readData = 0#32) ∧
    (let s := up.modSns 3 fun q => { q with crcCnt := 7#16 }
     (after (.readClear (0x80000 + 0x2000 * 3 + 0x820) 15#4) s).ax[3].sns.crcCnt = 0#16) ∧
    (let s := { up with cref := 0x500000007 }
     s.canRead .host = true ∧ isPairLo 0x1010 = true ∧ (after (.pairLoRead .host 0x1010) s).readData = 7#32 ∧ (after (.pairLoRead .host 0x1014) (after (.pairLoRead .host 0x1010) s)).readData = 5#32 ∧ isPairLo 0x4010 = false) ∧
    ({ up with sup := .held }.canRead .supervisor = false) ∧
    ((after (.registerWrite 0x4000 0xF#4 0xFF#32) up).flt.ctrl = 7#32 ∧ (after (.registerWrite 0x4000 0x7#4 0xFF#32) up).flt.ctrl = up.flt.ctrl) ∧
    (let s := up.modFlt fun f => { f with sticky := 0x300000000#1536 }
     (after (.registerWrite 0x4104 0xF#4 1#32) s).flt.sticky = 0x200000000#1536) ∧
    ((after (.registerWrite 0x3000 0xF#4 1#32) { up with rst := 3#6 }).rst = 2#6) ∧
    (up.bankOn 0 = true ∧ (after (.registerWrite 0x60000 0xF#4 1#32) up).bank[0].allow = true ∧ (after (.registerWrite 0x60000 0xF#4 0#32) live).bank[0].gateEn = false) ∧
    (let s := up.modFlt fun f => { f with bankOut := 1#8 }
     (after (.registerWrite 0x60000 0xF#4 1#32) s).bank[0].allow = false) ∧
    ((running 3).inHold 3 = false ∧ (after (.registerWrite (0x80000 + 0x2000 * 3 + 4) 0xF#4 4000#32) (running 3)).ax[3].pwm.sticky = 0x10000000#32) ∧
    (up.inHold 3 = true ∧ 500 ≤ bits (4000#32 : Word) 15 0 ∧ (after (.registerWrite (0x80000 + 0x2000 * 3 + 4) 0xF#4 4000#32) up).ax[3].pwm.shadow.per = 4000) ∧
    ((after (.registerWrite (0x80000 + 0x2000 * 3 + 0x1000) 0xF#4 0xFF#32) up).ax[3].clu.ctrl = 0xB#32 ∧ (after (.registerWrite 0x50000 0xF#4 0xFFFF#32) up).tly.rulePending = true) ∧
    ((after (.registerWrite 0x50000 0xF#4 0xFFFF#32) (up.modTly fun y => { y with lock := true })).tly.rulePending = false) := by
  decide +kernel

/-- A small variant. -/
def small : State := { up with variant := .cya1601 }

theorem witness_AbsentUnitRegistersAreSilent :
    (small.unitPresent (regAt (0x80000 + 0x2000 * 16)).1 = false ∧ small.canRead .host = true ∧ (after (.readClear (0x80000 + 0x2000 * 16) 15#4) small).readData = 0#32) ∧
    (small.hasCan 2 = false ∧ small.hasBank 7 = false ∧ small.hasAxis 16 = false ∧ Variant.cya6400.tally = false) := by
  decide +kernel

theorem witness_TelemetryReadPointerIsGuarded :
    ((streaming 0#32).bar0 = true ∧ (streaming 0#32).sysOn 76 = true ∧ (streaming 0#32).hst.tel[3].ringSize < ((streaming 0#32).hst.tel[3].wp - 65#32).toNat ∧
      (after (.registerWrite (0x18104 + 16 * 3) 0xF#4 65#32) (streaming 0#32)).hst.rpBad = 8#32) ∧
    (((streaming 0#32).hst.tel[3].wp - 64#32).toNat ≤ (streaming 0#32).hst.tel[3].ringSize ∧ (after (.registerWrite (0x18104 + 16 * 3) 0xF#4 64#32) (streaming 0#32)).hst.tel[3].rp = 64#32) := by
  decide +kernel

theorem witness_PresentAxesReadAsConstants : small.canRead .host = true ∧ (after (.pairLoRead .host 0x8) small).readData = 0xFFFF#32 ∧ (after (.pairLoRead .host 0xC) small).readData = 0#32 := by
  decide +kernel

/-! Well-formedness: each check refuses an ill-formed command and takes a well-formed one. -/

theorem test_wf_offsets : (Instr.readClear 0x100000 15#4).wf = false ∧ (Instr.readClear 0xFFFFC 15#4).wf = true ∧ (Instr.pairLoRead .host 0x100000).wf = false ∧
    (Instr.registerWrite 0x100000 0xF#4 0#32).wf = false ∧ (Instr.bar2Write 0x400000 0#32).wf = false ∧ (Instr.bar2Write 0x3FFFFC 0#32).wf = true ∧
    (Instr.jtagAccess (.register 0x100000)).wf = false ∧ (Instr.jtagAccess .idcode).wf = true := by decide +kernel

theorem test_wf_lengths : (Instr.patternWrite hd 84#32 []).wf = false ∧ (Instr.lensMap hd 0#8 4#32 []).wf = false ∧ (Instr.engineLoad hd 0#8 14#8 1#32 4#32 0#32 []).wf = false ∧
    (Instr.seamAdd hd 0#16 1#16 0#32 []).wf = false ∧ (Instr.snapshot hd 0#8 0#8 0#8 0#8 0#16 0#64 [] 0#64).wf = false ∧
    (Instr.snapshot hd 0#8 0#8 0#8 1#8 0#16 0#64 [0#32] 0#64).wf = true ∧ (Instr.axisProfile hd 0#8 0#8 0#32 []).wf = false ∧ (Instr.segmentPush hd 0#8 segment).wf = true ∧
    (Instr.segmentPush hd 0#8 []).wf = false ∧ (Instr.signalWrite hd (List.replicate 256 (0#32, 0#32))).wf = false ∧
    (Instr.telOpen hd 0#8 1#8 0#8 0#8 1#16 0xFF#8 [] 0#64 0#32 0#32 0#32).wf = false ∧ (Instr.imageBlock hd 0#8 0#16 4#32 [] true true).wf = false ∧
    (Instr.otpProgram hd 0#16 1#16 0#32 [] none).wf = false ∧ (Instr.otpProgram hd 0#16 1#16 0#32 [0#32] (some 2048)).wf = false ∧ (Instr.certInstall hd 4#16 [] []).wf = false ∧
    (Instr.spTransfer hd 1#8 0#8 9#16 [0#8] 0#64).wf = false ∧ (Instr.spTransfer hd 1#8 0#8 9#16 [0#8, 0#8] 0#64).wf = true ∧ (Instr.spsSelectRise [] 32 0#32 0).wf = false := by
  decide +kernel

theorem test_wf_frames : (Instr.canSend hd 0#8 0#8 2#8 0#32 [0#8]).wf = false ∧ (Instr.canSend hd 0#8 0#8 1#8 0#32 [0#8]).wf = true ∧
    (Instr.canFrameReceived 0 { id := 0x800#29 } 0).wf = false ∧ (Instr.canFrameReceived 0 { ide := true, id := 0x800#29 } 0).wf = true ∧
    (Instr.canFrameReceived 0 { id := 1#29, data := List.replicate 9 0#8 } 0).wf = false ∧ (Instr.tunnelUrgent 0 { fdf := true, id := 1#29, data := List.replicate 9 0#8 }).wf = false ∧
    (Instr.tunnelDescriptor 0 { fdf := true, id := 1#29, data := List.replicate 64 0#8 }).wf = true ∧ (Instr.tunnelWindowData 0 { fdf := true, rtr := true, id := 1#29 }).wf = false ∧
    (Instr.almReferenceReceived { brs := true, id := 1#29 } 0).wf = false ∧
    (Instr.lifecycle hd 4#8 0#8 [] true).wf = false ∧ (Instr.lifecycle hd 3#8 0#8 [] true).wf = true ∧ (Instr.debugTokenOpen hd [0#8] true).wf = false ∧
    (Instr.imageBegin hd 0#8 1#32 0#32 [] true).wf = false ∧ (Instr.settingsWrite hd 1#32 []).wf = false ∧
    (Instr.descriptorFetch true [0#8]).wf = false ∧ (Instr.descriptorFetch true (descOf (.nop hd))).wf = true := by decide +kernel

/-- No row of the table gives bits, so no word spells a command. -/
theorem test_no_table_word : decodeTableWord 32 0 = none ∧ (State.reset.withFetchWord 32 0).pending = [] := by decide +kernel

end Sys2Proof.Tests
end

section
/-! The registers of a unit that does not answer: a unit that is absent, or one whose domain is off (00 R3, 14 R411). -/

namespace Sys2Proof.Machine

/-- An absent unit never answers. -/
theorem State.unitOn_of_absent (s : State) (u : RegUnit) (h : s.unitPresent u = false) : s.unitOn u = false := by
  cases u with
  | sys d => exact absurd h (by simp [State.unitPresent])
  | ledger => exact h
  | can c => simp [State.unitOn, show s.hasCan c = false from h]
  | bank b => simp [State.unitOn, State.bankOn, show s.hasBank b = false from h]
  | axis n => simp [State.unitOn, State.axOn, show s.hasAxis n = false from h]

theorem State.canOn_of_absent (s : State) (c : CanId) (h : s.hasCan c = false) : s.canOn c = false :=
  s.unitOn_of_absent (.can c) h

theorem State.bankOn_of_absent (s : State) (b : BankId) (h : s.hasBank b = false) : s.bankOn b = false :=
  s.unitOn_of_absent (.bank b) h

theorem State.axOn_of_absent (s : State) (n : AxisId) (h : s.hasAxis n = false) : s.axOn n = false :=
  s.unitOn_of_absent (.axis n) h

/-! Writes. -/

theorem State.regWrite_off (s : State) (o : Nat) (v : Word) (h : s.unitOn (regAt o).1 = false) : s.regWrite o v = s := by
  simp [State.regWrite, h]

theorem exec_registerWrite_off (s : State) (o : Nat) (be : BitVec 4) (v : Word) (h : s.unitOn (regAt o).1 = false) :
    exec (.registerWrite o be v) s = .next s := by
  simp [exec, execRegisterWrite, s.regWrite_off o v h]

theorem exec_canEnable_off (s : State) (c : CanId) (v : Word) (h : s.canOn c = false) : exec (.canEnable c v) s = .next s := by
  simp [exec, execCanEnable, State.canCtrl, h]

theorem exec_canRecover_off (s : State) (c : CanId) (h : s.canOn c = false) : exec (.canRecover c) s = .next s := by
  simp [exec, execCanRecover, State.canRecover, h]

theorem exec_canRxRpWrite_off (s : State) (c : CanId) (v : Word) (h : s.canOn c = false) :
    exec (.canRxRpWrite c v) s = .next s := by
  simp [exec, execCanRxRpWrite, State.canRp, h]

theorem exec_gdrLockSet_off (s : State) (b : BankId) (h : s.bankOn b = false) : exec (.gdrLockSet b) s = .next s := by
  simp [exec, execGdrLockSet, State.gdrLock, h]

theorem exec_cmpLockSet_off (s : State) (n : AxisId) (h : s.axOn n = false) : exec (.cmpLockSet n) s = .next s := by
  simp [exec, execCmpLockSet, State.cmpLock, h]

theorem exec_tlyLockSet_absent (s : State) (h : s.variant.tally = false) : exec .tlyLockSet s = .next s := by
  simp [exec, execTlyLockSet, State.tlyLock, h]

/-! Reads. -/

theorem State.readValue_off (s : State) (r : Fin 3) (o : Nat) (h : s.unitOn (regAt o).1 = false) : s.readValue r o = 0#32 := by
  simp [State.readValue, State.regRead, h]

@[simp] theorem State.latchHi_readData (s : State) (r : Fin 3) (o : Nat) : (s.latchHi r o).readData = s.readData := by
  unfold State.latchHi
  split <;> rfl

@[simp] theorem State.latchHi_unitOn (s : State) (r : Fin 3) (o : Nat) (u : RegUnit) : (s.latchHi r o).unitOn u = s.unitOn u := by
  unfold State.latchHi
  split <;> rfl

theorem State.clearRc_off (s : State) (o : Nat) (h : s.unitOn (regAt o).1 = false) : s.clearRc o = s := by
  simp [State.clearRc, h]

/-- A read of a unit that does not answer returns 0, whoever makes it: nothing is latched for the value that it returns,
and nothing is cleared. -/
theorem State.readReg_off (s : State) (r : Requester) (o : Nat) (h : s.unitOn (regAt o).1 = false) :
    (s.readReg r o).readData = 0#32 := by
  unfold State.readReg
  split
  · rfl
  · have off : ({ s with readData := s.readValue (reqIdx r) o }.latchHi (reqIdx r) o).unitOn (regAt o).1 = false := by
      rw [State.latchHi_unitOn]; exact h
    rw [State.clearRc_off _ o off, State.latchHi_readData]
    exact s.readValue_off (reqIdx r) o h

theorem exec_readClear_off (s : State) (o : Nat) (be : BitVec 4) (hr : s.canRead .host = true) (h : s.unitOn (regAt o).1 = false) :
    answers (exec (.readClear o be) s) fun t => t.readData = 0#32 := by
  refine ⟨_, rfl, ?_⟩
  rw [if_neg (by simp [hr])]
  split
  · rfl
  · show (s.readReg .host o).readData &&& enMask be = 0#32
    rw [s.readReg_off .host o h, BitVec.zero_and]

theorem exec_pairLoRead_off (s : State) (who : Requester) (o : Nat) (hr : s.canRead who = true) (h : s.unitOn (regAt o).1 = false) :
    answers (exec (.pairLoRead who o) s) fun t => t.readData = 0#32 := by
  refine ⟨_, rfl, ?_⟩
  rw [if_pos hr]
  exact s.readReg_off who o h

/-- Settles O57: every command on a register asks first whether the unit answers, and an absent unit never does. -/
theorem absentUnitRegistersAreSilent : Obligations.AbsentUnitRegistersAreSilent := by
  intro s
  refine ⟨fun o ho => ?_, fun c hc v => ?_, fun b hb => ?_, fun n hn => ?_, exec_tlyLockSet_absent s⟩
  · have off := s.unitOn_of_absent _ ho
    exact ⟨fun be v => exec_registerWrite_off s o be v off, fun be hr => exec_readClear_off s o be hr off,
      fun who hr => exec_pairLoRead_off s who o hr off⟩
  · have off := s.canOn_of_absent c hc
    exact ⟨exec_canEnable_off s c v off, exec_canRecover_off s c off, exec_canRxRpWrite_off s c v off⟩
  · exact exec_gdrLockSet_off s b (s.bankOn_of_absent b hb)
  · exact exec_cmpLockSet_off s n (s.axOn_of_absent n hn)

end Sys2Proof.Machine
end

section
/-! No command writes the queue of commands or the variant (00 R1 to R3): a step takes its command from the queue before it
runs it, and a part stays the part that it is. `State.kept` is the pair of the two. Each operation of the module has one law,
`<operation>_kept`, in the order of the model's files. The updates of a field keep the pair by definition; an operation that
chains others, under choices and folds, keeps it by their laws, which are the `simp` set; one that matches on what it finds is
split along its match first. `exec_kept` reads the commands off. -/

namespace Sys2Proof.Machine

variable (s : State)

/-- What no command changes: the queue of commands and the variant. -/
def State.kept (s : State) : List Instr × Variant := (s.pending, s.variant)

theorem State.kept_of {s t : State} (hq : t.pending = s.pending) (hv : t.variant = s.variant) : t.kept = s.kept :=
  Prod.ext hq hv

/-! States as the model writes them: a record with some fields new, a choice, a fold. -/

@[simp] theorem State.kept_mk (variant cref clk pwr sup rst flt hst seam can alm ser sec img tly gov bank ax sig posts fits
    ntcCfg ntc hiLatch readData out freeCtr pending) :
    (State.mk variant cref clk pwr sup rst flt hst seam can alm ser sec img tly gov bank ax sig posts fits ntcCfg ntc hiLatch
      readData out freeCtr pending).kept = (pending, variant) := Prod.ext rfl rfl

@[simp] theorem State.pending_variant : (s.pending, s.variant) = s.kept := Prod.ext rfl rfl

@[simp] theorem State.kept_ite (c : Prop) {dec : Decidable c} (t : State) :
    (if c then s else t).kept = if c then s.kept else t.kept := by split <;> rfl

@[simp] theorem State.foldl_kept {α : Type} (f : State → α → State) (l : List α) (hf : ∀ u a, (f u a).kept = u.kept) :
    (l.foldl f s).kept = s.kept := by
  induction l generalizing s with
  | nil => rfl
  | cons a l ih => rw [List.foldl_cons, ih, hf]

/-! Machine/Ops.lean. -/

@[simp] theorem State.modAx_kept (n : AxisId) (f : Axis → Axis) : (s.modAx n f).kept = s.kept := State.kept_of rfl rfl
@[simp] theorem State.modGdr_kept (n : AxisId) (f : Gdr → Gdr) : (s.modGdr n f).kept = s.kept := State.kept_of rfl rfl
@[simp] theorem State.modSns_kept (n : AxisId) (f : Sns → Sns) : (s.modSns n f).kept = s.kept := State.kept_of rfl rfl
@[simp] theorem State.modPwm_kept (n : AxisId) (f : Pwm → Pwm) : (s.modPwm n f).kept = s.kept := State.kept_of rfl rfl
@[simp] theorem State.modFbk_kept (n : AxisId) (f : Fbk → Fbk) : (s.modFbk n f).kept = s.kept := State.kept_of rfl rfl
@[simp] theorem State.modCh_kept (n : AxisId) (f : Chain → Chain) : (s.modCh n f).kept = s.kept := State.kept_of rfl rfl
@[simp] theorem State.modClu_kept (n : AxisId) (f : Clu → Clu) : (s.modClu n f).kept = s.kept := State.kept_of rfl rfl

@[simp] theorem State.modEng_kept (n : AxisId) (j : EngId) (f : Eng → Eng) :
    (s.modEng n j f).kept = s.kept := State.kept_of rfl rfl

@[simp] theorem State.modBank_kept (b : BankId) (f : Bank → Bank) : (s.modBank b f).kept = s.kept := State.kept_of rfl rfl
@[simp] theorem State.modCan_kept (c : CanId) (f : Can → Can) : (s.modCan c f).kept = s.kept := State.kept_of rfl rfl
@[simp] theorem State.modPwr_kept (f : Power → Power) : (s.modPwr f).kept = s.kept := State.kept_of rfl rfl
@[simp] theorem State.modFlt_kept (f : Flt → Flt) : (s.modFlt f).kept = s.kept := State.kept_of rfl rfl
@[simp] theorem State.modHst_kept (f : Hst → Hst) : (s.modHst f).kept = s.kept := State.kept_of rfl rfl
@[simp] theorem State.modSeam_kept (f : SeamUnit → SeamUnit) : (s.modSeam f).kept = s.kept := State.kept_of rfl rfl
@[simp] theorem State.modAlm_kept (f : Alm → Alm) : (s.modAlm f).kept = s.kept := State.kept_of rfl rfl
@[simp] theorem State.modSer_kept (f : Serial → Serial) : (s.modSer f).kept = s.kept := State.kept_of rfl rfl
@[simp] theorem State.modSec_kept (f : Sec → Sec) : (s.modSec f).kept = s.kept := State.kept_of rfl rfl
@[simp] theorem State.modImg_kept (f : Img → Img) : (s.modImg f).kept = s.kept := State.kept_of rfl rfl
@[simp] theorem State.modTly_kept (f : Tly → Tly) : (s.modTly f).kept = s.kept := State.kept_of rfl rfl
@[simp] theorem State.modGov_kept (f : Gov → Gov) : (s.modGov f).kept = s.kept := State.kept_of rfl rfl

@[simp] theorem State.modPh_kept (n : AxisId) (p : Fin 3) (f : PwmPhase → PwmPhase) :
    (s.modPh n p f).kept = s.kept := State.kept_of rfl rfl

@[simp] theorem State.modGate_kept (n : AxisId) (g : Fin 6) (f : GateSt → GateSt) :
    (s.modGate n g f).kept = s.kept := State.kept_of rfl rfl

@[simp] theorem State.forAxes_kept (l : List AxisId) (f : AxisId → State → State) (hf : ∀ n u, (f n u).kept = u.kept) :
    (s.forAxes l f).kept = s.kept := s.foldl_kept _ l fun u n => hf n u

@[simp] theorem State.forBanks_kept (l : List BankId) (f : BankId → State → State) (hf : ∀ b u, (f b u).kept = u.kept) :
    (s.forBanks l f).kept = s.kept := s.foldl_kept _ l fun u b => hf b u

@[simp] theorem State.emit_kept (o : Output) : (s.emit o).kept = s.kept := State.kept_of rfl rfl
@[simp] theorem State.bump_kept : s.bump.kept = s.kept := State.kept_of rfl rfl
@[simp] theorem State.bumpBy_kept (k : Nat) : (s.bumpBy k).kept = s.kept := State.kept_of rfl rfl
@[simp] theorem State.flashWork_kept : s.flashWork.kept = s.kept := by simp [State.flashWork]
@[simp] theorem State.raise_kept (src : Nat) : (s.raise src).kept = s.kept := State.kept_of rfl rfl
@[simp] theorem State.raiseCond_kept (src : Nat) (on : Bool) : (s.raiseCond src on).kept = s.kept := by simp [State.raiseCond]
@[simp] theorem State.useInj_kept : s.useInj.kept = s.kept := State.kept_of rfl rfl
@[simp] theorem State.otpAccess_kept (t : Nat) : (s.otpAccess t).kept = s.kept := by simp [State.otpAccess]
@[simp] theorem State.sigWrite_kept (a : Nat) (v : Word) : (s.sigWrite a v).kept = s.kept := State.kept_of rfl rfl
@[simp] theorem State.outWrite_kept (a : Nat) (v : Word) : (s.outWrite a v).kept = s.kept := by simp [State.outWrite]
@[simp] theorem State.setE_kept (n : AxisId) (j k : Nat) (v : Word) : (s.setE n j k v).kept = s.kept := State.kept_of rfl rfl

@[simp] theorem State.setOut_kept (n : AxisId) (j k : Nat) (v : Word) :
    (s.setOut n j k v).kept = s.kept := by simp [State.setOut]

@[simp] theorem State.publish_kept (n : AxisId) (j k : Nat) : (s.publish n j k).kept = s.kept := by simp [State.publish]

@[simp] theorem State.ctmWrite_kept (n : AxisId) (off : Nat) (bs : List Byte) :
    (s.ctmWrite n off bs).kept = s.kept := State.kept_of rfl rfl

/-! Machine/Rings.lean. -/

@[simp] theorem State.modInflight_kept (p : InFlight → Bool) (f : InFlight → InFlight) :
    (s.modInflight p f).kept = s.kept := by simp [State.modInflight]

@[simp] theorem State.setChainFail_kept (src : RingSrc) (v : Bool) : (s.setChainFail src v).kept = s.kept := by
  unfold State.setChainFail
  split <;> simp

theorem State.accept_kept {s t : State} {h : DescHdr} (ha : s.accept h = some t) : t.kept = s.kept := by
  unfold State.accept at ha
  split at ha
  · cases ha
  · dsimp only at ha
    split at ha
    · split at ha
      · cases ha
      · cases ha
        simp
    · cases ha

@[simp] theorem State.completeIf_kept (p : InFlight → Bool) (src : RingSrc) (tag : BitVec 16) (st : Status) (info : Word)
    (time : Option Dword) : (s.completeIf p src tag st info time).kept = s.kept := by
  unfold State.completeIf
  dsimp only
  split <;> simp

@[simp] theorem State.done_kept (h : DescHdr) (st : Status) (info : Word) :
    (s.done h st info).kept = s.kept := by simp [State.done]

@[simp] theorem State.cplGone_kept (src : RingSrc) (tag : BitVec 16) :
    (s.cplGone src tag).kept = s.kept := by simp [State.cplGone]

@[simp] theorem State.setAct_kept (h : DescHdr) (a : Act) : (s.setAct h a).kept = s.kept := by simp [State.setAct]
@[simp] theorem State.heartbeat_kept : s.heartbeat.kept = s.kept := by simp [State.heartbeat]

@[simp] theorem State.decode_kept (h : DescHdr) (timedOk served : Bool) (i : Instr) (pre : State → Check)
    (run : State → State) (hr : ∀ u, (run u).kept = u.kept) : (s.decode h timedOk served i pre run).kept = s.kept := by
  unfold State.decode
  split
  · rfl
  · rename_i u hu
    have ht : (if isTun h.src then u.heartbeat else u).kept = s.kept := by
      simp [State.accept_kept (Option.eq_some_of_filter_eq_some hu)]
    dsimp only
    generalize (if isTun h.src then u.heartbeat else u) = v at ht ⊢
    rw [← ht]
    iterate 4 (split; · simp)
    split
    · simp
    · simp [hr]

@[simp] theorem State.decodeNow_kept (h : DescHdr) (served : Bool) (i : Instr) (pre : State → Check)
    (run : State → State) (hr : ∀ u, (run u).kept = u.kept) : (s.decodeNow h served i pre run).kept = s.kept :=
  s.decode_kept h _ served i pre run hr

@[simp] theorem State.queueOwn_kept (c : CanId) (owner : TxOwner) (ide : Bool) (id : Nat) (data : List Byte) :
    (s.queueOwn c owner ide id data).kept = s.kept := by simp [State.queueOwn]

@[simp] theorem State.windowOut_kept (c : CanId) (f off : Nat) (data : List Byte) :
    (s.windowOut c f off data).kept = s.kept := by
  induction f generalizing s off data with
  | zero => rfl
  | succ f ih =>
    cases data with
    | nil => rfl
    | cons b data => simp [State.windowOut, ih]

@[simp] theorem State.writeOut_kept (src : RingSrc) (addr : Dword) (data : List Byte) :
    (s.writeOut src addr data).kept = s.kept := by
  cases src <;> simp [State.writeOut]

@[simp] theorem State.completeAll_kept (p : InFlight → Bool) (st : Status) (info : Word) :
    (s.completeAll p st info).kept = s.kept := by simp [State.completeAll]

/-! Machine/Signals.lean. -/

@[simp] theorem State.hostSigWrite_kept (a : Nat) (v : Word) :
    (s.hostSigWrite a v).kept = s.kept := by simp [State.hostSigWrite]

@[simp] theorem State.engStore_kept (a : Nat) (v : Word) : (s.engStore a v).kept = s.kept := by simp [State.engStore]

@[simp] theorem State.readWords_kept (n : AxisId) (ws : List (Nat × Nat)) (also : Nat → Bool) :
    (s.readWords n ws also).kept = s.kept := by simp [State.readWords]

@[simp] theorem State.readParams_kept (n : AxisId) (j : Nat) (also : Nat → Bool) :
    (s.readParams n j also).kept = s.kept := by simp [State.readParams]

@[simp] theorem State.readRef_kept (n : AxisId) (j k : Nat) : (s.readRef n j k).kept = s.kept := by simp [State.readRef]

/-! Machine/Axes.lean. -/

@[simp] theorem State.gateFall_kept (n : AxisId) (g : Fin 6) : (s.gateFall n g).kept = s.kept := by simp [State.gateFall]
@[simp] theorem State.lowDue_kept (n : AxisId) (p : Fin 3) : (s.lowDue n p).kept = s.kept := by simp [State.lowDue]

@[simp] theorem State.forceGates_kept (n : AxisId) : (s.forceGates n).kept = s.kept := by
  unfold State.forceGates
  split <;> simp

@[simp] theorem State.noteTorque_kept (n : AxisId) : (s.noteTorque n).kept = s.kept := by simp [State.noteTorque]

@[simp] theorem State.accrue_kept (n : AxisId) (f : Accrual → Accrual) :
    (s.accrue n f).kept = s.kept := by simp [State.accrue]

@[simp] theorem State.segFlush_kept (n : AxisId) : (s.segFlush n).kept = s.kept := by simp [State.segFlush]
@[simp] theorem State.beginStop_kept (n : AxisId) : (s.beginStop n).kept = s.kept := by simp [State.beginStop]
@[simp] theorem State.uncharge_kept (m : AxisId) : (s.uncharge m).kept = s.kept := by simp [State.uncharge]

@[simp] theorem State.endFittings_kept (n : AxisId) (st : Status) (why : BitVec 8) :
    (s.endFittings n st why).kept = s.kept := by simp [State.endFittings]

@[simp] theorem State.settleRuns_kept : s.settleRuns.kept = s.kept := by
  refine s.foldl_kept _ _ fun u d => ?_
  split
  · dsimp only
    split
    · rfl
    · split <;> simp
  · rfl

@[simp] theorem State.settleFits_kept : s.settleFits.kept = s.kept := by
  refine s.foldl_kept _ _ fun u f => ?_
  split <;> simp

@[simp] theorem State.runFailed_kept (n : AxisId) : (s.runFailed n).kept = s.kept := by simp [State.runFailed]
@[simp] theorem State.takeWaiting_kept (n : AxisId) : (s.takeWaiting n).kept = s.kept := by simp [State.takeWaiting]

@[simp] theorem State.sendSafe_kept (n : AxisId) (st : AxState) (why : Status) :
    (s.sendSafe n st why).kept = s.kept := by simp [State.sendSafe]

@[simp] theorem State.dropToHold_kept (n : AxisId) : (s.dropToHold n).kept = s.kept := by
  unfold State.dropToHold
  split <;> simp

@[simp] theorem State.evalGate_kept (b : BankId) : (s.evalGate b).kept = s.kept := by simp [State.evalGate]

@[simp] theorem State.evalGates_kept : s.evalGates.kept = s.kept :=
  s.forBanks_kept _ _ fun b u => u.evalGate_kept b

/-! Machine/Events.lean. -/

@[simp] theorem State.engEvent_kept (n : AxisId) (e : Nat) : (s.engEvent n e).kept = s.kept := by simp [State.engEvent]

@[simp] theorem State.oneEvent_kept (n : AxisId) (j : EngId) (e : Nat) :
    (s.oneEvent n j e).kept = s.kept := by simp [State.oneEvent]

@[simp] theorem State.gpPulses_kept (n : AxisId) (e : Nat) : (s.gpPulses n e).kept = s.kept := by simp [State.gpPulses]
@[simp] theorem State.spEvents_kept (n : AxisId) (e : Nat) : (s.spEvents n e).kept = s.kept := by simp [State.spEvents]
@[simp] theorem State.snapEvents_kept (n : AxisId) (e : Nat) : (s.snapEvents n e).kept = s.kept := by simp [State.snapEvents]
@[simp] theorem State.irqEvent_kept (n : AxisId) (e : Nat) : (s.irqEvent n e).kept = s.kept := by simp [State.irqEvent]
@[simp] theorem State.pwmEvent_kept (n : AxisId) (e : PwmEv) : (s.pwmEvent n e).kept = s.kept := by simp [State.pwmEvent]

/-! Machine/EngineOps.lean. -/

@[simp] theorem State.clearPublic_kept (n : AxisId) (j : EngId) :
    (s.clearPublic n j).kept = s.kept := by simp [State.clearPublic]

@[simp] theorem State.settleLens_kept (n : AxisId) : (s.settleLens n).kept = s.kept := by
  refine s.foldl_kept _ _ fun u d => ?_
  split <;> simp

@[simp] theorem State.stopOpen_kept (n : AxisId) (j : EngId) : (s.stopOpen n j).kept = s.kept := by simp [State.stopOpen]
@[simp] theorem State.openStop_kept (n : AxisId) (j : EngId) : (s.openStop n j).kept = s.kept := by simp [State.openStop]
@[simp] theorem State.clearCluster_kept (n : AxisId) : (s.clearCluster n).kept = s.kept := by simp [State.clearCluster]

@[simp] theorem State.recover_kept (n : AxisId) (j : EngId) (cause : BitVec 2) :
    (s.recover n j cause).kept = s.kept := by simp [State.recover]

@[simp] theorem State.activate_kept (n : AxisId) (js : List EngId) :
    (s.activate n js).kept = s.kept := by simp [State.activate]

@[simp] theorem State.miss_kept (n : AxisId) (j : EngId) : (s.miss n j).kept = s.kept := by simp [State.miss]
@[simp] theorem State.wedged_kept (n : AxisId) (j : EngId) : (s.wedged n j).kept = s.kept := by simp [State.wedged]

@[simp] theorem State.eccHit_kept (n : AxisId) (j : EngId) (area : EccArea) :
    (s.eccHit n j area).kept = s.kept := by simp [State.eccHit]

@[simp] theorem State.injectAt_kept (m n : AxisId) (j : EngId) (area : EccArea) (go : State → State)
    (hg : ∀ u, (go u).kept = u.kept) : (s.injectAt m n j area go).kept = s.kept := by
  simp [State.injectAt, hg]

@[simp] theorem State.stageInj_kept (n : AxisId) (js : List EngId) (go : State → State)
    (hg : ∀ u, (go u).kept = u.kept) : (s.stageInj n js go).kept = s.kept := by
  unfold State.stageInj
  split <;> simp [hg]

/-! Machine/Fan.lean. -/

@[simp] theorem State.fanEval_kept : s.fanEval.kept = s.kept := by simp [State.fanEval]

/-! Machine/Feedback.lean. -/

@[simp] theorem State.noteLoss_kept (n : AxisId) (begins : Bool) :
    (s.noteLoss n begins).kept = s.kept := by simp [State.noteLoss]

@[simp] theorem State.countEdge_kept (n : AxisId) (back : Bool) :
    (s.countEdge n back).kept = s.kept := by simp [State.countEdge]

@[simp] theorem State.illegalEdge_kept (n : AxisId) : (s.illegalEdge n).kept = s.kept := by simp [State.illegalEdge]
@[simp] theorem State.fbkFinish_kept (n : AxisId) : (s.fbkFinish n).kept = s.kept := by simp [State.fbkFinish]

@[simp] theorem State.fbkAct_kept (n : AxisId) (g : FbkEdge → FbkEdge) :
    (s.fbkAct n g).kept = s.kept := by simp [State.fbkAct]

@[simp] theorem State.indexCheck_kept (n : AxisId) : (s.indexCheck n).kept = s.kept := by simp [State.indexCheck]

@[simp] theorem State.indexUndo_kept (n : AxisId) : (s.indexUndo n).kept = s.kept := by
  unfold State.indexUndo
  dsimp only
  split <;> simp

@[simp] theorem State.quadEdge_kept (n : AxisId) (pa pb : Pin) :
    (s.quadEdge n pa pb).kept = s.kept := by simp [State.quadEdge]

@[simp] theorem State.hallStep_kept (n : AxisId) : (s.hallStep n).kept = s.kept := by
  unfold State.hallStep
  dsimp only
  split
  · simp
  · split <;> simp

@[simp] theorem State.hallEdge_kept (n : AxisId) (u v w : Pin) :
    (s.hallEdge n u v w).kept = s.kept := by simp [State.hallEdge]

@[simp] theorem State.indexHit_kept (n : AxisId) (i : Pin) : (s.indexHit n i).kept = s.kept := by simp [State.indexHit]
@[simp] theorem State.auxHit_kept (n : AxisId) (x : Pin) : (s.auxHit n x).kept = s.kept := by simp [State.auxHit]

@[simp] theorem State.ssiMissed_kept (n : AxisId) (bit_ : BitVec 8) :
    (s.ssiMissed n bit_).kept = s.kept := by simp [State.ssiMissed]

@[simp] theorem State.ssiStart_kept (n : AxisId) : (s.ssiStart n).kept = s.kept := by simp [State.ssiStart]

@[simp] theorem State.ssiEnd_kept (n : AxisId) (qb : List (Nat × Bool)) : (s.ssiEnd n qb).kept = s.kept := by
  unfold State.ssiEnd
  dsimp only
  split <;> simp

@[simp] theorem State.leak_kept (n : AxisId) : (s.leak n).kept = s.kept := by simp [State.leak]
@[simp] theorem State.hallTimeout_kept (n : AxisId) : (s.hallTimeout n).kept = s.kept := by simp [State.hallTimeout]

@[simp] theorem State.presetPos_kept (n : AxisId) (host : Bool) :
    (s.presetPos n host).kept = s.kept := by simp [State.presetPos]

@[simp] theorem State.fbkBase_kept (n : AxisId) (g : Fbk → Fbk) : (s.fbkBase n g).kept = s.kept := by simp [State.fbkBase]
@[simp] theorem State.holdLatch_kept (n : AxisId) : (s.holdLatch n).kept = s.kept := by simp [State.holdLatch]

/-! Machine/GateDrive.lean. -/

@[simp] theorem State.latch_kept (n : AxisId) (bits : BitVec 16) (k : Nat) (twoStep : Bool) :
    (s.latch n bits k twoStep).kept = s.kept := by simp [State.latch]

@[simp] theorem State.gateRise_kept (n : AxisId) (g : Fin 6) : (s.gateRise n g).kept = s.kept := by simp [State.gateRise]
@[simp] theorem State.bstHolds_kept (n : AxisId) (g : Fin 6) : (s.bstHolds n g).kept = s.kept := by simp [State.bstHolds]
@[simp] theorem State.turnOn_kept (n : AxisId) (g : Fin 6) : (s.turnOn n g).kept = s.kept := by simp [State.turnOn]

@[simp] theorem State.commandFall_kept (n : AxisId) (g : Fin 6) :
    (s.commandFall n g).kept = s.kept := by simp [State.commandFall]

@[simp] theorem State.handshake_kept (n : AxisId) (g : Fin 6) : (s.handshake n g).kept = s.kept := by simp [State.handshake]
@[simp] theorem State.vds_kept (n : AxisId) (g : Fin 6) (k : Nat) : (s.vds n g k).kept = s.kept := by simp [State.vds]
@[simp] theorem State.bstClear_kept (n : AxisId) (p : Fin 3) : (s.bstClear n p).kept = s.kept := by simp [State.bstClear]

@[simp] theorem State.earlyWarning_kept (n : AxisId) (p : Fin 3) :
    (s.earlyWarning n p).kept = s.kept := by simp [State.earlyWarning]

@[simp] theorem State.hemGates_kept (n : AxisId) : (s.hemGates n).kept = s.kept := by simp [State.hemGates]
@[simp] theorem State.hemCut_kept (n : AxisId) : (s.hemCut n).kept = s.kept := by simp [State.hemCut]

@[simp] theorem State.enbFall_kept (b : BankId) : (s.enbFall b).kept = s.kept := by
  unfold State.enbFall
  dsimp only
  split <;> simp

@[simp] theorem State.clearLatches_kept (b : BankId) : (s.clearLatches b).kept = s.kept := by simp [State.clearLatches]
@[simp] theorem State.enbRise_kept (b : BankId) (lowNs : Nat) : (s.enbRise b lowNs).kept = s.kept := by simp [State.enbRise]
@[simp] theorem State.stoFall_kept (b : BankId) (ch : StoCh) : (s.stoFall b ch).kept = s.kept := by simp [State.stoFall]
@[simp] theorem State.stoRise_kept (b : BankId) (ch : StoCh) : (s.stoRise b ch).kept = s.kept := by simp [State.stoRise]

@[simp] theorem State.applyDown_kept (b : BankId) (t off : Nat) (v : Word) :
    (s.applyDown b t off v).kept = s.kept := by simp [State.applyDown]

@[simp] theorem State.downApplied_kept (b : BankId) : (s.downApplied b).kept = s.kept := by
  unfold State.downApplied
  split <;> simp

/-! Machine/SeamOps.lean. -/

@[simp] theorem State.modSlot_kept (k : Fin 64) (f : SeamSlot → SeamSlot) :
    (s.modSlot k f).kept = s.kept := by simp [State.modSlot]

@[simp] theorem State.snapEnd_kept (x : Snap) (st : Status) (info : Nat) :
    (s.snapEnd x st info).kept = s.kept := by simp [State.snapEnd]

@[simp] theorem State.seamResolve_kept (k : Fin 64) (st : Status) (reason idx : Nat) (time : Dword) :
    (s.seamResolve k st reason idx time).kept = s.kept := by
  unfold State.seamResolve
  extract_lets x h info s1 s2 s3
  have h1 : s1.kept = s.kept := by
    unfold s1
    split <;> simp
  clear_value s1
  simp [s3, s2, h1]

@[simp] theorem State.seamAbortAt_kept (k : Fin 64) (reason idx : Nat) (time : Dword) :
    (s.seamAbortAt k reason idx time).kept = s.kept := by simp [State.seamAbortAt]

@[simp] theorem State.seamAbort_kept (k : Fin 64) (reason idx : Nat) :
    (s.seamAbort k reason idx).kept = s.kept := by simp [State.seamAbort]

@[simp] theorem State.seamsAbort_kept (p : SeamSlot → Bool) (reason idx : Nat) :
    (s.seamsAbort p reason idx).kept = s.kept := by simp [State.seamsAbort]

@[simp] theorem State.refStopped_kept (n : AxisId) : (s.refStopped n).kept = s.kept := by simp [State.refStopped]

/-! Machine/Start.lean. -/

@[simp] theorem State.setIdem_kept (n : AxisId) (target : Word) :
    (s.setIdem n target).kept = s.kept := by simp [State.setIdem]

@[simp] theorem State.beginAttempt_kept (n : AxisId) (a : Nat) :
    (s.beginAttempt n a).kept = s.kept := by simp [State.beginAttempt]

@[simp] theorem State.leaveHold_kept (n : AxisId) : (s.leaveHold n).kept = s.kept := by simp [State.leaveHold]
@[simp] theorem State.alignEnd_kept (n : AxisId) : (s.alignEnd n).kept = s.kept := by simp [State.alignEnd]
@[simp] theorem State.judgeAttempt_kept (n : AxisId) : (s.judgeAttempt n).kept = s.kept := by simp [State.judgeAttempt]
@[simp] theorem State.attemptFail_kept (n : AxisId) : (s.attemptFail n).kept = s.kept := by simp [State.attemptFail]
@[simp] theorem State.retryEnd_kept (n : AxisId) : (s.retryEnd n).kept = s.kept := by simp [State.retryEnd]

/-! Machine/Pwm.lean. -/

@[simp] theorem State.dutyRelease_kept (n : AxisId) (a b c : Word) :
    (s.dutyRelease n a b c).kept = s.kept := by simp [State.dutyRelease]

@[simp] theorem State.lowOff_kept (n : AxisId) (p : Fin 3) (t : Int) : (s.lowOff n p t).kept = s.kept := by
  unfold State.lowOff
  dsimp only
  split <;> simp

@[simp] theorem State.highOff_kept (n : AxisId) (p : Fin 3) (t : Int) : (s.highOff n p t).kept = s.kept := by
  unfold State.highOff
  dsimp only
  split <;> simp

@[simp] theorem State.boundaryPhase_kept (n : AxisId) (peak : Bool) (p : Fin 3) :
    (s.boundaryPhase n peak p).kept = s.kept := by
  unfold State.boundaryPhase
  dsimp only
  split <;> simp

@[simp] theorem State.hemPhase_kept (n : AxisId) (p : Fin 3) : (s.hemPhase n p).kept = s.kept := by simp [State.hemPhase]

@[simp] theorem State.boundaryLevels_kept (n : AxisId) (peak : Bool) :
    (s.boundaryLevels n peak).kept = s.kept := by simp [State.boundaryLevels]

@[simp] theorem State.gussetPlan_kept (n : AxisId) : (s.gussetPlan n).kept = s.kept := by simp [State.gussetPlan]
@[simp] theorem State.gussetUp_kept (n : AxisId) : (s.gussetUp n).kept = s.kept := by simp [State.gussetUp]

@[simp] theorem State.refreshPhase_kept (n : AxisId) (p : Fin 3) :
    (s.refreshPhase n p).kept = s.kept := by simp [State.refreshPhase]

@[simp] theorem State.refreshes_kept (n : AxisId) : (s.refreshes n).kept = s.kept := by simp [State.refreshes]

@[simp] theorem State.shortPulses_kept (n : AxisId) (b : Vector PwmPhase 3) :
    (s.shortPulses n b).kept = s.kept := by simp [State.shortPulses]

@[simp] theorem State.chargeZero_kept (n : AxisId) : (s.chargeZero n).kept = s.kept := by simp [State.chargeZero]
@[simp] theorem State.updatePoint_kept (n : AxisId) : (s.updatePoint n).kept = s.kept := by simp [State.updatePoint]
@[simp] theorem State.hemPeriodEnd_kept (n : AxisId) : (s.hemPeriodEnd n).kept = s.kept := by simp [State.hemPeriodEnd]
@[simp] theorem State.hemZero_kept (n : AxisId) (live : HemLive) : (s.hemZero n live).kept = s.kept := by simp [State.hemZero]

@[simp] theorem State.sampleHold_kept (n : AxisId) (word : Word) :
    (s.sampleHold n word).kept = s.kept := by simp [State.sampleHold]

@[simp] theorem State.boundaryPulse_kept (n : AxisId) (peak : Bool) (half : Pwm) :
    (s.boundaryPulse n peak half).kept = s.kept := by simp [State.boundaryPulse]

@[simp] theorem State.counterStart_kept (n : AxisId) : (s.counterStart n).kept = s.kept := by simp [State.counterStart]
@[simp] theorem State.counterStop_kept (n : AxisId) : (s.counterStop n).kept = s.kept := by simp [State.counterStop]
@[simp] theorem State.hardRelease_kept (n : AxisId) : (s.hardRelease n).kept = s.kept := by simp [State.hardRelease]
@[simp] theorem State.zero_kept (n : AxisId) (live : HemLive) : (s.zero n live).kept = s.kept := by simp [State.zero]
@[simp] theorem State.peak_kept (n : AxisId) : (s.peak n).kept = s.kept := by simp [State.peak]

@[simp] theorem State.switchPoint_kept (n : AxisId) (p : Fin 3) (up : Bool) :
    (s.switchPoint n p up).kept = s.kept := by simp [State.switchPoint]

@[simp] theorem State.cmpEvent_kept (n : AxisId) (p : Fin 3) (up : Bool) :
    (s.cmpEvent n p up).kept = s.kept := by simp [State.cmpEvent]

@[simp] theorem State.trgEvent_kept (n : AxisId) (k : Fin 2) : (s.trgEvent n k).kept = s.kept := by simp [State.trgEvent]

@[simp] theorem State.refreshEnd_kept (n : AxisId) (p : Fin 3) : (s.refreshEnd n p).kept = s.kept := by
  unfold State.refreshEnd
  dsimp only
  split
  all_goals
    split
    · rfl
    · split <;> simp

@[simp] theorem State.chargeFail_kept (n : AxisId) : (s.chargeFail n).kept = s.kept := by simp [State.chargeFail]
@[simp] theorem State.genHalt_kept (n : AxisId) : (s.genHalt n).kept = s.kept := by simp [State.genHalt]
@[simp] theorem State.debugHalt_kept (n : AxisId) (j : EngId) : (s.debugHalt n j).kept = s.kept := by simp [State.debugHalt]
@[simp] theorem State.debugResume_kept (n : AxisId) : (s.debugResume n).kept = s.kept := by simp [State.debugResume]

/-! Machine/Sensing.lean. -/

@[simp] theorem State.samplePulse_kept (n : AxisId) (widthNs : Nat) (vs vph : Tri) :
    (s.samplePulse n widthNs vs vph).kept = s.kept := by simp [State.samplePulse]

@[simp] theorem State.convDone_kept (n : AxisId) (codes : Tri) : (s.convDone n codes).kept = s.kept := by
  unfold State.convDone
  dsimp only
  split
  · rfl
  · split
    · split
      · split <;> simp
      · simp
    · simp

@[simp] theorem State.statusDue_kept (n : AxisId) (m : StatusMeas) : (s.statusDue n m).kept = s.kept := by
  unfold State.statusDue
  split
  · rfl
  · split <;> simp

@[simp] theorem State.badFrame_kept (n : AxisId) : (s.badFrame n).kept = s.kept := by simp [State.badFrame]

@[simp] theorem State.matchBoundary_kept (n : AxisId) : (s.matchBoundary n).2.kept = s.kept := by
  unfold State.matchBoundary
  split <;> simp

@[simp] theorem State.goodFrame_kept (n : AxisId) (ovf : Bool) :
    (s.goodFrame n ovf).kept = s.kept := by simp [State.goodFrame]

@[simp] theorem State.sampleFrame_kept (n : AxisId) (err : BitVec 128) : (s.sampleFrame n err).kept = s.kept := by
  unfold State.sampleFrame
  split
  · rfl
  · split
    · rfl
    · split
      · rfl
      · extract_lets word crcOk f w s1 s2 s3 m s4 c
        have h3 : s3.kept = s.kept := by simp [s3, s2, s1]
        have h4 : s4.kept = s.kept := by
          unfold s4 m
          split <;> simp [h3]
        clear_value s4
        simp [s1, h4]

@[simp] theorem State.integralFrame_kept (n : AxisId) (err : BitVec 128) : (s.integralFrame n err).kept = s.kept := by
  unfold State.integralFrame
  split
  · rfl
  · split <;> simp

@[simp] theorem State.boundaryMissing_kept (n : AxisId) : (s.boundaryMissing n).kept = s.kept := by
  have hm := s.matchBoundary_kept n
  unfold State.boundaryMissing
  split <;> simp_all

@[simp] theorem State.regenHard_kept (b : BankId) : (s.regenHard b).kept = s.kept := by simp [State.regenHard]
@[simp] theorem State.statusWords_kept (n : AxisId) : (s.statusWords n).kept = s.kept := by simp [State.statusWords]

@[simp] theorem State.statusFrame_kept (n : AxisId) (crcOk : Bool) : (s.statusFrame n crcOk).kept = s.kept := by
  unfold State.statusFrame
  split
  · rfl
  · split <;> simp

@[simp] theorem State.calBegin_kept (n : AxisId) : (s.calBegin n).kept = s.kept := by simp [State.calBegin]
@[simp] theorem State.calTick_kept (n : AxisId) : (s.calTick n).kept = s.kept := by simp [State.calTick]
@[simp] theorem State.calRequest_kept (n : AxisId) : (s.calRequest n).kept = s.kept := by simp [State.calRequest]
@[simp] theorem State.calDone_kept (n : AxisId) : (s.calDone n).kept = s.kept := by simp [State.calDone]
@[simp] theorem State.chopper_kept (b : BankId) : (s.chopper b).kept = s.kept := by simp [State.chopper]

@[simp] theorem State.vinSample_kept (b : BankId) (code : BitVec 12) :
    (s.vinSample b code).kept = s.kept := by simp [State.vinSample]

@[simp] theorem State.hyst_kept (src : Nat) (t hi lo : Int) : (s.hyst src t hi lo).kept = s.kept := by simp [State.hyst]

@[simp] theorem State.tempSample_kept (d : Die) (t0 t1 t2 t3 : BitVec 16) : (s.tempSample d t0 t1 t2 t3).kept = s.kept := by
  unfold State.tempSample
  split <;> simp

@[simp] theorem State.ntcEnable_kept (v : Word) : (s.ntcEnable v).kept = s.kept := by simp [State.ntcEnable]

@[simp] theorem State.ntcConv_kept (i : Fin 16) (code : BitVec 12) :
    (s.ntcConv i code).kept = s.kept := by simp [State.ntcConv]

/-! Machine/Patterns.lean. -/

@[simp] theorem State.loadParam_kept (n : AxisId) (j k : Nat) (v : Word) :
    (s.loadParam n j k v).kept = s.kept := by simp [State.loadParam]

@[simp] theorem State.setP0_kept (n : AxisId) (p : Pattern) : (s.setP0 n p).kept = s.kept := by simp [State.setP0]

@[simp] theorem State.skipLoad_kept (n : AxisId) (k : FitKind) (format cpr : Bool) :
    (s.skipLoad n k format cpr).kept = s.kept := by simp [State.skipLoad]

@[simp] theorem State.loadRipple_kept (n : AxisId) (p : Pattern) :
    (s.loadRipple n p).kept = s.kept := by simp [State.loadRipple]

@[simp] theorem State.loadPattern_kept (n : AxisId) (k : FitKind) (p : Pattern) :
    (s.loadPattern n k p).kept = s.kept := by
  cases k <;> simp [State.loadPattern]

@[simp] theorem State.loadPatterns_kept (n : AxisId) (which : FitKind → Bool) :
    (s.loadPatterns n which).kept = s.kept := by
  refine s.foldl_kept _ _ fun u e => ?_
  split <;> simp

/-! Machine/Sweeps.lean. -/

@[simp] theorem State.modSweep_kept (n : AxisId) (f : Sweep → Sweep) :
    (s.modSweep n f).kept = s.kept := by simp [State.modSweep]

@[simp] theorem State.sweepCur_kept (n : AxisId) (t : Word) : (s.sweepCur n t).kept = s.kept := by
  unfold State.sweepCur
  split
  · rfl
  · split <;> simp

@[simp] theorem State.sweepSpd_kept (n : AxisId) (applied : Word) : (s.sweepSpd n applied).kept = s.kept := by
  unfold State.sweepSpd
  split
  · rfl
  · split <;> simp

/-! Machine/ChainFast.lean. -/

@[simp] theorem State.sensingWords_kept (n : AxisId) (f : SampleIn) : (s.sensingWords n f).kept = s.kept := by
  unfold State.sensingWords
  extract_lets q w s1 s2 s3 s4 s5 s6
  have hw (u : State) (k : Nat) (v : Word) : (w u k v).kept = u.kept := u.setE_kept n 0 k v
  clear_value w
  have h4 : s4.kept = s.kept := by
    unfold s4
    split <;> simp [s1, s2, s3, hw]
  clear_value s4
  simp [s5, s6, hw, h4]

@[simp] theorem State.sumChecks_kept (n : AxisId) (missed : Nat) (failed unus peak : Bool) :
    (s.sumChecks n missed failed unus peak).kept = s.kept := by simp [State.sumChecks]

@[simp] theorem State.conditioned_kept (n : AxisId) (f : SampleIn) (pc : Word) (peak : Bool) :
    (s.conditioned n f pc peak).kept = s.kept := by simp [State.conditioned]

@[simp] theorem State.noStep_kept (n : AxisId) (f : SampleIn) : (s.noStep n f).kept = s.kept := by simp [State.noStep]

@[simp] theorem State.calStep_kept (n : AxisId) (pc : Word) (peak : Bool) :
    (s.calStep n pc peak).kept = s.kept := by simp [State.calStep]

@[simp] theorem State.sampleCond_kept (n : AxisId) : (s.sampleCond n).kept = s.kept := by
  unfold State.sampleCond
  extract_lets c
  split
  · rfl
  · split
    · rfl
    · rename_i f rest _
      refine s.stageInj_kept _ _ _ fun u => ?_
      extract_lets u1 u2 u3
      have h2 : u2.kept = u.kept := by simp [u2, u1]
      have h3 : u3.kept = u.kept := by
        unfold u3
        split <;> simp [h2]
      clear_value u3
      split <;> simp [h3]

@[simp] theorem State.e1_kept (n : AxisId) : (s.e1 n).kept = s.kept := by simp [State.e1]

@[simp] theorem State.e2_kept (n : AxisId) : (s.e2 n).kept = s.kept := by
  unfold State.e2
  extract_lets hs disc sub vdc ls sum s1 s2 s3 s4
  have h1 : s1.kept = s.kept := by
    unfold s1
    split <;> simp
  have h2 : s2.kept = s1.kept := by
    unfold s2
    split <;> simp
  clear_value s2
  simp [s4, s3, h2, h1]

@[simp] theorem State.e3_kept (n : AxisId) (t : Word) (degraded : Bool) : (s.e3 n t degraded).kept = s.kept :=
  (State.modCh_kept _ _ _).trans <| (State.setE_kept _ _ _ _ _).trans <| (State.setOut_kept _ _ _ _ _).trans <|
    (State.setOut_kept _ _ _ _ _).trans <| (State.setOut_kept _ _ _ _ _).trans <| (State.bump_kept _).trans <|
    s.readParams_kept n 3 _

@[simp] theorem State.wordJudge_kept (n : AxisId) : (s.wordJudge n).kept = s.kept := by simp [State.wordJudge]
@[simp] theorem State.setLinear_kept (n : AxisId) (l : Int) : (s.setLinear n l).kept = s.kept := by simp [State.setLinear]

@[simp] theorem State.stepLinear_kept (n : AxisId) : (s.stepLinear n).kept = s.kept := by
  unfold State.stepLinear
  dsimp only
  split
  · split <;> simp
  · simp

@[simp] theorem State.plausRun_kept (n : AxisId) (valid : Bool) :
    (s.plausRun n valid).kept = s.kept := by simp [State.plausRun]

@[simp] theorem State.publishE4_kept (n : AxisId) (th w t : Word) (src : Nat) :
    (s.publishE4 n th w t src).kept = s.kept := by simp [State.publishE4]

@[simp] theorem State.loop_kept (n : AxisId) (t : Word) (tm : Option Word) (src : Nat) :
    (s.loop n t tm src).kept = s.kept := by
  unfold State.loop
  split <;> simp

@[simp] theorem State.forcedAngle_kept (n : AxisId) (t : Word) : (s.forcedAngle n t).kept = s.kept := by
  unfold State.forcedAngle
  split <;> simp

@[simp] theorem State.e4_kept (n : AxisId) (t : Word) : (s.e4 n t).kept = s.kept := by simp [State.e4]

@[simp] theorem State.travel_kept (n : AxisId) (prev : Word) : (s.travel n prev).kept = s.kept := by
  unfold State.travel
  dsimp only
  split
  · rfl
  · split <;> simp

@[simp] theorem State.handover_kept (n : AxisId) (t : Word) : (s.handover n t).kept = s.kept := by simp [State.handover]

@[simp] theorem State.e5_kept (n : AxisId) (t : Word) (degraded predicted : Bool) :
    (s.e5 n t degraded predicted).kept = s.kept := by simp [State.e5]

@[simp] theorem State.e6_kept (n : AxisId) (t : Word) : (s.e6 n t).kept = s.kept := by simp [State.e6]

@[simp] theorem State.refitBin_kept (n : AxisId) (b : Nat) (wt e t : Word) : (s.refitBin n b wt e t).1.kept = s.kept := by
  simp [State.refitBin]

@[simp] theorem State.e7_kept (n : AxisId) (t : Word) (degraded : Bool) : (s.e7 n t degraded).kept = s.kept := by
  unfold State.e7
  extract_lets c s1 cpr x b w1 w0 p gain loaded s2 idem tau lp s3 wm on e a d r
  have h3 : s3.kept = s.kept := by simp [s3, s2, s1]
  have hr : r.1.kept = s.kept := by
    unfold r
    split <;> simp [d, a, h3]
  clear_value r
  simp [hr]

@[simp] theorem State.e13_kept (n : AxisId) : (s.e13 n).kept = s.kept := by simp [State.e13]
@[simp] theorem State.fitTravel_kept (n : AxisId) : (s.fitTravel n).kept = s.kept := by simp [State.fitTravel]

@[simp] theorem State.notePeak_kept (n : AxisId) : (s.notePeak n).kept = s.kept := by
  unfold State.notePeak
  extract_lets d q
  split
  · rfl
  · exact State.accrue_kept _ _ _

@[simp] theorem State.currentStep_kept (n : AxisId) : (s.currentStep n).kept = s.kept := by simp [State.currentStep]

/-! Machine/ChainSlow.lean. -/

@[simp] theorem State.settleModes_kept : s.settleModes.kept = s.kept := by
  refine s.foldl_kept _ _ fun u d => ?_
  split
  · split
    · rfl
    · split <;> simp
  · rfl

@[simp] theorem State.modeAnswer_kept (n : AxisId) (refused : Bool) :
    (s.modeAnswer n refused).kept = s.kept := by simp [State.modeAnswer]

@[simp] theorem State.loadParams_kept (n : AxisId) (j : Nat) : (s.loadParams n j).kept = s.kept := by simp [State.loadParams]
@[simp] theorem State.setLoaded_kept (n : AxisId) (on : Bool) : (s.setLoaded n on).kept = s.kept := by simp [State.setLoaded]
@[simp] theorem State.setBudgets_kept (n : AxisId) : (s.setBudgets n).kept = s.kept := by simp [State.setBudgets]
@[simp] theorem State.unload_kept (n : AxisId) : (s.unload n).kept = s.kept := by simp [State.unload]
@[simp] theorem State.reload_kept (n : AxisId) : (s.reload n).kept = s.kept := by simp [State.reload]

@[simp] theorem State.setReduced_kept (n : AxisId) (red : Bool) :
    (s.setReduced n red).kept = s.kept := by simp [State.setReduced]

@[simp] theorem State.setMode_kept (n : AxisId) (m : AxMode) (red : Bool) :
    (s.setMode n m red).kept = s.kept := by simp [State.setMode]

@[simp] theorem State.takeMode_kept (n : AxisId) : (s.takeMode n).1.kept = s.kept := by
  unfold State.takeMode
  dsimp only
  split
  · simp
  · split
    · simp
    · split <;> simp

@[simp] theorem State.noteEnergy_kept (n : AxisId) : (s.noteEnergy n).kept = s.kept := s.accrue_kept n _

@[simp] theorem State.e8_kept (n : AxisId) (t ref : Word) (ramp bump : Bool) :
    (s.e8 n t ref ramp bump).kept = s.kept := by simp [State.e8]

@[simp] theorem State.e11Section_kept (n : AxisId) (t : Word) (i : Nat) (x : Word) :
    (s.e11Section n t i x).1.kept = s.kept := by
  unfold State.e11Section
  extract_lets k f
  split
  · rfl
  · exact (State.modCh_kept _ _ _).trans (State.bumpBy_kept _ _)

@[simp] theorem State.e11_kept (n : AxisId) (t : Word) : (s.e11 n t).kept = s.kept := by simp [State.e11]
@[simp] theorem State.thermal_kept (n : AxisId) (t : Word) : (s.thermal n t).kept = s.kept := by simp [State.thermal]

@[simp] theorem State.checkRequests_kept (n : AxisId) (r : Word × Word) : (s.checkRequests n r).1.kept = s.kept := by
  simp [State.checkRequests]

@[simp] theorem State.references_kept (n : AxisId) : (s.references n).kept = s.kept := by
  unfold State.references
  split
  · rfl
  · split <;> simp

@[simp] theorem State.stopStep_kept (n : AxisId) (t : Word) : (s.stopStep n t).kept = s.kept := by simp [State.stopStep]
@[simp] theorem State.stallRun_kept (n : AxisId) : (s.stallRun n).kept = s.kept := by simp [State.stallRun]
@[simp] theorem State.tachSeen_kept (n : AxisId) (cp : Nat) : (s.tachSeen n cp).kept = s.kept := by simp [State.tachSeen]
@[simp] theorem State.speedStep_kept (n : AxisId) : (s.speedStep n).kept = s.kept := by simp [State.speedStep]
@[simp] theorem State.segPop_kept (n : AxisId) : (s.segPop n).kept = s.kept := by simp [State.segPop]
@[simp] theorem State.segBegin_kept (n : AxisId) (t : Nat) : (s.segBegin n t).kept = s.kept := by simp [State.segBegin]
@[simp] theorem State.setRef_kept (n : AxisId) (l : Int) : (s.setRef n l).kept = s.kept := by simp [State.setRef]

@[simp] theorem State.segDiscard_kept (n : AxisId) (fuel : Nat) : (s.segDiscard n fuel).kept = s.kept := by
  induction fuel generalizing s with
  | zero => rfl
  | succ fuel ih => simp [State.segDiscard, ih]

@[simp] theorem State.segTry_kept (n : AxisId) : (s.segTry n).kept = s.kept := by
  unfold State.segTry
  dsimp only
  split
  · simp
  · split <;> simp

@[simp] theorem State.segEnd_kept (n : AxisId) : (s.segEnd n).kept = s.kept := by
  unfold State.segEnd
  split <;> simp

@[simp] theorem State.segHold_kept (n : AxisId) (p : Int) : (s.segHold n p).kept = s.kept := by simp [State.segHold]
@[simp] theorem State.segShow_kept (n : AxisId) : (s.segShow n).kept = s.kept := by simp [State.segShow]

@[simp] theorem State.e10_kept (n : AxisId) : (s.e10 n).kept = s.kept := by
  unfold State.e10
  dsimp only
  split
  · split <;> simp
  · simp

@[simp] theorem State.e9_kept (n : AxisId) : (s.e9 n).kept = s.kept := by simp [State.e9]
@[simp] theorem State.positionStep_kept (n : AxisId) : (s.positionStep n).kept = s.kept := by simp [State.positionStep]

/-! Machine/Governor.lean. -/

@[simp] theorem State.govShares_kept : s.govShares.kept = s.kept := by simp [State.govShares]

@[simp] theorem State.govTick_kept : s.govTick.kept = s.kept := by
  unfold State.govTick
  split
  · rfl
  · extract_lets s1 was a s2 m s3
    have h2 : s2.kept = s.kept := (s1.modGov_kept _).trans (s.modGov_kept _)
    have h3 : s3.kept = s.kept := by
      dsimp only [s3]
      split
      · exact h2
      · exact (s2.modGov_kept _).trans h2
    split
    · simp [h3]
    · split <;> simp [h3]

/-! Machine/Vendor.lean. -/

@[simp] theorem State.reapply_kept (n : AxisId) : (s.reapply n).kept = s.kept := by simp [State.reapply]
@[simp] theorem State.loadVendor_kept (n : AxisId) : (s.loadVendor n).kept = s.kept := by simp [State.loadVendor]
@[simp] theorem State.refuse_kept (n : AxisId) (code : Nat) : (s.refuse n code).kept = s.kept := by simp [State.refuse]
@[simp] theorem State.charge_kept (n : AxisId) : (s.charge n).kept = s.kept := by simp [State.charge]

/-! Machine/Fitting.lean. -/

@[simp] theorem State.pendPat_kept (n : AxisId) (k : FitKind) (p : Pattern) :
    (s.pendPat n k p).kept = s.kept := by simp [State.pendPat]

@[simp] theorem State.commitPat_kept (n : AxisId) (k : FitKind) (p : Pattern) (good : Bool) :
    (s.commitPat n k p good).kept = s.kept := by simp [State.commitPat]

@[simp] theorem State.commitAll_kept (bad : Dword) (l : List PatKey) : (s.commitAll bad l).1.kept = s.kept := by
  induction l generalizing s with
  | nil => rfl
  | cons e l ih =>
    rw [State.commitAll]
    split
    · simp
    · simp [ih]

@[simp] theorem State.fitting_kept (h : DescHdr) (k : FitKind) (op : FitOp) (i : Instr) :
    (s.fitting h k op i).kept = s.kept := by
  unfold State.fitting
  refine s.decode_kept _ _ _ _ _ _ fun u => ?_
  split <;> simp

@[simp] theorem State.modFit_kept (p : Fit → Bool) (f : Fit → Fit) : (s.modFit p f).kept = s.kept := by simp [State.modFit]
@[simp] theorem State.sweepAxis_kept (f : Fit) (n : AxisId) : (s.sweepAxis f n).kept = s.kept := by simp [State.sweepAxis]

@[simp] theorem State.fitGiveUp_kept (f : Fit) (st : Status) (why : BitVec 8) :
    (s.fitGiveUp f st why).kept = s.kept := by simp [State.fitGiveUp]

@[simp] theorem State.fittingStart_kept (src : RingSrc) (tag : BitVec 16) : (s.fittingStart src tag).kept = s.kept := by
  unfold State.fittingStart
  dsimp only
  split
  · rfl
  · split
    · rfl
    · split
      · simp
      · split
        · simp
        · split <;> simp

@[simp] theorem State.leavePattern_kept (f : Fit) (part : Bool) (n : AxisId) :
    (s.leavePattern f part n).kept = s.kept := by simp [State.leavePattern]

@[simp] theorem State.sweepComplete_kept (src : RingSrc) (tag : BitVec 16) (bad : Dword) :
    (s.sweepComplete src tag bad).kept = s.kept := by
  unfold State.sweepComplete
  split
  · rfl
  · split
    · rfl
    · extract_lets axes s1 s2 s3
      have h2 : s2.kept = s.kept := by
        have h1 : s1.kept = s.kept := by simp [s1]
        unfold s2
        split
        · refine Eq.trans (s1.foldl_kept _ _ fun u n => ?_) h1
          split <;> simp
        · exact h1
      clear_value s2
      simp [s3, h2]

@[simp] theorem State.fitPartial_kept (p : Fit → Bool) (why : BitVec 8) :
    (s.fitPartial p why).kept = s.kept := by simp [State.fitPartial]

@[simp] theorem State.commitCtm_kept (h : DescHdr) (axis kind : BitVec 8) (bad : Dword) (i : Instr) :
    (s.commitCtm h axis kind bad i).kept = s.kept := by
  unfold State.commitCtm
  refine s.decodeNow_kept _ _ _ _ _ fun u => ?_
  split <;> simp

@[simp] theorem State.patternCommit_kept (h : DescHdr) (select axis kind : BitVec 8) (setId : Word) (bad : Dword) :
    (s.patternCommit h select axis kind setId bad).kept = s.kept := by
  unfold State.patternCommit
  dsimp only
  split
  · simp
  · refine s.decodeNow_kept _ _ _ _ _ fun u => ?_
    split
    · simp
    · split
      · simp
      · have hc := u.commitAll_kept bad (u.selected select axis kind setId)
        split <;> simp_all

/-! Machine/Operands.lean. -/

@[simp] theorem State.issue_kept (i : Instr) (n : AxisId) (j : EngId) (go : State → State)
    (hg : ∀ u, (go u).kept = u.kept) : (s.issue i n j go).kept = s.kept := by
  simp [State.issue, hg]

@[simp] theorem State.accessErr_kept (n : AxisId) (j : EngId) : (s.accessErr n j).kept = s.kept := by simp [State.accessErr]

@[simp] theorem State.dutyStore_kept (n : AxisId) (j : EngId) (p : Fin 3) (v : Word) :
    (s.dutyStore n j p v).kept = s.kept := by simp [State.dutyStore]

@[simp] theorem State.softHem_kept (n : AxisId) : (s.softHem n).kept = s.kept := by simp [State.softHem]

@[simp] theorem State.gpStore_kept (n : AxisId) (on : Bool) (v : Word) :
    (s.gpStore n on v).kept = s.kept := by simp [State.gpStore]

@[simp] theorem State.targetStore_kept (n : AxisId) (j : EngId) (t : Target) (v : Word) :
    (s.targetStore n j t v).kept = s.kept := by
  unfold State.targetStore
  split <;> simp

/-! Machine/Yei.lean. -/

@[simp] theorem State.illegal_kept (n : AxisId) (j : EngId) : (s.illegal n j).kept = s.kept := by simp [State.illegal]

@[simp] theorem State.alu_kept (i : Instr) (n : AxisId) (j : EngId) (d : GReg) (f : Eng → Alu) :
    (s.alu i n j d f).kept = s.kept := by simp [State.alu]

@[simp] theorem State.aluFlags_kept (i : Instr) (n : AxisId) (j : EngId) (f : Eng → BitVec 6) :
    (s.aluFlags i n j f).kept = s.kept := by simp [State.aluFlags]

@[simp] theorem State.aluFree_kept (i : Instr) (n : AxisId) (j : EngId) (d : GReg) (f : Eng → Alu) :
    (s.aluFree i n j d f).kept = s.kept := by simp [State.aluFree]

@[simp] theorem State.loadWords_kept (n : AxisId) (j : EngId) (d : GReg) (addr : Word) (two : Bool) :
    (s.loadWords n j d addr two).kept = s.kept := by
  unfold State.loadWords
  dsimp only
  split <;> simp

@[simp] theorem State.issueLoad_kept (i : Instr) (n : AxisId) (j : EngId) (d a : GReg) (imm : BitVec 16) (two : Bool) :
    (s.issueLoad i n j d a imm two).kept = s.kept := by simp [State.issueLoad]

@[simp] theorem State.issueStore_kept (i : Instr) (n : AxisId) (j : EngId) (d a : GReg) (imm : BitVec 16) (two : Bool) :
    (s.issueStore i n j d a imm two).kept = s.kept := by simp [State.issueStore]

@[simp] theorem State.storeArrives_kept (n : AxisId) (j : EngId) (m : AxisId) :
    (s.storeArrives n j m).kept = s.kept := by
  unfold State.storeArrives
  dsimp only
  split
  · rfl
  · split
    · rfl
    · split <;> simp

@[simp] theorem State.waitReturn_kept (n : AxisId) (j : EngId) : (s.waitReturn n j).kept = s.kept := by
  unfold State.waitReturn
  dsimp only
  split
  · rfl
  · split
    · rfl
    · split
      · split <;> simp
      · simp

@[simp] theorem State.postTo_kept (n : AxisId) (j : EngId) (sender v : Word) :
    (s.postTo n j sender v).kept = s.kept := by simp [State.postTo]

@[simp] theorem State.postArrives_kept (p : PostSrc) : (s.postArrives p).kept = s.kept := by
  cases p with
  | engine n j to_ =>
    unfold State.postArrives
    dsimp only
    split <;> simp
  | supervisor to_ j v => simp [State.postArrives]

/-! Machine/Engines.lean. -/

@[simp] theorem State.recoveryDone_kept (n : AxisId) : (s.recoveryDone n).kept = s.kept := by simp [State.recoveryDone]

@[simp] theorem State.loadEngine_kept (n : AxisId) (j : EngId) (budget : Word) (b : List Byte) :
    (s.loadEngine n j budget b).kept = s.kept := by simp [State.loadEngine]

/-! Machine/FaultTab.lean. -/

@[simp] theorem State.setClass_kept (k : Nat) (c : BitVec 3) : (s.setClass k c).kept = s.kept := by simp [State.setClass]
@[simp] theorem State.setEsc_kept (k : Nat) (v : BitVec 24) : (s.setEsc k v).kept = s.kept := by simp [State.setEsc]

/-! Machine/RegMap.lean. -/

@[simp] theorem State.clearRc_kept (o : Nat) : (s.clearRc o).kept = s.kept := by
  unfold State.clearRc
  split
  split
  · rfl
  · split
    case h_1 => split <;> simp
    case h_5 => split <;> simp
    all_goals simp

/-! Machine/Seams.lean. -/

@[simp] theorem State.seamOpen_kept (h : DescHdr) (axes : Dword) (flags : BitVec 8) :
    (s.seamOpen h axes flags).kept = s.kept := by
  unfold State.seamOpen
  split <;> simp

@[simp] theorem State.seamOpenWaiting_kept (k : Fin 64) : (s.seamOpenWaiting k).kept = s.kept := by
  unfold State.seamOpenWaiting
  split <;> simp

@[simp] theorem State.seamAdd_kept (h : DescHdr) (handle : BitVec 16) (n : Nat) (bs : List Byte) :
    (s.seamAdd h handle n bs).kept = s.kept := by
  unfold State.seamAdd
  dsimp only
  split
  · simp
  · split <;> simp

@[simp] theorem State.seamArm_kept (h : DescHdr) (k : Fin 64) (point armFlags ref : BitVec 8) (at_ step : Dword) :
    (s.seamArm h k point armFlags ref at_ step).kept = s.kept := by simp [State.seamArm]

@[simp] theorem State.seamDefer_kept (k : Fin 64) : (s.seamDefer k).kept = s.kept := by simp [State.seamDefer]

@[simp] theorem State.stagingDone_kept (k : Fin 64) : (s.stagingDone k).kept = s.kept := by
  unfold State.stagingDone
  dsimp only
  split
  · rfl
  · split <;> simp

@[simp] theorem State.seamDecide_kept (k : Fin 64) : (s.seamDecide k).kept = s.kept := by
  unfold State.seamDecide
  extract_lets x alm
  iterate 3 (split; · simp)
  split
  · simp
  · split
    · simp
    · split <;> simp

@[simp] theorem State.fbkSet_kept (n : AxisId) (g : Fbk → Fbk) : (s.fbkSet n g).kept = s.kept := by simp [State.fbkSet]

@[simp] theorem State.commitAxis_kept (x : SeamSlot) (n : AxisId) :
    (s.commitAxis x n).kept = s.kept := by simp [State.commitAxis]

@[simp] theorem State.seamCommit_kept (k : Fin 64) : (s.seamCommit k).kept = s.kept := by simp [State.seamCommit]

@[simp] theorem State.epochWrite_kept (k : Fin 64) (e : SeamEntry) :
    (s.epochWrite k e).kept = s.kept := by simp [State.epochWrite]

@[simp] theorem State.segGo_kept (n : AxisId) (t : Nat) : (s.segGo n t).kept = s.kept := by simp [State.segGo]

@[simp] theorem State.seamEpoch_kept (k : Fin 64) : (s.seamEpoch k).kept = s.kept := by
  unfold State.seamEpoch
  extract_lets x
  split
  · rfl
  · split
    · rfl
    · extract_lets shared s1 s2 s3 s4 s5 s6
      have h2 : s2.kept = s.kept := by simp [s2, s1]
      have h3 : s3.kept = s.kept := by simp [s3, h2]
      have h4 : s4.kept = s.kept := by simp [s4, h3]
      have h5 : s5.kept = s.kept := by simp [s5, h4]
      simp [s6, h5]

@[simp] theorem State.seamCancel_kept (h : DescHdr) (handle : BitVec 16) : (s.seamCancel h handle).kept = s.kept := by
  unfold State.seamCancel
  split <;> simp

@[simp] theorem State.snapLatch_kept (x : Snap) : (s.snapLatch x).kept = s.kept := by simp [State.snapLatch]

@[simp] theorem State.snapWrite_kept (x : Snap) (t : Nat) (alm : Dword) (regs : List Word) :
    (s.snapWrite x t alm regs).kept = s.kept := by simp [State.snapWrite]

@[simp] theorem State.snapCapture_kept (src : RingSrc) (tag : BitVec 16) : (s.snapCapture src tag).kept = s.kept := by
  unfold State.snapCapture
  split
  · rfl
  · split <;> simp

/-! Machine/HostLink.lean. -/

@[simp] theorem State.msix_kept (v : BitVec 6) : (s.msix v).kept = s.kept := by simp [State.msix]
@[simp] theorem State.devVector_kept : s.devVector.kept = s.kept := by simp [State.devVector]
@[simp] theorem State.sqCfg_kept (q : Fin 64) (v : Word) : (s.sqCfg q v).kept = s.kept := by simp [State.sqCfg]
@[simp] theorem State.cqCfg_kept (c : Fin 16) (v : Word) : (s.cqCfg c v).kept = s.kept := by simp [State.cqCfg]
@[simp] theorem State.sqDoorbell_kept (q : Fin 64) (v : Word) : (s.sqDoorbell q v).kept = s.kept := by simp [State.sqDoorbell]
@[simp] theorem State.cqDoorbell_kept (c : Fin 16) (v : Word) : (s.cqDoorbell c v).kept = s.kept := by simp [State.cqDoorbell]

@[simp] theorem State.fetch_kept (ok : Bool) (desc : List Byte) : (s.fetch ok desc).kept = s.kept := by
  unfold State.fetch
  split
  · rfl
  · split <;> simp

@[simp] theorem State.retire_kept (e : Completion) : (s.retire e).kept = s.kept := by simp [State.retire]

@[simp] theorem State.cplWrite_kept : s.cplWrite.kept = s.kept := by
  unfold State.cplWrite
  split
  · rfl
  · split <;> simp

@[simp] theorem State.canSendTimeout_kept (c : CanId) (id : Nat) (src : RingSrc) (tag : BitVec 16) :
    (s.canSendTimeout c id src tag).kept = s.kept := by
  unfold State.canSendTimeout
  split <;> simp

@[simp] theorem State.spTimeout_kept (p : Fin 8) (src : RingSrc) (tag : BitVec 16) :
    (s.spTimeout p src tag).kept = s.kept := by
  unfold State.spTimeout
  dsimp only
  split
  · simp
  · split <;> simp

@[simp] theorem State.fitTimeout_kept (d : InFlight) : (s.fitTimeout d).kept = s.kept := by simp [State.fitTimeout]

@[simp] theorem State.timeout_kept (src : RingSrc) (tag : BitVec 16) : (s.timeout src tag).kept = s.kept := by
  unfold State.timeout
  split
  · rfl
  · split
    case h_6 => split <;> simp
    all_goals simp

@[simp] theorem State.stopRequest_kept (n : AxisId) : (s.stopRequest n).kept = s.kept := by
  unfold State.stopRequest
  split <;> simp

@[simp] theorem State.loseHost_kept : s.loseHost.kept = s.kept := by simp [State.loseHost]
@[simp] theorem State.dropLatches_kept (who : Fin 3) : (s.dropLatches who).kept = s.kept := by simp [State.dropLatches]
@[simp] theorem State.msixUnmask_kept (v : BitVec 6) : (s.msixUnmask v).kept = s.kept := by simp [State.msixUnmask]

@[simp] theorem State.config_kept (r : CfgReq) : (s.config r).kept = s.kept := by
  unfold State.config
  split <;> simp

@[simp] theorem State.haltFits_kept (m : Dword) : (s.haltFits m).kept = s.kept := by simp [State.haltFits]
@[simp] theorem State.haltAll_kept (m : Dword) : (s.haltAll m).kept = s.kept := by simp [State.haltAll]

@[simp] theorem State.urgent_kept (data : Word) : (s.urgent data).kept = s.kept := by
  unfold State.urgent
  dsimp only
  split <;> simp

/-! Machine/AxisDesc.lean. -/

@[simp] theorem State.holdAct_kept (h : DescHdr) (m : Dword) : (s.holdAct h m).kept = s.kept := by
  unfold State.holdAct
  dsimp only
  split <;> simp

@[simp] theorem State.runAct_kept (h : DescHdr) (m : Dword) : (s.runAct h m).kept = s.kept := by
  unfold State.runAct
  dsimp only
  split
  · simp
  · split <;> simp

@[simp] theorem State.modeAct_kept (h : DescHdr) (m : Dword) (mode reduced : BitVec 8) :
    (s.modeAct h m mode reduced).kept = s.kept := by
  unfold State.modeAct
  split <;> simp

@[simp] theorem State.sigAct_kept (h : DescHdr) (es : List (Word × Word)) : (s.sigAct h es).kept = s.kept := by
  unfold State.sigAct
  split <;> simp

@[simp] theorem State.pulseAct_kept (h : DescHdr) (addr on off : Word) (stop : Dword) :
    (s.pulseAct h addr on off stop).kept = s.kept := by simp [State.pulseAct]

@[simp] theorem State.pulseStop_kept (src : RingSrc) (tag : BitVec 16) : (s.pulseStop src tag).kept = s.kept := by
  unfold State.pulseStop
  dsimp only
  split
  · rfl
  · split <;> simp

@[simp] theorem State.segAppend_kept (n : AxisId) (g : List Byte) :
    (s.segAppend n g).kept = s.kept := by simp [State.segAppend]

@[simp] theorem State.flushAct_kept (h : DescHdr) (m : Dword) : (s.flushAct h m).kept = s.kept := by
  unfold State.flushAct
  split <;> simp

@[simp] theorem State.timedAct_kept (i : Instr) : (s.timedAct i).kept = s.kept := by
  unfold State.timedAct
  split <;> simp

@[simp] theorem State.timedStart_kept (src : RingSrc) (tag : BitVec 16) : (s.timedStart src tag).kept = s.kept := by
  unfold State.timedStart
  dsimp only
  split
  · rfl
  · split <;> simp

/-! Machine/Telemetry.lean. -/

@[simp] theorem State.modTel_kept (i : Fin 32) (f : Stream → Stream) : (s.modTel i f).kept = s.kept := by simp [State.modTel]
@[simp] theorem State.telPut_kept (i : Fin 32) (bs : List Byte) : (s.telPut i bs).kept = s.kept := by simp [State.telPut]

@[simp] theorem State.telRecord_kept (i : Fin 32) (bs : List Byte) :
    (s.telRecord i bs).kept = s.kept := by simp [State.telRecord]

@[simp] theorem State.telVector_kept (i : Fin 32) (before : Nat) :
    (s.telVector i before).kept = s.kept := by simp [State.telVector]

@[simp] theorem State.telSample_kept (i : Fin 32) : (s.telSample i).kept = s.kept := by
  unfold State.telSample
  dsimp only
  split <;> simp

@[simp] theorem State.telClose_kept (h : DescHdr) (i : Fin 32) : (s.telClose h i).kept = s.kept := by simp [State.telClose]
@[simp] theorem State.telRp_kept (i : Fin 32) (v : Word) : (s.telRp i v).kept = s.kept := by simp [State.telRp]

/-! Machine/Tallying.lean. -/

@[simp] theorem State.tlyWall_kept : s.tlyWall.kept = s.kept := by simp [State.tlyWall]

@[simp] theorem State.tlyStep_kept (before : Dword) (size : Int) :
    (s.tlyStep before size).kept = s.kept := by simp [State.tlyStep]

@[simp] theorem State.close_kept (e : Int) (span readBackOk : Bool) :
    (s.close e span readBackOk).kept = s.kept := by simp [State.close]

@[simp] theorem State.periodClose_kept (readBackOk : Bool) :
    (s.periodClose readBackOk).kept = s.kept := by simp [State.periodClose]

@[simp] theorem State.checkpoint_kept (readBackOk : Bool) :
    (s.checkpoint readBackOk).kept = s.kept := by simp [State.checkpoint]

@[simp] theorem State.tlyBoot_kept : s.tlyBoot.kept = s.kept := by
  unfold State.tlyBoot
  split
  · rfl
  · dsimp only
    split <;> simp

@[simp] theorem State.tlyLock_kept : s.tlyLock.kept = s.kept := by simp [State.tlyLock]
@[simp] theorem State.tlyRule_kept (clock : Bool) (v : Word) : (s.tlyRule clock v).kept = s.kept := by simp [State.tlyRule]

/-! Machine/Can.lean. -/

@[simp] theorem State.canStb_kept (c : CanId) : (s.canStb c).kept = s.kept := by simp [State.canStb]
@[simp] theorem State.canCtrl_kept (c : CanId) (v : Word) : (s.canCtrl c v).kept = s.kept := by simp [State.canCtrl]

@[simp] theorem State.canQueue_kept (h : DescHdr) (chan flags len : BitVec 8) (id : Word) (data : List Byte) :
    (s.canQueue h chan flags len id data).kept = s.kept := by simp [State.canQueue]

@[simp] theorem State.sendDone_kept (b : TxBuf) (st : Status) (info : Nat) (time : Option Dword) :
    (s.sendDone b st info time).kept = s.kept := by
  unfold State.sendDone
  split <;> simp

@[simp] theorem State.dropTx_kept (c : CanId) (id : Nat) : (s.dropTx c id).kept = s.kept := by simp [State.dropTx]

@[simp] theorem State.canSent_kept (c : CanId) (id : Nat) (tdcv : BitVec 7) (age : Nat) :
    (s.canSent c id tdcv age).kept = s.kept := by
  unfold State.canSent
  split
  · rfl
  · split
    · rfl
    · dsimp only
      split <;> simp

@[simp] theorem State.busOff_kept (c : CanId) : (s.busOff c).kept = s.kept := by simp [State.busOff]
@[simp] theorem State.canRecover_kept (c : CanId) : (s.canRecover c).kept = s.kept := by simp [State.canRecover]

@[simp] theorem State.canRetry_kept (c : CanId) (id : Nat) (error : Bool) (age : Nat) :
    (s.canRetry c id error age).kept = s.kept := by
  unfold State.canRetry
  split <;> simp

@[simp] theorem State.canRxGood_kept (c : CanId) : (s.canRxGood c).kept = s.kept := by simp [State.canRxGood]

@[simp] theorem State.deliver_kept (c : CanId) (fuel : Nat) : (s.deliver c fuel).kept = s.kept := by
  induction fuel generalizing s with
  | zero => rfl
  | succ fuel ih =>
    unfold State.deliver
    dsimp only
    split
    · rfl
    · simp [ih]

@[simp] theorem State.rxAccept_kept (c : CanId) (f : CanFrame) (age : Nat) : (s.rxAccept c f age).kept = s.kept := by
  unfold State.rxAccept
  split <;> simp

@[simp] theorem State.canRp_kept (c : CanId) (v : Word) : (s.canRp c v).kept = s.kept := by simp [State.canRp]
@[simp] theorem State.canRxCfg_kept (c : CanId) (v : Word) : (s.canRxCfg c v).kept = s.kept := by simp [State.canRxCfg]
@[simp] theorem State.tunBad_kept (c : CanId) : (s.tunBad c).kept = s.kept := by simp [State.tunBad]

@[simp] theorem State.tunDescriptor_kept (c : CanId) (f : CanFrame) :
    (s.tunDescriptor c f).kept = s.kept := by simp [State.tunDescriptor]

@[simp] theorem State.tunWindow_kept (c : CanId) (f : CanFrame) : (s.tunWindow c f).kept = s.kept := by simp [State.tunWindow]

@[simp] theorem State.tunTake_kept (c : CanId) (k : Nat) (f : CanFrame) : (s.tunTake c k f).kept = s.kept := by
  unfold State.tunTake
  split <;> simp

@[simp] theorem State.tunArrive_kept (c : CanId) (f : CanFrame) (k : Nat) :
    (s.tunArrive c f k).kept = s.kept := by simp [State.tunArrive]

@[simp] theorem State.canWrite_kept (c : CanId) (r : Nat) (v : Word) : (s.canWrite c r v).kept = s.kept := by
  unfold State.canWrite
  split <;> simp

/-! Machine/Almanac.lean. -/

@[simp] theorem State.almFlag_kept (i : Nat) : (s.almFlag i).kept = s.kept := by simp [State.almFlag]
@[simp] theorem State.almStep_kept (t : Dword) : (s.almStep t).kept = s.kept := by simp [State.almStep]
@[simp] theorem State.almSet_kept : s.almSet.kept = s.kept := by simp [State.almSet]
@[simp] theorem State.enterHoldover_kept : s.enterHoldover.kept = s.kept := by simp [State.enterHoldover]
@[simp] theorem State.crossEnd_kept : s.crossEnd.kept = s.kept := by simp [State.crossEnd]
@[simp] theorem State.rival_kept : s.rival.kept = s.kept := by simp [State.rival]
@[simp] theorem State.almBeginSlave_kept : s.almBeginSlave.kept = s.kept := by simp [State.almBeginSlave]
@[simp] theorem State.almBeginMaster_kept : s.almBeginMaster.kept = s.kept := by simp [State.almBeginMaster]
@[simp] theorem State.lockSettle_kept : s.lockSettle.kept = s.kept := by simp [State.lockSettle]

@[simp] theorem State.almCtrl_kept (v : Word) : (s.almCtrl v).kept = s.kept := by
  unfold State.almCtrl
  split <;> simp

@[simp] theorem State.refDue_kept : s.refDue.kept = s.kept := by simp [State.refDue]

@[simp] theorem State.almAct_kept (o : Int) (i : Nat) (stepped : Bool) :
    (s.almAct o i stepped).kept = s.kept := by simp [State.almAct]

@[simp] theorem State.changeMaster_kept (off : BitVec 4) : (s.changeMaster off).kept = s.kept := by simp [State.changeMaster]

@[simp] theorem State.refUse_kept (prev : Option RefStamp) (m : Dword) (i : Nat) (stepped : Bool) :
    (s.refUse prev m i stepped).kept = s.kept := by
  unfold State.refUse
  split <;> simp

@[simp] theorem State.refNote_kept (x : RefStamp) : (s.refNote x).kept = s.kept := by simp [State.refNote]

@[simp] theorem State.refFollow_kept (x : RefStamp) (d : List Byte) :
    (s.refFollow x d).kept = s.kept := by simp [State.refFollow]

@[simp] theorem State.refSlave_kept (off : BitVec 4) (d : List Byte) (age : Nat) :
    (s.refSlave off d age).kept = s.kept := by
  unfold State.refSlave
  extract_lets a x heard s1 low s2
  have h1 : s1.kept = s.kept := by simp [s1]
  clear_value s1
  split
  · simp [h1]
  · split
    · simp [s2, h1]
    · split
      · simp [h1]
      · split <;> simp [h1]

@[simp] theorem State.refTake_kept (off : BitVec 4) (f : CanFrame) (age : Nat) :
    (s.refTake off f age).kept = s.kept := by simp [State.refTake]

@[simp] theorem State.refMissed_kept : s.refMissed.kept = s.kept := by
  unfold State.refMissed
  split
  · rfl
  · extract_lets m s1
    have h1 : s1.kept = s.kept := s.modAlm_kept _
    split
    · exact h1
    · split
      · simp [h1]
      · split <;> simp [h1]

@[simp] theorem State.almLost_kept : s.almLost.kept = s.kept := by simp [State.almLost]

@[simp] theorem State.canReceive_kept (c : CanId) (f : CanFrame) (age : Nat) : (s.canReceive c f age).kept = s.kept := by
  unfold State.canReceive
  split
  · rfl
  · dsimp only
    split <;> simp

@[simp] theorem State.frameSteer_kept : s.frameSteer.kept = s.kept := by simp [State.frameSteer]
@[simp] theorem State.syncinEdge_kept : s.syncinEdge.kept = s.kept := by simp [State.syncinEdge]
@[simp] theorem State.syncinPin_kept (p : Pin) : (s.syncinPin p).kept = s.kept := by simp [State.syncinPin]
@[simp] theorem State.zeroCount_kept : s.zeroCount.kept = s.kept := by simp [State.zeroCount]
@[simp] theorem State.almCmd_kept (v : Word) : (s.almCmd v).kept = s.kept := by simp [State.almCmd]
@[simp] theorem State.syncout_kept : s.syncout.kept = s.kept := by simp [State.syncout]

@[simp] theorem State.almWrite_kept (r : Nat) (v : Word) : (s.almWrite r v).kept = s.kept := by
  unfold State.almWrite
  split <;> simp

/-! Machine/SerialPorts.lean. -/

@[simp] theorem State.modPort_kept (p : Fin 8) (f : SpPort → SpPort) :
    (s.modPort p f).kept = s.kept := by simp [State.modPort]

@[simp] theorem State.modSpSlot_kept (p k : Fin 8) (f : SpSlot → SpSlot) :
    (s.modSpSlot p k f).kept = s.kept := by simp [State.modSpSlot]

@[simp] theorem State.spDone_kept (n : AxisId) (j : EngId) : (s.spDone n j).kept = s.kept := by simp [State.spDone]
@[simp] theorem State.deposit_kept (a : Nat) (ws : List Word) : (s.deposit a ws).kept = s.kept := by simp [State.deposit]
@[simp] theorem State.schedTrigger_kept (p k : Fin 8) : (s.schedTrigger p k).kept = s.kept := by simp [State.schedTrigger]

@[simp] theorem State.portStart_kept (p : Fin 8) : (s.portStart p).kept = s.kept := by
  unfold State.portStart
  extract_lets x
  split
  · rfl
  · split
    · simp
    · split <;> simp

@[simp] theorem State.schedEnd_kept (p k : Fin 8) (x : SpSlot) (v : Nat) :
    (s.schedEnd p k x v).kept = s.kept := by simp [State.schedEnd]

@[simp] theorem State.portEnd_kept (p : Fin 8) (rx : List Bool) : (s.portEnd p rx).kept = s.kept := by
  unfold State.portEnd
  split
  · rfl
  · split
    · rfl
    · split <;> simp

@[simp] theorem State.portWrite_kept (p : Fin 8) (r : Nat) (v : Word) :
    (s.portWrite p r v).kept = s.kept := by simp [State.portWrite]

@[simp] theorem State.spsEnable_kept (v : Word) : (s.spsEnable v).kept = s.kept := by simp [State.spsEnable]
@[simp] theorem State.spsFall_kept : s.spsFall.kept = s.kept := by simp [State.spsFall]

@[simp] theorem State.spsRise_kept (words : List Word) (shortBits : Nat) (short : Word) (clocked : Nat) :
    (s.spsRise words shortBits short clocked).kept = s.kept := by simp [State.spsRise]

@[simp] theorem State.spsWrite_kept (r : Nat) (v : Word) : (s.spsWrite r v).kept = s.kept := by simp [State.spsWrite]
@[simp] theorem State.gpInput_kept (i : Fin 32) (p : Pin) : (s.gpInput i p).kept = s.kept := by simp [State.gpInput]
@[simp] theorem State.gpPut_kept (v : Word) : (s.gpPut v).kept = s.kept := by simp [State.gpPut]
@[simp] theorem State.gpConfig_kept (i : Fin 32) (v : Word) : (s.gpConfig i v).kept = s.kept := by simp [State.gpConfig]

@[simp] theorem State.gpWrite_kept (r : Nat) (v : Word) : (s.gpWrite r v).kept = s.kept := by
  unfold State.gpWrite
  split <;> simp

/-! Machine/Restart.lean. -/

@[simp] theorem State.resetModule_kept : s.resetModule.kept = s.kept := by simp [State.resetModule]
@[simp] theorem State.powerDown_kept (m : PwrMode) : (s.powerDown m).kept = s.kept := by simp [State.powerDown]
@[simp] theorem State.restart_kept (cause : Nat) : (s.restart cause).kept = s.kept := by simp [State.restart]
@[simp] theorem State.serviceEnd_kept : s.serviceEnd.kept = s.kept := by simp [State.serviceEnd]
@[simp] theorem State.holdSup_kept : s.holdSup.kept = s.kept := by simp [State.holdSup]
@[simp] theorem State.supFault_kept (src : Nat) : (s.supFault src).kept = s.kept := by simp [State.supFault]
@[simp] theorem State.mismatch_kept : s.mismatch.kept = s.kept := by simp [State.mismatch]
@[simp] theorem State.injSup_kept : s.injSup.kept = s.kept := by simp [State.injSup]
@[simp] theorem State.restartSup_kept : s.restartSup.kept = s.kept := by simp [State.restartSup]

/-! Machine/Faults.lean. -/

@[simp] theorem State.escNote_kept (k : Nat) : (s.escNote k).kept = s.kept := by simp [State.escNote]

@[simp] theorem State.noteOut_kept (sc : Scope) (c : Nat) (k : Nat) :
    (s.noteOut sc c k).kept = s.kept := by simp [State.noteOut]

@[simp] theorem State.react_kept (sc : Scope) (c : Nat) : (s.react sc c).kept = s.kept := by simp [State.react]
@[simp] theorem State.countFault_kept (k c : Nat) : (s.countFault k c).kept = s.kept := by simp [State.countFault]
@[simp] theorem State.mergeInto_kept (w : MergeWin) (k : Nat) : (s.mergeInto w k).kept = s.kept := by simp [State.mergeInto]

@[simp] theorem State.collect_kept (k : Nat) : (s.collect k).kept = s.kept := by
  unfold State.collect
  split
  · rfl
  · dsimp only
    split <;> simp

@[simp] theorem State.faultReaction_kept : s.faultReaction.kept = s.kept := by
  unfold State.faultReaction
  split <;> simp

@[simp] theorem State.clearScope_kept (sc : Scope) : (s.clearScope sc).kept = s.kept := by simp [State.clearScope]
@[simp] theorem State.coolBanks_kept : s.coolBanks.kept = s.kept := by simp [State.coolBanks]

@[simp] theorem State.clearFaults_kept (h : DescHdr) (l : List Scope) : (s.clearFaults h l).kept = s.kept := by
  unfold State.clearFaults
  dsimp only
  split <;> simp

@[simp] theorem State.onlineTest_kept (thimbleOk supEccOk : Bool) (axesBad : Dword) :
    (s.onlineTest thimbleOk supEccOk axesBad).kept = s.kept := by simp [State.onlineTest]

@[simp] theorem State.holdTest_kept (b : BankId) (pass : Bool) : (s.holdTest b pass).kept = s.kept := by simp [State.holdTest]
@[simp] theorem State.injWrite_kept (v : Word) : (s.injWrite v).kept = s.kept := by simp [State.injWrite]
@[simp] theorem State.gdrLock_kept (b : BankId) : (s.gdrLock b).kept = s.kept := by simp [State.gdrLock]
@[simp] theorem State.cmpLock_kept (n : AxisId) : (s.cmpLock n).kept = s.kept := by simp [State.cmpLock]
@[simp] theorem State.fltLock_kept : s.fltLock.kept = s.kept := by simp [State.fltLock]

/-! Machine/Security.lean. -/

@[simp] theorem State.burn_kept (w : Nat) (v : Word) : (s.burn w v).kept = s.kept := by simp [State.burn]

@[simp] theorem State.burnAll_kept (l : List (Nat × Word)) (fails : Option Nat) : (s.burnAll l fails).kept = s.kept := by
  induction l generalizing s with
  | nil => rfl
  | cons e l ih => simp [State.burnAll, ih]

@[simp] theorem State.otpProgram_kept (h : DescHdr) (l : List (Nat × Word)) (fails : Option Nat) :
    (s.otpProgram h l fails).kept = s.kept := by
  unfold State.otpProgram
  split
  · simp
  · dsimp only
    split <;> simp

@[simp] theorem State.otpLockSet_kept (v : Word) : (s.otpLockSet v).kept = s.kept := by simp [State.otpLockSet]
@[simp] theorem State.dropNonce_kept : s.dropNonce.kept = s.kept := by simp [State.dropNonce]

@[simp] theorem State.judgeToken_kept (forReturn : Bool) (t : List Byte) (sigOk : Bool) :
    (s.judgeToken forReturn t sigOk).2.kept = s.kept := by
  unfold State.judgeToken
  split <;> simp

@[simp] theorem State.openToken_kept (h : DescHdr) (t : List Byte) (sigOk : Bool) :
    (s.openToken h t sigOk).kept = s.kept := by
  have hj := s.judgeToken_kept false t sigOk
  unfold State.openToken
  split <;> simp_all

@[simp] theorem State.lcBurn_kept (h : DescHdr) (target : Nat) : (s.lcBurn h target).kept = s.kept := by
  unfold State.lcBurn
  extract_lets s1 s2
  have h2 : s2.kept = s.kept := (s1.modSec_kept _).trans (s.burnAll_kept _ _)
  clear_value s2
  simp [h2]

@[simp] theorem State.lcReturn_kept (h : DescHdr) (token : List Byte) (sigOk : Bool) :
    (s.lcReturn h token sigOk).kept = s.kept := by
  have hj := s.judgeToken_kept true token sigOk
  unfold State.lcReturn
  split <;> simp_all

@[simp] theorem State.burnOps_kept (l : List (Nat × Word)) (fails : Option Nat) : (s.burnOps l fails).1.kept = s.kept := by
  induction l generalizing s with
  | nil => rfl
  | cons e l ih =>
    rw [State.burnOps]
    split
    · rfl
    · split
      · simp
      · simp [ih]

/-! Machine/Image.lean. -/

@[simp] theorem State.modImgBank_kept (i : Fin 6) (f : ImgBank → ImgBank) :
    (s.modImgBank i f).kept = s.kept := by simp [State.modImgBank]

@[simp] theorem State.modTrial_kept (f : ImgBank → ImgBank) : (s.modTrial f).kept = s.kept := by simp [State.modTrial]
@[simp] theorem State.failTrial_kept (cause : BitVec 3) : (s.failTrial cause).kept = s.kept := by simp [State.failTrial]

@[simp] theorem State.setSession_kept (k : Fin 3) (x : Option Session) :
    (s.setSession k x).kept = s.kept := by simp [State.setSession]

@[simp] theorem State.openSession_kept (h : DescHdr) (k : Fin 3) (hdr : ImgHeader) :
    (s.openSession h k hdr).kept = s.kept := by simp [State.openSession]

@[simp] theorem State.dropSession_kept (k : Fin 3) (x : Session) :
    (s.dropSession k x).kept = s.kept := by simp [State.dropSession]

@[simp] theorem State.storeBlock_kept (h : DescHdr) (k : Fin 3) (x : Session) (i : Nat) (data : List Byte)
    (gcmOk readBackOk : Bool) : (s.storeBlock h k x i data gcmOk readBackOk).kept = s.kept := by simp [State.storeBlock]

@[simp] theorem State.endSession_kept (h : DescHdr) (k : Fin 3) (x : Session) (readOk : Bool) :
    (s.endSession h k x readOk).kept = s.kept := by
  unfold State.endSession
  split <;> simp

@[simp] theorem State.withSession_kept (h : DescHdr) (kind : BitVec 8) (f : Fin 3 → Session → State → State)
    (hf : ∀ k x u, (f k x u).kept = u.kept) : (s.withSession h kind f).kept = s.kept := by
  unfold State.withSession
  split
  · simp
  · split <;> simp [hf]

@[simp] theorem State.activateSet_kept (h : DescHdr) (kinds : BitVec 8) (t : ImgSet) :
    (s.activateSet h kinds t).kept = s.kept := by simp [State.activateSet]

@[simp] theorem State.modCopy_kept (i : Fin 2) (f : SetCopy → SetCopy) :
    (s.modCopy i f).kept = s.kept := by simp [State.modCopy]

@[simp] theorem State.confirmSet_kept : s.confirmSet.kept = s.kept := by simp [State.confirmSet]

@[simp] theorem State.applyKeyOps_kept (fails : Option Nat) : (s.applyKeyOps fails).1.kept = s.kept := by
  simp [State.applyKeyOps]

@[simp] theorem State.writeCopy_kept (i : Fin 2) (b : SettingsBlock) (seq : Word) :
    (s.writeCopy i b seq).kept = s.kept := by simp [State.writeCopy]

@[simp] theorem State.endPreserve_kept : s.endPreserve.kept = s.kept := by simp [State.endPreserve]

/-! Machine/Domains.lean. -/

@[simp] theorem State.fanFails_kept : s.fanFails.kept = s.kept := by simp [State.fanFails]
@[simp] theorem State.setPd_kept (k : Nat) (on : Bool) : (s.setPd k on).kept = s.kept := by simp [State.setPd]
@[simp] theorem State.axisCondsOff_kept (n : AxisId) : (s.axisCondsOff n).kept = s.kept := by simp [State.axisCondsOff]
@[simp] theorem State.axisDown_kept (n : AxisId) : (s.axisDown n).kept = s.kept := by simp [State.axisDown]
@[simp] theorem State.axisUp_kept (n : AxisId) : (s.axisUp n).kept = s.kept := by simp [State.axisUp]
@[simp] theorem State.setCkl_kept (b : BankId) (on : Bool) : (s.setCkl b on).kept = s.kept := by simp [State.setCkl]
@[simp] theorem State.bankDown_kept (b : BankId) : (s.bankDown b).kept = s.kept := by simp [State.bankDown]
@[simp] theorem State.bankUp_kept (b : BankId) : (s.bankUp b).kept = s.kept := by simp [State.bankUp]
@[simp] theorem State.canDown_kept : s.canDown.kept = s.kept := by simp [State.canDown]
@[simp] theorem State.telDown_kept : s.telDown.kept = s.kept := by simp [State.telDown]
@[simp] theorem State.domainDown_kept (k : Nat) : (s.domainDown k).kept = s.kept := by simp [State.domainDown]
@[simp] theorem State.domainUp_kept (k : Nat) : (s.domainUp k).kept = s.kept := by simp [State.domainUp]
@[simp] theorem State.domainStart_kept (k : Nat) : (s.domainStart k).kept = s.kept := by simp [State.domainStart]

@[simp] theorem State.nextDomain_kept : s.nextDomain.kept = s.kept := by
  unfold State.nextDomain
  split <;> simp

@[simp] theorem State.fillPlaces_kept : s.fillPlaces.kept = s.kept := by simp [State.fillPlaces]
@[simp] theorem State.gate_kept (k : Nat) : (s.gate k).kept = s.kept := by simp [State.gate]
@[simp] theorem State.dozeSettle_kept : s.dozeSettle.kept = s.kept := by simp [State.dozeSettle]
@[simp] theorem State.domainAsk_kept (k : Nat) : (s.domainAsk k).kept = s.kept := by simp [State.domainAsk]
@[simp] theorem State.rejectReq_kept : s.rejectReq.kept = s.kept := by simp [State.rejectReq]
@[simp] theorem State.pdApply_kept (which : Fin 3) (v : Word) : (s.pdApply which v).kept = s.kept := by simp [State.pdApply]
@[simp] theorem State.pdWrite_kept (which : Fin 3) (v : Word) : (s.pdWrite which v).kept = s.kept := by simp [State.pdWrite]
@[simp] theorem State.leaveDoze_kept : s.leaveDoze.kept = s.kept := by simp [State.leaveDoze]

@[simp] theorem State.judge_kept (req : Nat) : (s.judge req).kept = s.kept := by
  unfold State.judge
  split <;> simp

@[simp] theorem State.pwrReq_kept (req : Nat) : (s.pwrReq req).kept = s.kept := by simp [State.pwrReq]
@[simp] theorem State.judgeDeferred_kept : s.judgeDeferred.kept = s.kept := by simp [State.judgeDeferred]
@[simp] theorem State.enterDoze_kept : s.enterDoze.kept = s.kept := by simp [State.enterDoze]
@[simp] theorem State.wake_kept (src : BitVec 7) : (s.wake src).kept = s.kept := by simp [State.wake]
@[simp] theorem State.spAbort_kept : s.spAbort.kept = s.kept := by simp [State.spAbort]
@[simp] theorem State.enterSleep_kept : s.enterSleep.kept = s.kept := by simp [State.enterSleep]

@[simp] theorem State.wakeSrc_kept (k : Nat) (enabled : Bool) : (s.wakeSrc k enabled).kept = s.kept := by
  unfold State.wakeSrc
  split
  · rfl
  · split <;> simp

/-! Machine/Power.lean. -/

@[simp] theorem State.newVins_kept : s.newVins.kept = s.kept := by simp [State.newVins]
@[simp] theorem State.powerOnResets_kept : s.powerOnResets.kept = s.kept := by simp [State.powerOnResets]
@[simp] theorem State.powerOn_kept (selfTestOk : Bool) : (s.powerOn selfTestOk).kept = s.kept := by simp [State.powerOn]
@[simp] theorem State.undervolt_kept : s.undervolt.kept = s.kept := by simp [State.undervolt]
@[simp] theorem State.stopModule_kept : s.stopModule.kept = s.kept := by simp [State.stopModule]
@[simp] theorem State.refclk_kept (on : Bool) : (s.refclk on).kept = s.kept := by simp [State.refclk]

@[simp] theorem State.setClock_kept (c : ClockSrc) (on : Bool) : (s.setClock c on).kept = s.kept := by
  unfold State.setClock
  split <;> simp

@[simp] theorem State.cutClock_kept : s.cutClock.kept = s.kept := by simp [State.cutClock]

/-! Machine/Boot.lean. -/

@[simp] theorem State.bringUpFlash_kept (inp : BootIn) : (s.bringUpFlash inp).kept = s.kept := by simp [State.bringUpFlash]
@[simp] theorem State.defineRegions_kept : s.defineRegions.kept = s.kept := by simp [State.defineRegions]
@[simp] theorem State.burnMarkers_kept (ok : Bool) : (s.burnMarkers ok).kept = s.kept := by simp [State.burnMarkers]
@[simp] theorem State.bootOtp_kept (inp : BootIn) : (s.bootOtp inp).kept = s.kept := by simp [State.bootOtp]

@[simp] theorem State.showChecks_kept (inp : BootIn) (checked : List ImgSet) (trial : Bool) :
    (s.showChecks inp checked trial).kept = s.kept := by simp [State.showChecks]

@[simp] theorem State.runThe_kept (t : ImgSet) (trial : Bool) : (s.runThe t trial).kept = s.kept := by simp [State.runThe]
@[simp] theorem State.service_kept : s.service.kept = s.kept := by simp [State.service]

@[simp] theorem State.selectConfirmed_kept (inp : BootIn) (before : List ImgSet) :
    (s.selectConfirmed inp before).kept = s.kept := by
  unfold State.selectConfirmed
  dsimp only
  split <;> simp

@[simp] theorem State.selectSet_kept (inp : BootIn) : (s.selectSet inp).kept = s.kept := by
  unfold State.selectSet
  split
  · simp
  · split
    · simp
    · dsimp only
      split <;> simp

@[simp] theorem State.railsUp_kept (refclk : Bool) : (s.railsUp refclk).kept = s.kept := by simp [State.railsUp]
@[simp] theorem State.bootRom_kept (inp : BootIn) : (s.bootRom inp).kept = s.kept := by simp [State.bootRom]

@[simp] theorem State.settingsShow_kept (flags : BitVec 8) (copy : BitVec 2) (seq : Word) (inUse : List Byte) :
    (s.settingsShow flags copy seq inUse).kept = s.kept := by simp [State.settingsShow]

@[simp] theorem State.defaults_kept (flags : BitVec 8) : (s.defaults flags).kept = s.kept := by simp [State.defaults]

@[simp] theorem State.applyCopy_kept (i : Fin 2) (b : SettingsBlock) (inp : ReadyIn) :
    (s.applyCopy i b inp).kept = s.kept := by simp [State.applyCopy]

@[simp] theorem State.applySettings_kept (inp : ReadyIn) : (s.applySettings inp).kept = s.kept := by
  unfold State.applySettings
  dsimp only
  split
  · split <;> simp
  · simp

@[simp] theorem State.applyClasses_kept : s.applyClasses.kept = s.kept := by simp [State.applyClasses]
@[simp] theorem State.domainsOn_kept : s.domainsOn.kept = s.kept := by simp [State.domainsOn]
@[simp] theorem State.applyLocks_kept (inp : ReadyIn) : (s.applyLocks inp).kept = s.kept := by simp [State.applyLocks]
@[simp] theorem State.bootKeyOps_kept : s.bootKeyOps.kept = s.kept := by simp [State.bootKeyOps]
@[simp] theorem State.supReady_kept (inp : ReadyIn) : (s.supReady inp).kept = s.kept := by simp [State.supReady]

/-! Machine/Debug.lean. -/

@[simp] theorem State.tapFail_kept : s.tapFail.kept = s.kept := by simp [State.tapFail]
@[simp] theorem State.tapServe_kept (v : Word) : (s.tapServe v).kept = s.kept := by simp [State.tapServe]

/-! Machine/Access.lean. -/

@[simp] theorem State.latchHi_kept (r : Fin 3) (o : Nat) : (s.latchHi r o).kept = s.kept := by simp [State.latchHi]
@[simp] theorem State.readReg_kept (r : Requester) (o : Nat) : (s.readReg r o).kept = s.kept := by simp [State.readReg]

@[simp] theorem State.jtag_kept (t : DbgTarget) : (s.jtag t).kept = s.kept := by
  unfold State.jtag
  split
  · rfl
  · split
    · simp
    · simp
    · split
      · simp
      · dsimp only
        split <;> simp

@[simp] theorem State.pwmWrite_kept (n : AxisId) (r : Nat) (v : Word) :
    (s.pwmWrite n r v).kept = s.kept := by simp [State.pwmWrite]

@[simp] theorem State.sendDown_kept (b : BankId) (t off : Nat) (v : Word) :
    (s.sendDown b t off v).kept = s.kept := by simp [State.sendDown]

@[simp] theorem State.gdrWrite_kept (n : AxisId) (r : Nat) (v : Word) : (s.gdrWrite n r v).kept = s.kept := by
  unfold State.gdrWrite
  split
  · rfl
  · split <;> simp

@[simp] theorem State.snsWrite_kept (n : AxisId) (r : Nat) (v : Word) : (s.snsWrite n r v).kept = s.kept := by
  unfold State.snsWrite
  split <;> simp

@[simp] theorem State.bankWrite_kept (b : BankId) (r : Nat) (v : Word) : (s.bankWrite b r v).kept = s.kept := by
  unfold State.bankWrite
  split <;> simp

@[simp] theorem State.fbkWrite_kept (n : AxisId) (r : Nat) (v : Word) : (s.fbkWrite n r v).kept = s.kept := by
  unfold State.fbkWrite
  dsimp only
  split
  · simp
  · split <;> simp

@[simp] theorem State.cluWrite_kept (n : AxisId) (r : Nat) (v : Word) : (s.cluWrite n r v).kept = s.kept := by
  unfold State.cluWrite
  split <;> simp

@[simp] theorem State.axisWrite_kept (n : AxisId) (r : Nat) (v : Word) :
    (s.axisWrite n r v).kept = s.kept := by simp [State.axisWrite]

@[simp] theorem State.stateWrite_kept (v : Word) : (s.stateWrite v).kept = s.kept := by simp [State.stateWrite]
@[simp] theorem State.govLvlWrite_kept (v : Word) : (s.govLvlWrite v).kept = s.kept := by simp [State.govLvlWrite]

@[simp] theorem State.pwrWrite_kept (o : Nat) (v : Word) : (s.pwrWrite o v).kept = s.kept := by
  unfold State.pwrWrite
  split <;> simp

@[simp] theorem State.fltWrite_kept (o : Nat) (v : Word) : (s.fltWrite o v).kept = s.kept := by
  unfold State.fltWrite
  split <;> simp

@[simp] theorem State.msixWrite_kept (k : Nat) (v : Word) : (s.msixWrite k v).kept = s.kept := by simp [State.msixWrite]

@[simp] theorem State.sqWrite_kept (q : Fin 64) (r : Nat) (v : Word) : (s.sqWrite q r v).kept = s.kept := by
  unfold State.sqWrite
  split <;> simp

@[simp] theorem State.cqWrite_kept (c : Fin 16) (r : Nat) (v : Word) : (s.cqWrite c r v).kept = s.kept := by
  unfold State.cqWrite
  split <;> simp

@[simp] theorem State.hstWrite_kept (o : Nat) (v : Word) : (s.hstWrite o v).kept = s.kept := by simp [State.hstWrite]
@[simp] theorem State.telWrite_kept (o : Nat) (v : Word) : (s.telWrite o v).kept = s.kept := by simp [State.telWrite]

@[simp] theorem State.ledgerWrite_kept (o : Nat) (v : Word) : (s.ledgerWrite o v).kept = s.kept := by
  unfold State.ledgerWrite
  split <;> simp

@[simp] theorem State.sysWrite_kept (o : Nat) (v : Word) : (s.sysWrite o v).kept = s.kept := by simp [State.sysWrite]

@[simp] theorem State.regWrite_kept (o : Nat) (v : Word) : (s.regWrite o v).kept = s.kept := by
  unfold State.regWrite
  dsimp only
  split
  · rfl
  · split <;> simp

/-! The dispatcher. -/

/-- Every arm answers one next state, and what it answers is made by the operations above. -/
theorem exec_kept (c : Instr) : ∃ t, exec c s = .next t ∧ t.kept = s.kept := by
  cases c with
  | patternWrite h len data => exact ⟨_, rfl, s.decodeNow_kept _ _ _ _ _ fun u => by split <;> simp⟩
  | patternRead h axis kind which addr maxLen =>
    refine ⟨_, rfl, s.decodeNow_kept _ _ _ _ _ fun u => ?_⟩
    split
    · split
      · simp
      · dsimp only
        split <;> simp
    · rfl
  | coordRoleSet h axis => exact ⟨_, rfl, s.decodeNow_kept _ _ _ _ _ fun u => by split <;> simp⟩
  | coordRoleClear h axis => exact ⟨_, rfl, s.decodeNow_kept _ _ _ _ _ fun u => by split <;> simp⟩
  | lensMap h axis len table => exact ⟨_, rfl, s.decodeNow_kept _ _ _ _ _ fun u => by split <;> simp⟩
  | engineLoad h axis engine budget imgLen imgCrc image =>
    exact ⟨_, rfl, s.decodeNow_kept _ _ _ _ _ fun u => by split <;> simp⟩
  | engineStop h axis engine => exact ⟨_, rfl, s.decodeNow_kept _ _ _ _ _ fun u => by split <;> simp⟩
  | seamArm h handle point armFlags refAxis at_ deferStep =>
    exact ⟨_, rfl, s.decodeNow_kept _ _ _ _ _ fun u => by split <;> simp⟩
  | axisProfile h axis record crc bytes => exact ⟨_, rfl, s.decodeNow_kept _ _ _ _ _ fun u => by split <;> simp⟩
  | segmentPush h axis seg => exact ⟨_, rfl, s.decodeNow_kept _ _ _ _ _ fun u => by split <;> simp⟩
  | imageBegin h kind hdrLen hdrCrc data sigOk =>
    exact ⟨_, rfl, s.decodeNow_kept _ _ _ _ _ fun u => by split <;> simp⟩
  | imageBlock h kind index len data gcmOk readBackOk =>
    refine ⟨_, rfl, s.decodeNow_kept _ _ _ _ _ fun u => ?_⟩
    split
    · rfl
    · split <;> simp
  | imageActivate h kinds sigOk readOk => exact ⟨_, rfl, s.decodeNow_kept _ _ _ _ _ fun u => by split <;> simp⟩
  | imageConfirm h burnFails =>
    refine ⟨_, rfl, s.decodeNow_kept _ _ _ _ _ fun u => ?_⟩
    dsimp only
    split <;> simp
  | settingsRead h which addr maxLen => exact ⟨_, rfl, s.decodeNow_kept _ _ _ _ _ fun u => by split <;> simp⟩
  | b n j cond imm => exact ⟨_, rfl, s.issue_kept _ _ _ _ fun u => by split <;> simp⟩
  | csrr n j d csr => exact ⟨_, rfl, s.issue_kept _ _ _ _ fun u => by split <;> simp⟩
  | fabricLoadReturn n j => exact ⟨_, rfl, by split <;> simp⟩
  | almReferenceReceived f age =>
    refine ⟨_, rfl, ?_⟩
    split
    · rfl
    · split <;> simp
  | powerStateEntryComplete => exact ⟨_, rfl, by split <;> simp⟩
  | _ => exact ⟨_, rfl, by simp⟩

/-- Settles O5: a command writes neither the queue nor the variant, since no operation of the module does. -/
theorem commandKeepsQueueAndVariant : Obligations.CommandKeepsQueueAndVariant := by
  intro c s
  obtain ⟨t, ht, hk⟩ := exec_kept s c
  obtain ⟨hq, hv⟩ := Prod.mk.inj hk
  exact ⟨t, ht, hq, hv⟩

end Sys2Proof.Machine
end

section
/-! The layout of the frames: one that crosses the lanes without bit errors passes its CRC and is received as it was sent
(03 R73, R74). The halves of a frame are read off by the appends that make it. -/

namespace Sys2Proof.Machine

theorem part_eq_extractLsb' (w : BitVec 128) (lo k : Nat) : part w lo k = w.extractLsb' lo k :=
  BitVec.setWidth_ushiftRight_eq_extractLsb

theorem getLsbD_flag (b : Bool) : (flag b).getLsbD 0 = b := by cases b <;> rfl

/-- A flag that stands right above `low`. -/
theorem getLsbD_append_flag {v w : Nat} (high : BitVec v) (b : Bool) (low : BitVec w) :
    (high ++ flag b ++ low).getLsbD w = b := by
  rw [BitVec.getLsbD_append, if_neg (Nat.lt_irrefl w), Nat.sub_self, BitVec.getLsbD_append, if_pos Nat.one_pos, getLsbD_flag]

/-- Where the fields of the half that SAMPLE and INTEGRAL frames share stand in it. -/
theorem LaneFrame.upper_fields (f : LaneFrame) (type : BitVec 2) :
    (f.upper type).extractLsb' 0 24 = f.vs.a ∧ (f.upper type).extractLsb' 24 24 = f.vs.b ∧
    (f.upper type).extractLsb' 48 24 = f.vs.c ∧ (f.upper type).getLsbD 72 = f.sat ∧ (f.upper type).getLsbD 73 = f.boundary ∧
    (f.upper type).getLsbD 74 = f.cal ∧ (f.upper type).getLsbD 75 = f.vsOvf ∧ (f.upper type).extractLsb' 76 2 = type := by
  unfold LaneFrame.upper
  refine ⟨BitVec.extractLsb'_append_eq_right, ?_, ?_, ?_, ?_, ?_, ?_, ?_⟩
  · rw [BitVec.extractLsb'_append_eq_of_le (by decide)]
    exact BitVec.extractLsb'_append_eq_right
  · iterate 2 rw [BitVec.extractLsb'_append_eq_of_le (by decide)]
    exact BitVec.extractLsb'_append_eq_right
  · iterate 2 rw [BitVec.getLsbD_append, if_neg (by decide)]
    exact getLsbD_append_flag _ f.sat f.vs.c
  · iterate 3 rw [BitVec.getLsbD_append, if_neg (by decide)]
    exact getLsbD_append_flag _ f.boundary (flag f.sat)
  · iterate 4 rw [BitVec.getLsbD_append, if_neg (by decide)]
    exact getLsbD_append_flag _ f.cal (flag f.boundary)
  · iterate 5 rw [BitVec.getLsbD_append, if_neg (by decide)]
    exact getLsbD_append_flag type f.vsOvf (flag f.cal)
  · iterate 7 rw [BitVec.extractLsb'_append_eq_of_le (by decide)]
    exact BitVec.extractLsb'_eq_self

/-- Where the halves and the currents of a SAMPLE frame stand in it. -/
theorem LaneFrame.sampleBits_fields (f : LaneFrame) :
    part f.sampleBits 42 78 = f.upper 0#2 ∧
    part f.sampleBits 0 14 = f.i.a ∧ part f.sampleBits 14 14 = f.i.b ∧ part f.sampleBits 28 14 = f.i.c := by
  simp only [part_eq_extractLsb', LaneFrame.sampleBits]
  iterate 4 rw [BitVec.extractLsb'_append_eq_of_add_le (xhi := crc8 _) (by decide)]
  refine ⟨?_, BitVec.extractLsb'_append_eq_right, ?_, ?_⟩
  · iterate 3 rw [BitVec.extractLsb'_append_eq_of_le (by decide)]
    exact BitVec.extractLsb'_eq_self
  · rw [BitVec.extractLsb'_append_eq_of_le (by decide)]
    exact BitVec.extractLsb'_append_eq_right
  · iterate 2 rw [BitVec.extractLsb'_append_eq_of_le (by decide)]
    exact BitVec.extractLsb'_append_eq_right

/-- Where the halves and the voltages of an INTEGRAL frame stand in it. -/
theorem LaneFrame.integralBits_fields (f : LaneFrame) :
    part f.integralBits 42 78 = f.upper 1#2 ∧
    part f.integralBits 0 12 = f.vph.a ∧ part f.integralBits 12 12 = f.vph.b ∧ part f.integralBits 24 12 = f.vph.c := by
  simp only [part_eq_extractLsb', LaneFrame.integralBits]
  iterate 4 rw [BitVec.extractLsb'_append_eq_of_add_le (xhi := crc8 _) (by decide)]
  refine ⟨?_, BitVec.extractLsb'_append_eq_right, ?_, ?_⟩
  · iterate 4 rw [BitVec.extractLsb'_append_eq_of_le (by decide)]
    exact BitVec.extractLsb'_eq_self
  · rw [BitVec.extractLsb'_append_eq_of_le (by decide)]
    exact BitVec.extractLsb'_append_eq_right
  · iterate 2 rw [BitVec.extractLsb'_append_eq_of_le (by decide)]
    exact BitVec.extractLsb'_append_eq_right

/-- A field of the shared half, read in the whole frame. -/
theorem part_of_upper {w : BitVec 128} {u : BitVec 78} (h : part w 42 78 = u) (i k : Nat) (hi : i + k ≤ 78) :
    part w (42 + i) k = u.extractLsb' i k := by
  refine BitVec.eq_of_getLsbD_eq fun j hj => ?_
  simp [← h, part_eq_extractLsb', hj, Nat.lt_of_lt_of_le (Nat.add_lt_add_left hj i) hi, Nat.add_assoc]

theorem getLsbD_of_upper {w : BitVec 128} {u : BitVec 78} (h : part w 42 78 = u) (i : Nat) (hi : i < 78) :
    w.getLsbD (42 + i) = u.getLsbD i := by
  rw [← h, part_eq_extractLsb', BitVec.getLsbD_extractLsb', decide_eq_true hi, Bool.true_and]

/-- A frame whose shared half came as it was sent is taken as it was sent. -/
theorem LaneFrame.take_of_upper {f : LaneFrame} {type : BitVec 2} {w : BitVec 128} (h : part w 42 78 = f.upper type) :
    f.take w = f := by
  obtain ⟨ha, hb, hc, hsat, hbnd, hcal, hovf, -⟩ := f.upper_fields type
  rw [LaneFrame.take, (part_of_upper h 0 24 (by decide)).trans ha, (part_of_upper h 24 24 (by decide)).trans hb,
    (part_of_upper h 48 24 (by decide)).trans hc, (getLsbD_of_upper h 72 (by decide)).trans hsat,
    (getLsbD_of_upper h 73 (by decide)).trans hbnd, (getLsbD_of_upper h 74 (by decide)).trans hcal,
    (getLsbD_of_upper h 75 (by decide)).trans hovf]

/-- A frame with its own CRC and the type of its place passes. -/
theorem LaneFrame.frameOk_of_upper {f : LaneFrame} {type : BitVec 2} {p : BitVec 120}
    (h : part (crc8 p ++ p) 42 78 = f.upper type) : frameOk (crc8 p ++ p) type = true := by
  obtain ⟨-, -, -, -, -, -, -, htype⟩ := f.upper_fields type
  have hc : part (crc8 p ++ p) 120 8 = crc8 p := by rw [part_eq_extractLsb', BitVec.extractLsb'_append_eq_left]
  have hp : (crc8 p ++ p).setWidth 120 = p := by
    rw [BitVec.setWidth_eq_extractLsb' (by decide), BitVec.extractLsb'_append_eq_right]
  have ht : part (crc8 p ++ p) 118 2 = type := (part_of_upper h 76 2 (by decide)).trans htype
  simp only [frameOk, hp, hc, ht, decide_true, Bool.and_self]

theorem LaneFrame.frameOk_sampleBits (f : LaneFrame) : frameOk f.sampleBits 0#2 = true :=
  LaneFrame.frameOk_of_upper f.sampleBits_fields.1

theorem LaneFrame.frameOk_integralBits (f : LaneFrame) : frameOk f.integralBits 1#2 = true :=
  LaneFrame.frameOk_of_upper f.integralBits_fields.1

theorem LaneFrame.takeSample_sampleBits (f : LaneFrame) : f.takeSample f.sampleBits = f := by
  obtain ⟨hu, ha, hb, hc⟩ := f.sampleBits_fields
  rw [LaneFrame.takeSample, LaneFrame.take_of_upper hu, ha, hb, hc]

theorem LaneFrame.takeIntegral_integralBits (f : LaneFrame) : f.takeIntegral f.integralBits = f := by
  obtain ⟨hu, ha, hb, hc⟩ := f.integralBits_fields
  rw [LaneFrame.takeIntegral, LaneFrame.take_of_upper hu, ha, hb, hc]

end Sys2Proof.Machine
end

section
/-! The operations that the sensing of an axis shares: what the lanes start, what an update of one axis writes, and what a
frame that passes or fails leaves (03 R72, R75; 15 R422). -/

namespace Sys2Proof.Machine

variable (s : State) (n : AxisId)

/-! The lanes write the frames that wait and the time they are free. -/

theorem Sns.startOne_frame (q : Sns) (t : Nat) : ∃ frames free sent wait,
    q.startOne t = { q with laneI := frames, laneEnd := free, statusSent := sent, statusWait := wait } := by
  unfold Sns.startOne
  split
  · dsimp only
    split <;> exact ⟨_, _, _, _, rfl⟩
  · split
    · dsimp only
      split <;> exact ⟨_, _, _, _, rfl⟩
    · exact ⟨_, _, _, _, rfl⟩

/-- What depends on neither of these, the lanes keep. -/
theorem Sns.lanes_keeps {α : Type} (p : Sns → α) (q : Sns) (t : Nat)
    (hp : ∀ (q : Sns) frames free sent wait,
      p { q with laneI := frames, laneEnd := free, statusSent := sent, statusWait := wait } = p q) : p (q.lanes t) = p q := by
  have hone (q : Sns) : p (q.startOne t) = p q := by
    obtain ⟨frames, free, sent, wait, h⟩ := q.startOne_frame t
    rw [h, hp]
  rw [Sns.lanes, hone, hone, hone]

section
variable (q : Sns) (t : Nat)

@[simp] theorem Sns.lanes_conv : (q.lanes t).conv = q.conv := q.lanes_keeps Sns.conv t fun _ _ _ _ _ => rfl
@[simp] theorem Sns.lanes_calRun : (q.lanes t).calRun = q.calRun := q.lanes_keeps Sns.calRun t fun _ _ _ _ _ => rfl
@[simp] theorem Sns.lanes_drops : (q.lanes t).drops = q.drops := q.lanes_keeps Sns.drops t fun _ _ _ _ _ => rfl
@[simp] theorem Sns.lanes_vs : (q.lanes t).vs = q.vs := q.lanes_keeps Sns.vs t fun _ _ _ _ _ => rfl
@[simp] theorem Sns.lanes_laneS : (q.lanes t).laneS = q.laneS := q.lanes_keeps Sns.laneS t fun _ _ _ _ _ => rfl
@[simp] theorem Sns.lanes_crcCnt : (q.lanes t).crcCnt = q.crcCnt := q.lanes_keeps Sns.crcCnt t fun _ _ _ _ _ => rfl
@[simp] theorem Sns.lanes_overrun (r u : Nat) : (q.lanes t).overrun r u = q.overrun r u :=
  q.lanes_keeps (fun q => q.overrun r u) t fun _ _ _ _ _ => rfl
end

/-! One axis after its update. -/

@[simp] theorem State.modSns_axis (f : Sns → Sns) :
    (s.modSns n f).axis n = { s.axis n with sns := f (s.axis n).sns } := s.axis_modAx_self n _
@[simp] theorem State.modGdr_axis (f : Gdr → Gdr) :
    (s.modGdr n f).axis n = { s.axis n with gdr := f (s.axis n).gdr } := s.axis_modAx_self n _
@[simp] theorem State.modCh_axis (f : Chain → Chain) :
    (s.modCh n f).axis n = { s.axis n with ch := f (s.axis n).ch } := s.axis_modAx_self n _
@[simp] theorem State.modClu_axis (f : Clu → Clu) :
    (s.modClu n f).axis n = { s.axis n with clu := f (s.axis n).clu } := s.axis_modAx_self n _
@[simp] theorem State.modBank_axis (b : BankId) (f : Bank → Bank) : (s.modBank b f).axis n = s.axis n := rfl
@[simp] theorem State.modFlt_axis (f : Flt → Flt) : (s.modFlt f).axis n = s.axis n := rfl
@[simp] theorem State.modFlt_bnk (b : BankId) (f : Flt → Flt) : (s.modFlt f).bnk b = s.bnk b := rfl
@[simp] theorem State.modSns_bnk (b : BankId) (f : Sns → Sns) : (s.modSns n f).bnk b = s.bnk b := rfl
@[simp] theorem State.setE_bnk (m : AxisId) (j k : Nat) (v : Word) (b : BankId) : (s.setE m j k v).bnk b = s.bnk b := rfl
@[simp] theorem State.setE_axis (m : AxisId) (j k : Nat) (v : Word) : (s.setE m j k v).axis n = s.axis n := rfl

/-- Two updates of the sensing are one. -/
@[simp] theorem State.modSns_modSns (f g : Sns → Sns) : (s.modSns n f).modSns n g = s.modSns n fun q => g (f q) :=
  s.modAx_modAx n _ _

/-! Everything but one axis. -/

variable {s n}

theorem SameButAxis.trans {t u : State} (h : SameButAxis n s t) (k : SameButAxis n t u) : SameButAxis n s u := by
  unfold SameButAxis at *
  rw [k, h]
  simp

theorem SameButAxis.modAx (f : Axis → Axis) : SameButAxis n s (s.modAx n f) := by
  simp [SameButAxis, State.modAx]

theorem SameButAxis.modSns (f : Sns → Sns) : SameButAxis n s (s.modSns n f) := SameButAxis.modAx _
theorem SameButAxis.modGdr (f : Gdr → Gdr) : SameButAxis n s (s.modGdr n f) := SameButAxis.modAx _
theorem SameButAxis.modCh (f : Chain → Chain) : SameButAxis n s (s.modCh n f) := SameButAxis.modAx _

/-- A command that updates the sensing of one axis. -/
theorem answers_modSns (c : Instr) {t : State} {f : Sns → Sns} (hc : exec c s = .next t) (ht : t = s.modSns n f) :
    answers (exec c s) fun t => t.ax[n].sns = f s.ax[n].sns ∧ SameButAxis n s t :=
  ⟨_, hc.trans (congrArg Host.Outcome.next ht), congrArg Axis.sns (s.modSns_axis n f), SameButAxis.modSns f⟩

/-! What an engine's public words depend on. -/

theorem State.openStopped_congr {t : State} (hv : t.variant = s.variant) (hc : (t.axis n).clu = (s.axis n).clu) (j : EngId) :
    t.openStopped n j = s.openStopped n j := by
  unfold State.openStopped State.isOpen State.eng
  rw [hv, hc]

variable (s n)

/-! Reading a signal word after a write. -/

@[simp] theorem State.modCh_e (f : Chain → Chain) (m : AxisId) (j k : Nat) : (s.modCh n f).e m j k = s.e m j k := by
  rw [State.e, State.modCh_sig, State.e]

theorem State.e_setE_self (h : Mem.wf zeroAt s.sig = true) (j k : Nat) (v : Word) : (s.setE n j k v).e n j k = v :=
  Mem.get_set_self zeroAt s.sig _ v h

theorem State.e_setE_other (j k l : Nat) (v : Word) (h : l ≠ k) : (s.setE n j k v).e n j l = s.e n j l :=
  Mem.get_set_other zeroAt s.sig _ _ v (by simpa [sigAddr] using h)

theorem State.rd_setE_other (j k : Nat) (v : Word) (a : Nat) (h : a ≠ sigAddr n j k) : (s.setE n j k v).sig.rd a = s.sig.rd a :=
  Mem.get_set_other zeroAt s.sig _ _ v h

/-! A condition source. -/

/-- A condition source writes the collector alone. -/
theorem State.raiseCond_frame (src : Nat) (on : Bool) : ∃ flt, s.raiseCond src on = s.modFlt fun _ => flt := by
  unfold State.raiseCond
  split
  · split <;> exact ⟨_, rfl⟩
  · exact ⟨_, rfl⟩

/-! A frame that fails: the axis counts it, and its bank notes when. -/

theorem State.badFrame_frame : ∃ fails flt,
    s.badFrame n = ((s.modSns n fun q => { q with crcCnt := satInc q.crcCnt }).modBank n.bank fun k =>
      { k with crcFails := fails, linkAt := s.cref }).modFlt fun _ => flt := by
  unfold State.badFrame
  extract_lets b s1 fails s2
  split
  · obtain ⟨flt, h⟩ := s2.raiseCond_frame (bankSrc b 6) true
    exact ⟨fails, flt, h⟩
  · exact ⟨fails, _, rfl⟩

@[simp] theorem State.badFrame_axis :
    (s.badFrame n).axis n = { s.axis n with sns := { (s.axis n).sns with crcCnt := satInc (s.axis n).sns.crcCnt } } := by
  obtain ⟨fails, flt, h⟩ := s.badFrame_frame n
  rw [h]
  simp

@[simp] theorem State.badFrame_sig : (s.badFrame n).sig = s.sig := by
  obtain ⟨fails, flt, h⟩ := s.badFrame_frame n
  rw [h]
  rfl

@[simp] theorem State.badFrame_vinAvg : ((s.badFrame n).bnk n.bank).vinAvg = (s.bnk n.bank).vinAvg := by
  obtain ⟨fails, flt, h⟩ := s.badFrame_frame n
  rw [h, State.modFlt_bnk, State.bnk_modBank_self]
  rfl

/-! A frame that passes: its axis is heard, and after a silence of the bank the time without error runs from it. -/

theorem State.goodFrame_frame (ovf : Bool) : ∃ flt,
    s.goodFrame n ovf = ((if s.linkSilent n.bank then s.modBank n.bank fun k => { k with linkAt := s.cref } else s).modSns n
      fun q => { q with frameAt := s.cref, sticky := q.sticky ||| bitAt 21 ovf }).modFlt fun _ => flt := by
  unfold State.goodFrame
  cases s.linkSilent n.bank <;> (extract_lets s1 s2; split <;> exact ⟨_, rfl⟩)

section
variable (ovf : Bool)

@[simp] theorem State.goodFrame_axis : (s.goodFrame n ovf).axis n = { s.axis n with
    sns := { (s.axis n).sns with frameAt := s.cref, sticky := (s.axis n).sns.sticky ||| bitAt 21 ovf } } := by
  obtain ⟨flt, h⟩ := s.goodFrame_frame n ovf
  rw [h]
  cases s.linkSilent n.bank <;> simp

@[simp] theorem State.goodFrame_sig : (s.goodFrame n ovf).sig = s.sig := by
  obtain ⟨flt, h⟩ := s.goodFrame_frame n ovf
  rw [h]
  cases s.linkSilent n.bank <;> rfl

@[simp] theorem State.goodFrame_pwr : (s.goodFrame n ovf).pwr = s.pwr := by
  obtain ⟨flt, h⟩ := s.goodFrame_frame n ovf
  rw [h]
  cases s.linkSilent n.bank <;> rfl

theorem State.goodFrame_bank_heard (h : s.linkSilent n.bank = false) : (s.goodFrame n ovf).bank = s.bank := by
  obtain ⟨flt, hf⟩ := s.goodFrame_frame n ovf
  rw [hf, h]
  rfl

theorem State.goodFrame_linkAt (h : s.linkSilent n.bank = true) : ((s.goodFrame n ovf).bnk n.bank).linkAt = s.cref := by
  obtain ⟨flt, hf⟩ := s.goodFrame_frame n ovf
  rw [hf, h, State.modFlt_bnk, State.modSns_bnk, if_pos rfl, State.bnk_modBank_self]

@[simp] theorem State.goodFrame_variant : (s.goodFrame n ovf).variant = s.variant :=
  congrArg Prod.snd (s.goodFrame_kept n ovf)
end

/-- Whether a bank is silent depends on when its axes' frames came. -/
theorem State.linkSilent_modSns (b : BankId) (f : Sns → Sns) (hf : ∀ q, (f q).frameAt = q.frameAt) :
    (s.modSns n f).linkSilent b = s.linkSilent b := by
  have hax (m : AxisId) : ((s.modSns n f).axis m).sns.frameAt = (s.axis m).sns.frameAt := by
    by_cases h : m = n
    · subst h
      rw [State.modSns_axis, hf]
    · exact congrArg (fun a => a.sns.frameAt) (s.axis_modAx_other n m _ h)
  simp only [State.linkSilent, hax]
  rfl

/-! A boundary leaves the record, oldest first. -/

theorem State.matchBoundary_eq :
    s.matchBoundary n = ((s.axis n).sns.record.head?, s.modSns n fun q => { q with record := q.record.tail }) := by
  have htail : (s.modSns n fun q => { q with record := q.record.tail }) =
      s.modAx n fun a => { a with sns := { a.sns with record := (s.axis n).sns.record.tail } } := rfl
  unfold State.matchBoundary
  rw [htail]
  cases h : (s.axis n).sns.record with
  | nil =>
    have hid : (s.modAx n fun a => { a with sns := { a.sns with record := [] } }) = s := by
      rw [← h]
      exact s.modAx_id n
    rw [List.tail_nil, hid]
    rfl
  | cons b l => rfl

end Sys2Proof.Machine
end

section
/-! Sample pulses, conversions and STATUS frames on the driver die, and the record of boundaries (03 R66, R67, R70 to R75, R544):
each command as one update of its axis. -/

namespace Sys2Proof.Machine

variable {s : State} {n : AxisId} {w : Nat} {vs vph : Tri}

/-! SAMPLE_PULSE by its width. -/

/-- A closing of the integrators makes no hold come sooner. -/
theorem Sns.overrun_closed (q : Sns) (vs : Tri) (v : Tri3 12) (r t : Nat) :
    Sns.overrun { q.close vs with vphIn := v } r t = q.overrun r t := rfl

theorem State.samplePulse_short (hs : s.senses n = true) (hw : w < 25) : s.samplePulse n w vs vph = s.modSns n fun q =>
    ({ (q.lanes s.cref).close vs with vphIn := codes12 vph }.sendIntegral s.cref).lanes s.cref := by
  simp [State.samplePulse, hs, show w ≤ 50 by omega, show ¬ 25 ≤ w by omega]

theorem State.samplePulse_both (hs : s.senses n = true) (hl : 25 ≤ w) (hu : w ≤ 50)
    (ho : (s.axis n).sns.overrun (s.cref - w * 2 / 5) s.cref = false) : s.samplePulse n w vs vph = s.modSns n fun q =>
    { (q.lanes s.cref).close vs with
      vphIn := codes12 vph, holdAt := some s.cref, conv := some { at_ := s.cref, boundary := true, cal := q.calRun } } := by
  simp only [State.samplePulse, hs, hl, hu, decide_true, Bool.not_true, Bool.false_eq_true, reduceIte, State.modSns_modSns,
    State.modSns_axis, State.modSns_cref, Sns.overrun_closed, Sns.lanes_overrun, ho, Bool.not_false, Bool.and_self]
  simp [Sns.close]

theorem State.samplePulse_long (hs : s.senses n = true) (hw : 50 < w)
    (ho : (s.axis n).sns.overrun (s.cref - w * 2 / 5) s.cref = false) : s.samplePulse n w vs vph = s.modSns n fun q =>
    { q.lanes s.cref with holdAt := some s.cref, conv := some { at_ := s.cref, boundary := false, cal := q.calRun } } := by
  simp [State.samplePulse, hs, show ¬ w ≤ 50 by omega, show 25 ≤ w by omega, ho]

theorem State.samplePulse_overrun (hs : s.senses n = true) (hw : 50 < w)
    (ho : (s.axis n).sns.overrun (s.cref - w * 2 / 5) s.cref = true) : s.samplePulse n w vs vph = s.modSns n fun q =>
    { q.lanes s.cref with drops := q.drops + 1 } := by
  simp [State.samplePulse, hs, show ¬ w ≤ 50 by omega, show 25 ≤ w by omega, ho]

/-! CONVERSION_COMPLETE and STATUS_FRAME_DUE. -/

/-- The conversion of a sample pulse starts its SAMPLE frame where the lanes are free. -/
theorem State.convDone_sampled {c : Conv} (codes : Tri) (hs : s.senses n = true) (hc : (s.axis n).sns.conv = some c)
    (hcal : c.cal = false) (ht : c.at_ + 72 ≤ s.cref) : s.convDone n codes = s.modSns n fun q =>
    let start := Nat.max ((s.axis n).sns.lanes s.cref).laneEnd s.cref
    { q.lanes s.cref with
      conv := none, laneS := q.laneS ++ [(q.lanes s.cref).sampleOf c codes start], laneEnd := start + 13 } := by
  simp [State.convDone, hs, hc, hcal, Nat.not_lt.mpr ht]

theorem State.statusDue_eq {d : Nat} (m : StatusMeas) (hs : s.senses n = true) (hd : (s.axis n).sns.gridAt s.cref = some d) :
    s.statusDue n m = (s.modGdr n fun g => { g with
      bstEw := m.bstEw, gates := g.gates.mapFinIdx fun i x _ => { x with high := m.gateHi.getLsbD i } }).modSns n fun q =>
        { q.lanes s.cref with statusAt := some d, statusWait := some (s.statusOf n m, d) }.lanes s.cref := by
  simp [State.statusDue, hs, hd]

/-! BOUNDARY_MISSING. -/

theorem State.boundaryMissing_late {b : Boundary} {rest : List Boundary} (hr : (s.axis n).sns.record = b :: rest)
    (ht : b.at_ + 400 ≤ s.cref) (he : s.enginesRun = true) : s.boundaryMissing n =
      (s.modSns n fun q => { q with record := q.record.tail }).modCh n fun c =>
        { c with halves := c.halves ++ [b.half {} true] } := by
  simp [State.boundaryMissing, State.matchBoundary_eq, hr, Nat.not_lt.mpr ht, he]

end Sys2Proof.Machine
end

section
/-! What forcing the gates of axes leaves: the signal words, the banks, GDR_LIVE and the sensing but for the comparators that
are active. The regen hard reaction, which a STATUS frame can set off, does no more to them (07 R214). -/

namespace Sys2Proof.Machine

variable (s : State) (n : AxisId)

/-- What the control die shows of a STATUS frame of axis n. -/
def State.shows (s : State) (n : AxisId) : Mem 32 × Vector Bank 8 × Word × Sns :=
  (s.sig, s.bank, (s.axis n).gdr.live, { (s.axis n).sns with cmpActive := 0#3 })

theorem State.modAx_shows (m : AxisId) (f : Axis → Axis) (hlive : ∀ a, (f a).gdr.live = a.gdr.live)
    (hsns : ∀ a, { (f a).sns with cmpActive := 0#3 } = { a.sns with cmpActive := 0#3 }) : (s.modAx m f).shows n = s.shows n := by
  unfold State.shows
  rw [State.axis_modAx]
  split
  · next h => rw [h, hlive, hsns]; rfl
  · rfl

@[simp] theorem State.modPh_shows (m : AxisId) (p : Fin 3) (f : PwmPhase → PwmPhase) : (s.modPh m p f).shows n = s.shows n :=
  s.modAx_shows n m _ (fun _ => rfl) fun _ => rfl

@[simp] theorem State.modPwm_shows (m : AxisId) (f : Pwm → Pwm) : (s.modPwm m f).shows n = s.shows n :=
  s.modAx_shows n m _ (fun _ => rfl) fun _ => rfl

@[simp] theorem State.modCh_shows (m : AxisId) (f : Chain → Chain) : (s.modCh m f).shows n = s.shows n :=
  s.modAx_shows n m _ (fun _ => rfl) fun _ => rfl

@[simp] theorem State.modGate_shows (m : AxisId) (g : Fin 6) (f : GateSt → GateSt) : (s.modGate m g f).shows n = s.shows n :=
  s.modAx_shows n m _ (fun _ => rfl) fun _ => rfl

@[simp] theorem State.modGov_shows (f : Gov → Gov) : (s.modGov f).shows n = s.shows n := rfl

theorem State.modSns_shows (m : AxisId) (f : Sns → Sns)
    (hf : ∀ q, { f q with cmpActive := 0#3 } = { q with cmpActive := 0#3 }) : (s.modSns m f).shows n = s.shows n :=
  s.modAx_shows n m _ (fun _ => rfl) fun a => hf a.sns

theorem State.foldl_shows {α : Type} (f : State → α → State) (l : List α) (hf : ∀ u a, (f u a).shows n = u.shows n) :
    (l.foldl f s).shows n = s.shows n := by
  induction l generalizing s with
  | nil => rfl
  | cons a l ih => rw [List.foldl_cons, ih, hf]

theorem State.gateFall_shows (m : AxisId) (g : Fin 6) : (s.gateFall m g).shows n = s.shows n := by
  unfold State.gateFall
  dsimp only
  rw [State.modPh_shows]
  split
  · exact s.modGate_shows n m g _
  · rw [State.modSns_shows, State.modGate_shows]
    exact fun _ => rfl

theorem State.lowDue_shows (m : AxisId) (p : Fin 3) : (s.lowDue m p).shows n = s.shows n := by
  unfold State.lowDue
  dsimp only
  split
  · rfl
  · simp

theorem State.forceGates_shows (m : AxisId) : (s.forceGates m).shows n = s.shows n := by
  unfold State.forceGates
  split
  · rfl
  · exact s.foldl_shows n _ _ fun u g => u.gateFall_shows n m g
  · dsimp only
    rw [State.foldl_shows _ n _ _ fun u p => u.lowDue_shows n m p, s.foldl_shows n _ _ fun u g => u.gateFall_shows n m g]

theorem State.regenHard_shows (b : BankId) : (s.regenHard b).shows n = s.shows n := by
  unfold State.regenHard
  split
  · rfl
  · dsimp only
    exact State.foldl_shows _ n _ _ fun u m => (State.forceGates_shows _ n m).trans (u.modCh_shows n m _)

theorem State.fanEval_shows : s.fanEval.shows n = s.shows n := by
  unfold State.fanEval
  iterate 3 (split; · rfl)
  rfl

end Sys2Proof.Machine
end

section
/-! The frames that the control die takes (03 R73 to R75, R544). -/

namespace Sys2Proof.Machine

variable {s : State} {n : AxisId} {f : LaneFrame} {rest : List LaneFrame}

/-! SAMPLE_FRAME. -/

/-- What is taken of the windows changes nothing else. -/
theorem Sns.takeWin_frame (q : Sns) (t : Nat) : ∃ wins, (q.takeWin t).2.2 = { q with wins := wins } := by
  unfold Sns.takeWin
  split <;> exact ⟨_, rfl⟩

/-- A SAMPLE frame leaves the lanes when the control die looks at it. -/
def State.laneSTaken (s : State) (n : AxisId) (f : LaneFrame) (rest : List LaneFrame) : State :=
  s.modSns n fun q => { (q.takeWin f.at_).2.2 with laneS := rest }

/-- The sensing of an axis whose SAMPLE frame has left the lanes: the windows and the frames that follow. -/
theorem State.laneSTaken_axis (s : State) (n : AxisId) (f : LaneFrame) (rest : List LaneFrame) : ∃ wins,
    (s.laneSTaken n f rest).axis n = { s.axis n with sns := { (s.axis n).sns with wins := wins, laneS := rest } } := by
  obtain ⟨wins, h⟩ := (s.axis n).sns.takeWin_frame f.at_
  exact ⟨wins, by rw [State.laneSTaken, State.modSns_axis, h]⟩

@[simp] theorem State.laneSTaken_sig (s : State) (n : AxisId) (f : LaneFrame) (rest : List LaneFrame) :
    (s.laneSTaken n f rest).sig = s.sig := rfl

theorem State.laneSTaken_linkSilent (s : State) (n : AxisId) (f : LaneFrame) (rest : List LaneFrame) (b : BankId) :
    (s.laneSTaken n f rest).linkSilent b = s.linkSilent b := by
  refine s.linkSilent_modSns n b _ fun q => ?_
  obtain ⟨wins, h⟩ := q.takeWin_frame f.at_
  rw [h]

/-- The sensing with a SAMPLE frame's values; the boundary that the frame closes, where it closes one, has left the record. -/
def Sns.sampled (q : Sns) (f : LaneFrame) : Sns := { q with
  cur := f.i, sampleCnt := q.sampleCnt + 1#16, sticky := q.sticky ||| bitAt 22 f.sat
  record := if f.boundary then q.record.tail else q.record }

/-- A frame that fails its CRC leaves the lanes and counts. -/
theorem State.sampleFrame_failed (err : BitVec 128) (hs : s.senses n = true) (hl : (s.axis n).sns.laneS = f :: rest)
    (ha : f.arrived s.cref = true) (hi : s.injected 3 n.val = false) (hc : frameOk (f.sampleBits ^^^ err) 0#2 = false) :
    s.sampleFrame n err = (s.laneSTaken n (f.takeSample (f.sampleBits ^^^ err)) rest).badFrame n := by
  unfold State.sampleFrame
  simp only [hs, hl, ha, hc, Bool.not_true, Bool.false_eq_true, reduceIte, Bool.not_false]
  exact if_neg (Bool.eq_false_iff.mp hi)

theorem State.matchBoundary_sampled (u : State) (n : AxisId) (f : LaneFrame) (b : Bool) (hb : b = f.boundary) :
    let v := u.modSns n fun q => { q with cur := f.i, sampleCnt := q.sampleCnt + 1#16, sticky := q.sticky ||| bitAt 22 f.sat }
    (if b then v.matchBoundary n else (none, v)).2 = u.modSns n fun q => q.sampled f := by
  subst hb
  cases h : f.boundary with
  | true => simp [State.matchBoundary_eq, Sns.sampled, h]
  | false => simp [Sns.sampled, h]

/-- What a SAMPLE frame leaves that passes: all but the queue of E0. -/
def State.sampleTaken (s : State) (n : AxisId) (f : LaneFrame) (rest : List LaneFrame) : State :=
  ((s.laneSTaken n f rest).goodFrame n f.vsOvf).modSns n fun q => q.sampled f

theorem State.sampleTaken_axis (s : State) (n : AxisId) (f : LaneFrame) (rest : List LaneFrame) : ∃ q : Sns,
    (s.sampleTaken n f rest).axis n = { s.axis n with sns := q } ∧
    q.laneS = rest ∧ q.cur = f.i ∧ q.sampleCnt = (s.axis n).sns.sampleCnt + 1#16 := by
  obtain ⟨wins, h⟩ := s.laneSTaken_axis n f rest
  exact ⟨_, by rw [State.sampleTaken, State.modSns_axis, State.goodFrame_axis, h], rfl, rfl, rfl⟩

theorem State.sampleTaken_sig (s : State) (n : AxisId) (f : LaneFrame) (rest : List LaneFrame) :
    (s.sampleTaken n f rest).sig = s.sig := by simp [State.sampleTaken]

theorem State.sampleTaken_bank (s : State) (n : AxisId) (f : LaneFrame) (rest : List LaneFrame)
    (h : s.linkSilent n.bank = false) : (s.sampleTaken n f rest).bank = s.bank :=
  (s.laneSTaken n f rest).goodFrame_bank_heard n f.vsOvf ((s.laneSTaken_linkSilent n f rest _).trans h)

theorem State.sampleTaken_linkAt (s : State) (n : AxisId) (f : LaneFrame) (rest : List LaneFrame)
    (h : s.linkSilent n.bank = true) : ((s.sampleTaken n f rest).bnk n.bank).linkAt = s.cref :=
  (s.laneSTaken n f rest).goodFrame_linkAt n f.vsOvf ((s.laneSTaken_linkSilent n f rest _).trans h)

/-- A frame without bit errors is queued for E0, which takes frames. -/
theorem State.sampleFrame_queued (hs : s.senses n = true) (hl : (s.axis n).sns.laneS = f :: rest)
    (ha : f.arrived s.cref = true) (hi : s.injected 3 n.val = false) (hr : (s.axis n).clu.recovering = false)
    (ho : s.openStopped n 0 = false) (he : s.enginesRun = true) (hf : (s.axis n).clu.frames.length < 16) :
    ∃ x : SampleIn, x.frame = f ∧ s.sampleFrame n 0#128 =
      (s.sampleTaken n f rest).modClu n fun c => { c with frames := c.frames ++ [x] } := by
  unfold State.sampleFrame
  rw [if_neg (by simp [hs]), hl]
  dsimp -zeta only
  rw [if_neg (by simp [ha])]
  extract_lets word crcOk g win s1 s2 s3 m s4 c
  have hword : word = f.sampleBits := BitVec.xor_zero
  have hcrc : crcOk = true := (congrArg (frameOk · 0#2) hword).trans f.frameOk_sampleBits
  have hg : g = f := (congrArg f.takeSample hword).trans f.takeSample_sampleBits
  have h4 : s4 = s.sampleTaken n f rest := by
    have hs4 : s4 = s.sampleTaken n g rest := State.matchBoundary_sampled s2 n g _ rfl
    rw [hs4, hg]
  obtain ⟨q, haxis, -⟩ := s.sampleTaken_axis n f rest
  have hinj : s1.injected 3 n.val = false := hi
  have hclu : c = (s.axis n).clu := by unfold c; rw [h4, haxis]
  have hopen : s4.openStopped n 0 = false := by
    rw [h4, State.openStopped_congr (s := s) (by simp [State.sampleTaken, State.laneSTaken]) (by rw [haxis]), ho]
  have hrun : s4.enginesRun = true := by
    rw [← he, h4]
    simp [State.enginesRun, State.sampleTaken, State.laneSTaken]
  refine ⟨{ frame := g, win := win.1, fb := win.2.1.getD (s4.axis n).fbk.words, closing := m.1 }, hg, ?_⟩
  rw [if_neg (by simp [hinj]), if_neg (by simp [hcrc]), if_neg (by simp [hclu, hr, hopen, hrun]),
    if_neg (by rw [hclu]; omega), h4]

/-! INTEGRAL_FRAME. -/

/-- What an INTEGRAL frame leaves that passes: all but the signal words and the half period that it closes. -/
def State.integralTaken (s : State) (n : AxisId) (f : LaneFrame) (rest : List LaneFrame) : State :=
  ((s.modSns n fun q => { q.lanes s.cref with laneI := rest }).goodFrame n f.vsOvf).modSns n fun q =>
    { q with record := q.record.tail, vph := f.vph }

theorem State.integralTaken_axis (s : State) (n : AxisId) (f : LaneFrame) (rest : List LaneFrame) : ∃ q : Sns,
    (s.integralTaken n f rest).axis n = { s.axis n with sns := q } ∧ q.laneI = rest ∧ q.vph = f.vph :=
  ⟨_, by rw [State.integralTaken, State.modSns_axis, State.goodFrame_axis, State.modSns_axis], rfl, rfl⟩

@[simp] theorem State.integralTaken_sig (s : State) (n : AxisId) (f : LaneFrame) (rest : List LaneFrame) :
    (s.integralTaken n f rest).sig = s.sig := by simp [State.integralTaken]

/-- The sensing words that an INTEGRAL frame brings, beside the flags of its closing (03 R74, 06 R195). -/
def State.integralWords (s : State) (n : AxisId) (f : LaneFrame) (flags : Word) : State :=
  (((((s.setE n 0 20 (vsWord f.vs.a)).setE n 0 21 (vsWord f.vs.b)).setE n 0 22 (vsWord f.vs.c)).setE n 0 23 flags).setE
    n 0 30 (fieldAt 16 f.vph.b.toNat ||| f.vph.a.setWidth 32)).setE n 0 31 (f.vph.c.setWidth 32)

@[simp] theorem State.integralWords_axis (s : State) (n m : AxisId) (f : LaneFrame) (flags : Word) :
    (s.integralWords n f flags).axis m = s.axis m := by simp only [State.integralWords, State.setE_axis]

/-- The words hold the integrals, and only words from E0.20 to E0.31 are written. -/
theorem State.integralWords_e (s : State) (n : AxisId) (f : LaneFrame) (flags : Word) (h : Mem.wf zeroAt s.sig = true) :
    (s.integralWords n f flags).e n 0 20 = vsWord f.vs.a ∧ (s.integralWords n f flags).e n 0 21 = vsWord f.vs.b ∧
    (s.integralWords n f flags).e n 0 22 = vsWord f.vs.c ∧
    ∀ a, (a < sigAddr n 0 20 ∨ sigAddr n 0 31 < a) → (s.integralWords n f flags).sig.rd a = s.sig.rd a := by
  unfold State.integralWords
  refine ⟨?_, ?_, ?_, fun a ha => ?_⟩
  · iterate 5 rw [State.e_setE_other _ _ _ _ _ _ (by decide)]
    exact s.e_setE_self n h 0 20 _
  · iterate 4 rw [State.e_setE_other _ _ _ _ _ _ (by decide)]
    exact State.e_setE_self _ n (Mem.wf_wr _ _ _ h) 0 21 _
  · iterate 3 rw [State.e_setE_other _ _ _ _ _ _ (by decide)]
    exact State.e_setE_self _ n (Mem.wf_wr _ _ _ (Mem.wf_wr _ _ _ h)) 0 22 _
  · have hk (k : Nat) (hl : 20 ≤ k) (hu : k ≤ 31) : a ≠ sigAddr n 0 k := by
      unfold sigAddr at *
      omega
    iterate 6 rw [State.rd_setE_other _ _ _ _ _ _ (hk _ (by decide) (by decide))]

/-- A frame without bit errors writes its words, and the half period that it closes is kept where a vendor chain runs. -/
theorem State.integralFrame_passed (hs : s.senses n = true) (hl : ((s.axis n).sns.lanes s.cref).laneI = f :: rest)
    (ha : f.arrived s.cref = true) (hr : (s.axis n).clu.recovering = false) (ho : s.openStopped n 0 = false) :
    ∃ flags half, s.integralFrame n 0#128 = ((s.integralTaken n f rest).integralWords n f flags).modCh n half := by
  unfold State.integralFrame
  rw [if_neg (by simp [hs]), hl]
  dsimp -zeta only
  rw [if_neg (by simp [ha])]
  extract_lets s1 word crcOk g s2 m s3 s4 b s5 s6
  have hword : word = f.integralBits := BitVec.xor_zero
  have hcrc : crcOk = true := (congrArg (frameOk · 1#2) hword).trans f.frameOk_integralBits
  have hg : g = f := (congrArg f.takeIntegral hword).trans f.takeIntegral_integralBits
  have h3 : s3 = s.integralTaken n f rest := by
    rw [← hg]
    simp [s3, m, s2, s1, State.matchBoundary_eq, State.integralTaken]
  have h6 : s6 = (s.integralTaken n f rest).integralWords n f (closingWord b.peak b.pcount g.vsOvf true) := by
    rw [← h3]
    exact congrArg (s3.integralWords n · _) hg
  obtain ⟨q, haxis, -⟩ := s.integralTaken_axis n f rest
  have hopen : s3.openStopped n 0 = false := by
    rw [h3, State.openStopped_congr (s := s) (by simp [State.integralTaken]) (by rw [haxis]), ho]
  rw [if_neg (by simp [hcrc]), if_neg (by rw [h3, haxis, ← h3]; simp [hr, hopen]), h6]
  split
  · exact ⟨_, id, (State.modAx_id _ n).symm⟩
  · exact ⟨_, _, rfl⟩

end Sys2Proof.Machine
end

section
/-! STATUS frames (03 R75, R91), and what sample pulses, conversions and frames bring. -/

namespace Sys2Proof.Machine

variable {s : State} {n : AxisId} {r : StatusRec} {e : Nat}

theorem State.statusFrame_failed (hs : s.senses n = true) (hq : ((s.axis n).sns.lanes s.cref).statusSent = some (r, e))
    (he : e ≤ s.cref) :
    s.statusFrame n false = (s.modSns n fun q => { q.lanes s.cref with statusSent := none }).badFrame n := by
  simp [State.statusFrame, hs, hq, Nat.not_lt.mpr he]

/-- The registers that a STATUS frame brings. -/
def State.statusTaken (s : State) (n : AxisId) (r : StatusRec) : State :=
  (((((s.modSns n fun q => { q.lanes s.cref with statusSent := none }).goodFrame n false).modGdr n fun d =>
    { d with live := r.live }).modSns n fun q =>
    { q with vph := r.vph, ofs := r.ofs, ofsBad := r.ofsBad, calShow := r.calRun, dropsSeen := r.drops
             sticky := q.sticky ||| bitAt 23 (q.dropsSeen ≠ r.drops) }).modBank n.bank fun k =>
    { k with vinRaw := r.vinRaw, vinAvg := r.vinAvg, temps := r.temps, vdrvLevel := r.vdrv })

theorem State.statusTaken_axis (s : State) (n : AxisId) (r : StatusRec) : ∃ q : Sns,
    (s.statusTaken n r).axis n = { s.axis n with gdr := { (s.axis n).gdr with live := r.live }, sns := q } ∧
    q.statusSent = none ∧ q.vph = r.vph ∧ q.ofs = r.ofs ∧ q.ofsBad = r.ofsBad :=
  ⟨_, by rw [State.statusTaken, State.modBank_axis, State.modSns_axis, State.modGdr_axis, State.goodFrame_axis,
    State.modSns_axis], rfl, rfl, rfl, rfl⟩

theorem State.statusTaken_bnk (s : State) (n : AxisId) (r : StatusRec) : ∃ k : Bank, (s.statusTaken n r).bnk n.bank = k ∧
    k.vinRaw = r.vinRaw ∧ k.vinAvg = r.vinAvg ∧ k.temps = r.temps ∧ k.vdrvLevel = r.vdrv :=
  ⟨_, State.bnk_modBank_self _ n.bank _, rfl, rfl, rfl, rfl⟩

@[simp] theorem State.statusTaken_sig (s : State) (n : AxisId) (r : StatusRec) : (s.statusTaken n r).sig = s.sig := by
  simp [State.statusTaken]

/-- The signal words after a STATUS frame: those of an axis in recovery or of a stopped engine stay as they are. -/
def State.statusPublished (s : State) (n : AxisId) (r : StatusRec) : State :=
  if (s.axis n).clu.recovering || s.openStopped n 0 then s.statusTaken n r else (s.statusTaken n r).statusWords n

@[simp] theorem State.statusWords_axis (s : State) (n m : AxisId) : (s.statusWords n).axis m = s.axis m := by
  simp only [State.statusWords, State.setE_axis]
@[simp] theorem State.statusWords_bnk (s : State) (n : AxisId) (b : BankId) : (s.statusWords n).bnk b = s.bnk b := by
  simp only [State.statusWords, State.setE_bnk]

theorem State.statusWords_e (s : State) (n : AxisId) (h : Mem.wf zeroAt s.sig = true) :
    (s.statusWords n).e n 0 31 = (s.axis n).sns.vph.c.setWidth 32 ∧
    (s.statusWords n).e n 0 33 = fieldAt 16 (s.bnk n.bank).vinAvg.toNat ||| (s.bnk n.bank).vinRaw.setWidth 32 := by
  unfold State.statusWords
  constructor
  · iterate 2 rw [State.e_setE_other _ _ _ _ _ _ (by decide)]
    exact State.e_setE_self _ n (Mem.wf_wr _ _ _ h) 0 31 _
  · exact State.e_setE_self _ n (Mem.wf_wr _ _ _ (Mem.wf_wr _ _ _ (Mem.wf_wr _ _ _ h))) 0 33 _

/-- What follows a STATUS frame's values, the regen hard reaction included, leaves what they show. -/
theorem State.statusFrame_shows (hs : s.senses n = true) (hq : ((s.axis n).sns.lanes s.cref).statusSent = some (r, e))
    (he : e ≤ s.cref) : (s.statusFrame n true).shows n = (s.statusPublished n r).shows n := by
  have hcond : (((s.statusTaken n r).axis n).clu.recovering || (s.statusTaken n r).openStopped n 0) =
      ((s.axis n).clu.recovering || s.openStopped n 0) := by
    obtain ⟨q, haxis, -⟩ := s.statusTaken_axis n r
    rw [State.openStopped_congr (s := s) (by simp [State.statusTaken]) (by rw [haxis]), haxis]
  unfold State.statusFrame
  rw [if_neg (by simp [hs]), hq]
  dsimp -zeta only
  rw [if_neg (Nat.not_lt.mpr he)]
  extract_lets s1 s2 s3 s4 s5 s6 s7 s8
  have h6 : s6 = s.statusPublished n r := by
    rw [State.statusPublished, ← hcond]
    rfl
  have h8 : s8.shows n = s7.shows n := by
    unfold s8
    split
    · exact s7.modPwm_shows n n _
    · rfl
  rw [if_neg (by decide), State.fanEval_shows, State.regenHard_shows, h8, ← h6]
  exact s6.modGov_shows n _

/-! The commands. -/

theorem State.getElem_ax (s : State) (n : AxisId) : s.ax[n] = s.axis n := rfl
theorem State.getElem_bank (s : State) (b : BankId) : s.bank[b] = s.bnk b := rfl

/-- The conversion of a sample pulse sends what it read. -/
theorem conversionComplete_answers {c : Conv} (codes : Tri) (hs : s.senses n = true) (hc : s.ax[n].sns.conv = some c)
    (hcal : c.cal = false) (ht : c.at_ + 72 ≤ s.cref) : answers (exec (.conversionComplete n codes) s) fun t =>
      t.ax[n].sns.conv = none ∧ (∃ f : LaneFrame, t.ax[n].sns.laneS = s.ax[n].sns.laneS ++ [f] ∧
        f.i = ⟨code14 codes.a, code14 codes.b, code14 codes.c⟩ ∧ f.vs = s.ax[n].sns.vs ∧ f.boundary = c.boundary ∧ f.at_ = c.at_ ∧
        f.ends = some (Nat.max (s.ax[n].sns.lanes s.cref).laneEnd s.cref + 13)) ∧ SameButAxis n s t := by
  obtain ⟨t, hexec, hsns, hsame⟩ :=
    answers_modSns (.conversionComplete n codes) rfl (State.convDone_sampled codes hs hc hcal ht)
  refine ⟨t, hexec, congrArg Sns.conv hsns, ⟨_, congrArg Sns.laneS hsns, rfl, ?_, rfl, rfl, rfl⟩, hsame⟩
  exact s.ax[n].sns.lanes_vs s.cref

theorem statusFrameDue_answers {d : Nat} (m : StatusMeas) (hs : s.senses n = true) (hd : s.ax[n].sns.gridAt s.cref = some d) :
    answers (exec (.statusFrameDue n m) s) fun t =>
      t.ax[n].sns =
        { s.ax[n].sns.lanes s.cref with statusAt := some d, statusWait := some (s.statusOf n m, d) }.lanes s.cref ∧
        t.ax[n].gdr.bstEw = m.bstEw ∧ SameButAxis n s t := by
  refine ⟨_, congrArg Host.Outcome.next (State.statusDue_eq m hs hd), ?_, ?_,
    (SameButAxis.modGdr _).trans (SameButAxis.modSns _)⟩
  · simp only [State.getElem_ax, State.modSns_axis, State.modGdr_axis]
  · simp only [State.getElem_ax, State.modSns_axis, State.modGdr_axis]

theorem sampleFrame_answers {f : LaneFrame} {rest : List LaneFrame} (hs : s.senses n = true) (hl : s.ax[n].sns.laneS = f :: rest)
    (ha : f.arrived s.cref = true) (hi : s.injected 3 n.val = false) (hr : s.ax[n].clu.recovering = false)
    (ho : s.openStopped n 0 = false) (he : s.enginesRun = true) (hf : s.ax[n].clu.frames.length < 16) :
    answers (exec (.sampleFrame n 0#128) s) fun t =>
      t.ax[n].sns.laneS = rest ∧ t.ax[n].sns.cur = f.i ∧ t.ax[n].sns.sampleCnt = s.ax[n].sns.sampleCnt + 1#16 ∧
      (∃ x : SampleIn, t.ax[n].clu.frames = s.ax[n].clu.frames ++ [x] ∧ x.frame = f) ∧ t.sig = s.sig ∧
      (s.linkSilent n.bank = false → t.bank = s.bank) ∧ (s.linkSilent n.bank = true → t.bank[n.bank].linkAt = s.cref) := by
  obtain ⟨x, hx, ht⟩ := State.sampleFrame_queued hs hl ha hi hr ho he hf
  obtain ⟨q, haxis, hlane, hcur, hcnt⟩ := s.sampleTaken_axis n f rest
  refine ⟨_, congrArg Host.Outcome.next ht, ?_⟩
  simp only [State.getElem_ax, State.modClu_axis, haxis]
  exact ⟨hlane, hcur, hcnt, ⟨x, rfl, hx⟩, s.sampleTaken_sig n f rest,
    s.sampleTaken_bank n f rest, s.sampleTaken_linkAt n f rest⟩

theorem sampleFrame_answers_failed {f : LaneFrame} {rest : List LaneFrame} (err : BitVec 128) (hs : s.senses n = true)
    (hl : s.ax[n].sns.laneS = f :: rest) (ha : f.arrived s.cref = true) (hi : s.injected 3 n.val = false)
    (hc : frameOk (f.sampleBits ^^^ err) 0#2 = false) : answers (exec (.sampleFrame n err) s) fun t =>
      t.ax[n].sns.laneS = rest ∧ t.ax[n].sns.crcCnt = satInc s.ax[n].sns.crcCnt ∧ t.ax[n].sns.cur = s.ax[n].sns.cur ∧
      t.ax[n].clu = s.ax[n].clu ∧ t.sig = s.sig := by
  obtain ⟨wins, haxis⟩ := s.laneSTaken_axis n (f.takeSample (f.sampleBits ^^^ err)) rest
  refine ⟨_, congrArg Host.Outcome.next (State.sampleFrame_failed err hs hl ha hi hc), ?_⟩
  simp only [State.getElem_ax, State.badFrame_axis, haxis, State.badFrame_sig, State.laneSTaken_sig, and_self]

theorem integralFrame_answers {f : LaneFrame} {rest : List LaneFrame} (hst : Stored s) (hs : s.senses n = true)
    (hl : (s.ax[n].sns.lanes s.cref).laneI = f :: rest) (ha : f.arrived s.cref = true) (hr : s.ax[n].clu.recovering = false)
    (ho : s.openStopped n 0 = false) : answers (exec (.integralFrame n 0#128) s) fun t =>
      t.ax[n].sns.laneI = rest ∧ t.ax[n].sns.vph = f.vph ∧
      t.e n 0 20 = vsWord f.vs.a ∧ t.e n 0 21 = vsWord f.vs.b ∧ t.e n 0 22 = vsWord f.vs.c ∧
      (∀ a, (a < sigAddr n 0 20 ∨ sigAddr n 0 31 < a) → t.sig.rd a = s.sig.rd a) := by
  obtain ⟨flags, half, ht⟩ := State.integralFrame_passed hs hl ha hr ho
  obtain ⟨q, haxis, hlane, hvph⟩ := s.integralTaken_axis n f rest
  obtain ⟨ha, hb, hc, hout⟩ := (s.integralTaken n f rest).integralWords_e n f flags
    (by rw [State.integralTaken_sig]; exact hst.sig)
  rw [← State.integralWords_axis _ n n f flags] at haxis
  rw [State.integralTaken_sig] at hout
  refine ⟨_, congrArg Host.Outcome.next ht, ?_⟩
  generalize (s.integralTaken n f rest).integralWords n f flags = u at *
  simp only [State.getElem_ax, State.modCh_axis, State.modCh_e, State.modCh_sig, haxis]
  exact ⟨hlane, hvph, ha, hb, hc, hout⟩

theorem statusFrame_answers (hst : Stored s) (hs : s.senses n = true) (hq : (s.ax[n].sns.lanes s.cref).statusSent = some (r, e))
    (he : e ≤ s.cref) : answers (exec (.statusFrame n true) s) fun t =>
      t.ax[n].sns.statusSent = none ∧ t.ax[n].sns.vph = r.vph ∧ t.ax[n].sns.ofs = r.ofs ∧ t.ax[n].sns.ofsBad = r.ofsBad ∧
      t.ax[n].gdr.live = r.live ∧ t.bank[n.bank].vinRaw = r.vinRaw ∧ t.bank[n.bank].vinAvg = r.vinAvg ∧
      t.bank[n.bank].temps = r.temps ∧ t.bank[n.bank].vdrvLevel = r.vdrv ∧
      (s.ax[n].clu.recovering = false → s.openStopped n 0 = false → t.e n 0 31 = r.vph.c.setWidth 32 ∧
        t.e n 0 33 = fieldAt 16 r.vinAvg.toNat ||| r.vinRaw.setWidth 32) := by
  refine ⟨_, rfl, ?_⟩
  obtain ⟨q, haxis, hsent, hvph, hofs, hbad⟩ := s.statusTaken_axis n r
  obtain ⟨k, hbnk, hraw, havg, htemps, hvdrv⟩ := s.statusTaken_bnk n r
  have hpub : (s.statusPublished n r).axis n = (s.statusTaken n r).axis n ∧
      (s.statusPublished n r).bnk n.bank = (s.statusTaken n r).bnk n.bank := by
    unfold State.statusPublished
    split
    · exact ⟨rfl, rfl⟩
    · exact ⟨State.statusWords_axis _ n n, State.statusWords_bnk _ n n.bank⟩
  obtain ⟨hsig, hrest⟩ := Prod.mk.inj (State.statusFrame_shows hs hq he)
  obtain ⟨hbank, hrest⟩ := Prod.mk.inj hrest
  obtain ⟨hlive, hsns⟩ := Prod.mk.inj hrest
  rw [hpub.1, haxis] at hlive hsns
  have hb : (s.statusFrame n true).bnk n.bank = k := (congrArg (·[n.bank]) hbank).trans (hpub.2.trans hbnk)
  simp only [State.getElem_ax, State.getElem_bank, hb]
  refine ⟨(congrArg Sns.statusSent hsns).trans hsent, (congrArg Sns.vph hsns).trans hvph, (congrArg Sns.ofs hsns).trans hofs,
    (congrArg Sns.ofsBad hsns).trans hbad, hlive, hraw, havg, htemps, hvdrv, fun hr ho => ?_⟩
  have hpublished : s.statusPublished n r = (s.statusTaken n r).statusWords n := if_neg (by simp [hr, ho])
  have hword (k : Nat) : (s.statusFrame n true).e n 0 k = ((s.statusTaken n r).statusWords n).e n 0 k := by
    rw [← hpublished, State.e, hsig, State.e]
  obtain ⟨h31, h33⟩ := (s.statusTaken n r).statusWords_e n (by rw [State.statusTaken_sig]; exact hst.sig)
  rw [hword, hword, h31, h33, haxis, hvph, hbnk, havg, hraw]
  exact ⟨rfl, rfl⟩

theorem statusFrame_answers_failed (hs : s.senses n = true) (hq : (s.ax[n].sns.lanes s.cref).statusSent = some (r, e))
    (he : e ≤ s.cref) : answers (exec (.statusFrame n false) s) fun t =>
      t.ax[n].sns.crcCnt = satInc s.ax[n].sns.crcCnt ∧ t.ax[n].gdr = s.ax[n].gdr ∧
      t.bank[n.bank].vinAvg = s.bank[n.bank].vinAvg := by
  refine ⟨_, congrArg Host.Outcome.next (State.statusFrame_failed hs hq he), ?_⟩
  simp only [State.getElem_ax, State.getElem_bank, State.badFrame_axis, State.badFrame_vinAvg, State.modSns_axis, State.modSns_bnk,
    Sns.lanes_crcCnt, and_self]

theorem boundaryMissing_answers {b : Boundary} {rest : List Boundary} (hr : s.ax[n].sns.record = b :: rest)
    (ht : b.at_ + 400 ≤ s.cref) (he : s.enginesRun = true) : answers (exec (.boundaryMissing n) s) fun t =>
      t.ax[n].sns.record = rest ∧
      (∃ h : Half, t.ax[n].ch.halves = s.ax[n].ch.halves ++ [h] ∧ h.bad = true ∧ h.peak = b.peak) ∧ SameButAxis n s t := by
  refine ⟨_, congrArg Host.Outcome.next (State.boundaryMissing_late hr ht he), ?_, ?_,
    (SameButAxis.modSns _).trans (SameButAxis.modCh _)⟩
  · simp only [State.getElem_ax, State.modCh_axis, State.modSns_axis]
    exact congrArg List.tail hr
  · simp only [State.getElem_ax, State.modCh_axis, State.modSns_axis]
    exact ⟨_, rfl, rfl, rfl⟩

/-- Settles O15: each command is the update of its axis that its width, its time or its frame calls for. -/
theorem samplesAndFramesBringTheirValues : Obligations.SamplesAndFramesBringTheirValues := by
  refine ⟨fun s n hs => ⟨?_, ?_, ?_, ?_, ?_, ?_⟩, fun s n hst hs => ⟨?_, ?_, ?_, ?_, ?_, ?_⟩⟩
  · exact fun w vs vph hw => answers_modSns (.samplePulse n w vs vph) rfl (State.samplePulse_short hs hw)
  · exact fun w vs vph hl hu ho => answers_modSns (.samplePulse n w vs vph) rfl (State.samplePulse_both hs hl hu ho)
  · exact fun w vs vph hw ho => answers_modSns (.samplePulse n w vs vph) rfl (State.samplePulse_long hs hw ho)
  · exact fun w vs vph hw ho => answers_modSns (.samplePulse n w vs vph) rfl (State.samplePulse_overrun hs hw ho)
  · exact fun c codes hc hcal ht => conversionComplete_answers codes hs hc hcal ht
  · exact fun m d hd => statusFrameDue_answers m hs hd
  · exact fun f rest hl ha hi hr ho he hf => sampleFrame_answers hs hl ha hi hr ho he hf
  · exact fun f rest err hl ha hi hc => sampleFrame_answers_failed err hs hl ha hi hc
  · exact fun f rest hl ha hr ho => integralFrame_answers hst hs hl ha hr ho
  · exact fun r e hq he => statusFrame_answers hst hs hq he
  · exact fun r e hq he => statusFrame_answers_failed hs hq he
  · exact fun b rest hr ht he => boundaryMissing_answers hr ht he
end Sys2Proof.Machine
end

section
/-! What a slow stage of the vendor chain stands on: the state and mode of its axis, the words MODE_REQ and i_d reference, and
what E12 forms that reference from (06 R164, R167, R191). Of the operations of the speed and the position step each has one law,
that it keeps this stance, or which part of it changes. -/

namespace Sys2Proof.Machine

/-- What the speed and the position step of an axis are judged by. -/
structure Stance where
  out : List Output
  st : AxState
  mode : AxMode
  reduced : Bool
  refuse : BitVec 8
  hold : Nat
  posDue : Bool
  sweep : Option Sweep
  /-- MODE_REQ, E12.18. -/
  request : Word
  /-- The d-axis reference, E5.0. -/
  dRef : Word
  /-- ID_MIN and the i_d reference as E12 reads them. -/
  idMin : Word
  idRef : Word

def State.stance (s : State) (n : AxisId) : Stance :=
  let c := (s.axis n).ch
  { out := s.out, st := c.st, mode := c.mode, reduced := c.reduced, refuse := c.refuse, hold := c.thisHold, posDue := c.posDue
    sweep := c.sweep, request := s.e n 12 18, dRef := s.e n 5 0, idMin := s.param n 12 65, idRef := s.refWordOf n 12 17 }

/-- What of the chain's record the stance holds, beside the last good values. -/
def Chain.stance (c : Chain) : AxState × AxMode × Bool × BitVec 8 × Nat × Bool × Option Sweep :=
  (c.st, c.mode, c.reduced, c.refuse, c.thisHold, c.posDue, c.sweep)

/-- The signal words that the stance holds or is formed from. -/
def stanceWords : List (Nat × Nat) := [(5, 0), (12, 17), (12, 18), (12, 65)]

/-- Word k of engine j is none of them. -/
def offStance (j k : Nat) : Bool := stanceWords.all fun e => 1024 * j + k != 1024 * e.1 + e.2

/-- The stance stands, and the signal words stay in their canonical form. -/
structure KeepsStance (n : AxisId) (s t : State) : Prop where
  stance : t.stance n = s.stance n
  wf : Mem.wf zeroAt s.sig = true → Mem.wf zeroAt t.sig = true

variable {s t u : State} {n : AxisId}

theorem KeepsStance.refl (s : State) : KeepsStance n s s := ⟨rfl, id⟩

theorem KeepsStance.trans (h : KeepsStance n s t) (k : KeepsStance n t u) : KeepsStance n s u :=
  ⟨k.stance.trans h.stance, fun w => k.wf (h.wf w)⟩

theorem KeepsStance.ite {c : Prop} {dec : Decidable c} (ht : KeepsStance n s t) (hu : KeepsStance n s u) :
    KeepsStance n s (if c then t else u) := by
  split
  · exact ht
  · exact hu

theorem KeepsStance.foldl {α : Type} (f : State → α → State) (l : List α)
    (hf : ∀ u, ∀ a ∈ l, KeepsStance n u (f u a)) (s : State) : KeepsStance n s (l.foldl f s) := by
  induction l generalizing s with
  | nil => exact KeepsStance.refl s
  | cons a l ih =>
    exact (hf s a List.mem_cons_self).trans (ih (fun u b hb => hf u b (List.mem_cons_of_mem a hb)) _)

/-! What E12 reads. -/

/-- ID_MIN depends on its word and, while that is out of range, on its last good value. -/
theorem State.idMin_congr (he : t.e n 12 65 = s.e n 12 65)
    (hg : (paramSpec 12 65).any (fun p => p.inRange (s.e n 12 65)) = false →
      (t.axis n).ch.good.rd (1024 * 12 + 65) = (s.axis n).ch.good.rd (1024 * 12 + 65)) :
    t.param n 12 65 = s.param n 12 65 := by
  have hpair (u : State) : u.param n 12 65 = u.ranged n 12 65 := if_neg (by simp [State.warnPairBad])
  rw [hpair, hpair, State.ranged, State.ranged, State.lastGood, State.lastGood, he]
  cases hp : paramSpec 12 65 with
  | none => rfl
  | some p =>
    dsimp only
    cases hr : p.inRange (s.e n 12 65) with
    | true => rfl
    | false => rw [hg (by simp [hp, hr])]

/-- The i_d reference depends on its word and, while that is not good, on its last good value. -/
theorem State.idRef_congr (he : t.e n 12 17 = s.e n 12 17)
    (hg : refGood 12 17 (s.e n 12 17) = false →
      (t.axis n).ch.good.rd (1024 * 12 + 17) = (s.axis n).ch.good.rd (1024 * 12 + 17)) :
    t.refWordOf n 12 17 = s.refWordOf n 12 17 := by
  rw [State.refWordOf, State.refWordOf, he]
  cases hr : refGood 12 17 (s.e n 12 17) with
  | true => rfl
  | false => rw [hg hr]

/-! The updates. -/

theorem State.stance_of_words (hout : t.out = s.out) (hch : (t.axis n).ch.stance = (s.axis n).ch.stance)
    (hgood : (t.axis n).ch.good = (s.axis n).ch.good) (hmin : t.e n 12 65 = s.e n 12 65) (href : t.e n 12 17 = s.e n 12 17) :
    t.stance n = { s.stance n with request := t.e n 12 18, dRef := t.e n 5 0 } := by
  have hidMin : t.param n 12 65 = s.param n 12 65 := State.idMin_congr hmin fun _ => by rw [hgood]
  have hidRef : t.refWordOf n 12 17 = s.refWordOf n 12 17 := State.idRef_congr href fun _ => by rw [hgood]
  simp only [Chain.stance, Prod.mk.injEq] at hch
  obtain ⟨hst, hmode, hred, hrefuse, hhold, hpos, hsweep⟩ := hch
  simp only [State.stance, hout, hst, hmode, hred, hrefuse, hhold, hpos, hsweep, hidMin, hidRef]

theorem KeepsStance.of_words (hout : t.out = s.out) (hch : (t.axis n).ch.stance = (s.axis n).ch.stance)
    (hgood : (t.axis n).ch.good = (s.axis n).ch.good) (hw : ∀ e ∈ stanceWords, t.e n e.1 e.2 = s.e n e.1 e.2)
    (hwf : Mem.wf zeroAt s.sig = true → Mem.wf zeroAt t.sig = true) : KeepsStance n s t := by
  refine ⟨?_, hwf⟩
  have hreq : t.e n 12 18 = s.e n 12 18 := hw (12, 18) (by decide)
  have hd : t.e n 5 0 = s.e n 5 0 := hw (5, 0) (by decide)
  rw [State.stance_of_words hout hch hgood (hw (12, 65) (by decide)) (hw (12, 17) (by decide)), hreq, hd]
  rfl

theorem KeepsStance.of_eq (hout : t.out = s.out) (hch : (t.axis n).ch = (s.axis n).ch) (hsig : t.sig = s.sig) :
    KeepsStance n s t :=
  KeepsStance.of_words hout (congrArg Chain.stance hch) (congrArg Chain.good hch)
    (fun e _ => by rw [State.e, hsig, State.e]) fun w => by rwa [hsig]

theorem KeepsStance.modAx (m : AxisId) (f : Axis → Axis) (hf : ∀ a, (f a).ch = a.ch := by exact fun _ => rfl) :
    KeepsStance n s (s.modAx m f) := by
  refine KeepsStance.of_eq rfl ?_ rfl
  rw [State.axis_modAx]
  split
  · next h => rw [hf, h]
  · rfl

theorem KeepsStance.modClu (f : Clu → Clu) : KeepsStance n s (s.modClu n f) := KeepsStance.modAx n _
theorem KeepsStance.ctmWrite (off : Nat) (bs : List Byte) : KeepsStance n s (s.ctmWrite n off bs) := KeepsStance.modClu _
theorem KeepsStance.raise (src : Nat) : KeepsStance n s (s.raise src) := KeepsStance.of_eq rfl rfl rfl
theorem KeepsStance.modImg (f : Img → Img) : KeepsStance n s (s.modImg f) := KeepsStance.of_eq rfl rfl rfl
theorem KeepsStance.modHst (f : Hst → Hst) : KeepsStance n s (s.modHst f) := KeepsStance.of_eq rfl rfl rfl
theorem KeepsStance.bumpBy (k : Nat) : KeepsStance n s (s.bumpBy k) := KeepsStance.of_eq rfl rfl rfl

theorem KeepsStance.raiseCond (src : Nat) (on : Bool) : KeepsStance n s (s.raiseCond src on) := by
  obtain ⟨flt, h⟩ := s.raiseCond_frame src on
  rw [h]
  exact KeepsStance.of_eq rfl rfl rfl

theorem KeepsStance.completeIf (p : InFlight → Bool) (src : RingSrc) (tag : BitVec 16) (st : Status) (info : Word)
    (time : Option Dword) : KeepsStance n s (s.completeIf p src tag st info time) := by
  obtain ⟨h, c, hc⟩ := s.completeIf_frame p src tag st info time
  rw [hc]
  exact KeepsStance.of_eq rfl rfl rfl

/-- An update of the chain's record of the axis gives the stance its own parts of that record. -/
theorem State.modCh_stance (f : Chain → Chain) (hgood : (f (s.axis n).ch).good = (s.axis n).ch.good) :
    (s.modCh n f).stance n = { s.stance n with
      st := (f (s.axis n).ch).st, mode := (f (s.axis n).ch).mode, reduced := (f (s.axis n).ch).reduced
      refuse := (f (s.axis n).ch).refuse, hold := (f (s.axis n).ch).thisHold, posDue := (f (s.axis n).ch).posDue
      sweep := (f (s.axis n).ch).sweep } := by
  have hax : ((s.modCh n f).axis n).ch = f (s.axis n).ch := congrArg Axis.ch (s.modCh_axis n f)
  have hmin : (s.modCh n f).param n 12 65 = s.param n 12 65 :=
    State.idMin_congr (s.modCh_e n f n 12 65) fun _ => by rw [hax, hgood]
  have href : (s.modCh n f).refWordOf n 12 17 = s.refWordOf n 12 17 :=
    State.idRef_congr (s.modCh_e n f n 12 17) fun _ => by rw [hax, hgood]
  simp only [State.stance, hax, hmin, href, State.modCh_e, State.modCh_out]

theorem State.modCh_mode_stance (m : AxMode) :
    (s.modCh n fun c => { c with mode := m }).stance n = { s.stance n with mode := m } := State.modCh_stance _ rfl
theorem State.modCh_reduced_stance (red : Bool) :
    (s.modCh n fun c => { c with reduced := red }).stance n = { s.stance n with reduced := red } := State.modCh_stance _ rfl
theorem State.modCh_refuse_stance (k : BitVec 8) :
    (s.modCh n fun c => { c with refuse := k }).stance n = { s.stance n with refuse := k } := State.modCh_stance _ rfl
theorem State.modSweep_stance (f : Sweep → Sweep) :
    (s.modSweep n f).stance n = { s.stance n with sweep := (s.axis n).ch.sweep.map f } := State.modCh_stance _ rfl

theorem KeepsStance.modCh (f : Chain → Chain) (hf : ∀ c, (f c).stance = c.stance := by exact fun _ => rfl)
    (hgood : ∀ c, (f c).good = c.good := by exact fun _ => rfl) : KeepsStance n s (s.modCh n f) := by
  have hax : ((s.modCh n f).axis n).ch = f (s.axis n).ch := congrArg Axis.ch (s.modCh_axis n f)
  exact KeepsStance.of_words rfl (by rw [hax, hf]) (by rw [hax, hgood]) (fun e _ => s.modCh_e n f n e.1 e.2) id

/-- A good value is noted: that of ID_MIN or of the i_d reference only while the word itself is good. -/
theorem KeepsStance.noteGood (a : Nat) (v : Word)
    (hmin : a = 1024 * 12 + 65 → (paramSpec 12 65).any (fun p => p.inRange (s.e n 12 65)) = true)
    (href : a = 1024 * 12 + 17 → refGood 12 17 (s.e n 12 17) = true) :
    KeepsStance n s (s.modCh n fun c => { c with good := c.good.wr a v }) := by
  refine ⟨?_, id⟩
  have hax (b : Nat) (h : b ≠ a) : ((s.modCh n fun c => { c with good := c.good.wr a v }).axis n).ch.good.rd b =
      (s.axis n).ch.good.rd b := by
    rw [State.modCh_axis]
    exact Mem.get_set_other zeroAt _ a b v h
  have h1 := State.idMin_congr (s.modCh_e n (fun c => { c with good := c.good.wr a v }) n 12 65) fun h =>
    hax _ fun e => by rw [hmin e.symm] at h; exact Bool.noConfusion h
  have h2 := State.idRef_congr (s.modCh_e n (fun c => { c with good := c.good.wr a v }) n 12 17) fun h =>
    hax _ fun e => by rw [href e.symm] at h; exact Bool.noConfusion h
  simp only [State.stance, h1, h2, State.modCh_e, State.modCh_out, State.modCh_axis]

/-- A write of a word leaves the other words. -/
theorem State.e_setE_apart (s : State) (n : AxisId) (j k i l : Nat) (v : Word) (h : 1024 * j + k ≠ 1024 * i + l) :
    (s.setE n j k v).e n i l = s.e n i l :=
  s.rd_setE_other n j k v _ (by unfold sigAddr; omega)

theorem KeepsStance.setE (j k : Nat) (v : Word) (h : offStance j k = true) : KeepsStance n s (s.setE n j k v) := by
  refine KeepsStance.of_words rfl rfl rfl (fun e he => ?_) (Mem.wf_wr _ _ v)
  exact s.e_setE_apart n j k e.1 e.2 v (by simpa using List.all_eq_true.mp h e he)

theorem KeepsStance.sigWrite (j k : Nat) (v : Word) (h : offStance j k = true) : KeepsStance n s (s.sigWrite (sigAddr n j k) v) :=
  KeepsStance.setE j k v h

/-- A write of a word that E12 forms no reference from changes at most the two words of the stance themselves. -/
theorem State.setE_stance (s : State) (n : AxisId) (j k : Nat) (v : Word) (hmin : 1024 * j + k ≠ 1024 * 12 + 65)
    (href : 1024 * j + k ≠ 1024 * 12 + 17) : (s.setE n j k v).stance n =
      { s.stance n with request := (s.setE n j k v).e n 12 18, dRef := (s.setE n j k v).e n 5 0 } :=
  State.stance_of_words rfl rfl rfl (s.e_setE_apart n j k 12 65 v hmin) (s.e_setE_apart n j k 12 17 v href)

theorem State.setE_request_stance (h : Mem.wf zeroAt s.sig = true) (v : Word) :
    (s.setE n 12 18 v).stance n = { s.stance n with request := v } := by
  rw [s.setE_stance n 12 18 v (by decide) (by decide), s.e_setE_self n h, s.e_setE_apart n 12 18 5 0 v (by decide)]
  rfl

theorem State.setE_dRef_stance (h : Mem.wf zeroAt s.sig = true) (v : Word) :
    (s.setE n 5 0 v).stance n = { s.stance n with dRef := v } := by
  rw [s.setE_stance n 5 0 v (by decide) (by decide), s.e_setE_self n h, s.e_setE_apart n 5 0 12 18 v (by decide)]
  rfl

theorem KeepsStance.publish (j k : Nat) (h : offStance j k = true) : KeepsStance n s (s.publish n j k) := KeepsStance.setE j k _ h

theorem KeepsStance.setOut (j k : Nat) (v : Word) (h : offStance j k = true) : KeepsStance n s (s.setOut n j k v) :=
  (KeepsStance.setE j k v h).trans (KeepsStance.modCh _)

/-! The reads of a stage. -/

/-- The notes of the good values that a stage reads. -/
def State.noteWords (s : State) (n : AxisId) (bad : Nat × Nat → Bool) (ws : List (Nat × Nat)) : State :=
  ws.foldl (fun s e => if bad e then s else
    s.modCh n fun c => { c with good := c.good.wr (1024 * e.1 + e.2) (s.e n e.1 e.2) }) s

theorem State.readWords_eq (s : State) (n : AxisId) (ws : List (Nat × Nat)) (also : Nat → Bool) :
    s.readWords n ws also =
      let t := s.noteWords n (fun e => s.paramBad n e.1 also e.2) ws
      if ws.any (fun e => s.paramBad n e.1 also e.2) then t.raise (axisSrc n 15) else t := rfl

theorem State.noteWords_sig (s : State) (n : AxisId) (bad : Nat × Nat → Bool) (ws : List (Nat × Nat)) :
    (s.noteWords n bad ws).sig = s.sig := by
  unfold State.noteWords
  induction ws generalizing s with
  | nil => rfl
  | cons e ws ih =>
    rw [List.foldl_cons, ih]
    split <;> rfl

@[simp] theorem State.readWords_sig (s : State) (n : AxisId) (ws : List (Nat × Nat)) (also : Nat → Bool) :
    (s.readWords n ws also).sig = s.sig := by
  rw [State.readWords_eq]
  dsimp only
  split <;> exact s.noteWords_sig n _ ws

/-- Words that touch neither the i_d reference nor, but as ID_MIN, its address. -/
def readApart (ws : List (Nat × Nat)) : Bool :=
  ws.all fun e => 1024 * e.1 + e.2 != 1024 * 12 + 17 && (1024 * e.1 + e.2 != 1024 * 12 + 65 || e == (12, 65))

theorem KeepsStance.noteWords (bad : Nat × Nat → Bool) (ws : List (Nat × Nat)) (hws : readApart ws = true)
    (hbad : bad (12, 65) = false → (paramSpec 12 65).any (fun p => p.inRange (s.e n 12 65)) = true) :
    KeepsStance n s (s.noteWords n bad ws) := by
  unfold State.noteWords
  induction ws generalizing s with
  | nil => exact KeepsStance.refl s
  | cons e ws ih =>
    simp only [readApart, List.all_cons, Bool.and_eq_true, Bool.or_eq_true, bne_iff_ne, beq_iff_eq] at hws
    obtain ⟨⟨hne, hmin⟩, hws⟩ := hws
    rw [List.foldl_cons]
    cases hb : bad e with
    | true => exact ih hws hbad
    | false =>
      have hnote : KeepsStance n s (s.modCh n fun c => { c with good := c.good.wr (1024 * e.1 + e.2) (s.e n e.1 e.2) }) :=
        KeepsStance.noteGood _ _ (fun h => hbad (by rw [← hmin.resolve_left (fun k => k h), hb])) fun h => absurd h hne
      exact hnote.trans (ih hws (by rwa [State.modCh_e]))

theorem KeepsStance.readWords (ws : List (Nat × Nat)) (also : Nat → Bool) (hws : readApart ws = true) :
    KeepsStance n s (s.readWords n ws also) := by
  have hnotes : KeepsStance n s (s.noteWords n (fun e => s.paramBad n e.1 also e.2) ws) := by
    refine KeepsStance.noteWords _ ws hws fun h => ?_
    simp only [State.paramBad, Bool.or_eq_false_iff] at h
    obtain ⟨⟨hrange, -⟩, -⟩ := h
    cases hp : paramSpec 12 65 with
    | none => exact absurd hp (by decide)
    | some p => simpa [hp] using hrange
  rw [State.readWords_eq]
  exact KeepsStance.ite (hnotes.trans (KeepsStance.raise _)) hnotes

theorem KeepsStance.readParams (j : Nat) (also : Nat → Bool) : KeepsStance n s (s.readParams n j also) := by
  have hall : readApart paramList = true := by decide
  refine KeepsStance.readWords _ also (List.all_eq_true.mpr fun e he => ?_)
  exact List.all_eq_true.mp hall e (List.mem_filter.mp he).1

theorem KeepsStance.readRef (j k : Nat) (hmin : 1024 * j + k ≠ 1024 * 12 + 65)
    (href : 1024 * j + k = 1024 * 12 + 17 → (j, k) = (12, 17)) : KeepsStance n s (s.readRef n j k) := by
  unfold State.readRef
  dsimp only
  split
  · next hgood =>
    refine KeepsStance.noteGood _ _ (fun h => absurd h hmin) fun h => ?_
    obtain ⟨rfl, rfl⟩ := Prod.mk.inj (href h)
    exact hgood
  · exact KeepsStance.raise _

end Sys2Proof.Machine
end

section
/-! A speed step takes MODE_REQ: the request, the chain in force and the mode change, and nothing else of the stance (06 R166,
R167). -/

namespace Sys2Proof.Machine

variable {s t u : State} {n : AxisId}

theorem KeepsStance.settleModes : KeepsStance n s s.settleModes := by
  unfold State.settleModes
  refine KeepsStance.foldl _ _ (fun u d _ => ?_) s
  split
  · refine KeepsStance.ite (KeepsStance.refl u) ?_
    split
    · exact KeepsStance.completeIf _ _ _ _ _ _
    · exact KeepsStance.completeIf _ _ _ _ _ _
  · exact KeepsStance.refl u

theorem KeepsStance.modeAnswer (refused : Bool) : KeepsStance n s (s.modeAnswer n refused) := by
  unfold State.modeAnswer
  refine KeepsStance.ite (KeepsStance.refl s) ?_
  have hwait : KeepsStance n s (s.modCh n fun c => { c with modeWait := false }) :=
    KeepsStance.modCh _
  exact hwait.trans ((KeepsStance.ite (KeepsStance.refl _) (KeepsStance.modHst _)).trans KeepsStance.settleModes)

/-! The reduced chain. -/

/-- E7 to E11 hold nothing of the stance. -/
theorem KeepsStance.clearPublic (j : EngId) (hj : j ∈ fullOnly) : KeepsStance n s (s.clearPublic n j) := by
  have happart : ∀ i ∈ fullOnly, ∀ e ∈ stanceWords,
      1024 * e.1 + e.2 < 1024 * i.val ∨ 1024 * i.val + 1024 ≤ 1024 * e.1 + e.2 := by decide
  have hax : (s.clearPublic n j).axis n = { s.axis n with ch := { (s.axis n).ch with
      own := (s.axis n).ch.own.clear (1024 * j.val) (1024 * j.val + 1024) } } := State.modCh_axis _ n _
  refine KeepsStance.of_words rfl (by rw [hax]; rfl) (by rw [hax]) (fun e he => ?_) (Mem.wf_clear zeroAt _ _ _)
  have he := happart j hj e he
  exact Mem.get_clear_out zeroAt s.sig _ _ _ (by unfold sigAddr; omega)

theorem KeepsStance.setLoaded (on : Bool) : KeepsStance n s (s.setLoaded n on) := KeepsStance.modClu _

theorem KeepsStance.setBudgets : KeepsStance n s (s.setBudgets n) := by
  unfold State.setBudgets
  exact KeepsStance.modClu _

theorem KeepsStance.unload : KeepsStance n s (s.unload n) := by
  have hclear : KeepsStance n s (fullOnly.foldl (fun s j => s.clearPublic n j) s) :=
    KeepsStance.foldl _ _ (fun u j hj => KeepsStance.clearPublic j hj) s
  exact (hclear.trans (KeepsStance.setLoaded false)).trans (KeepsStance.modCh _)

theorem KeepsStance.loadParams (j : EngId) (hj : j ∈ fullOnly) : KeepsStance n s (s.loadParams n j.val) := by
  have hoff : ∀ i ∈ fullOnly, ∀ e ∈ paramList, e.1 = i.val → offStance i.val e.2 = true := by decide
  refine KeepsStance.foldl _ _ (fun u e he => KeepsStance.setE _ _ _ ?_) s
  obtain ⟨hmem, heng⟩ := List.mem_filter.mp he
  exact hoff j hj e hmem (of_decide_eq_true heng)

theorem KeepsStance.loadParam (j k : Nat) (v : Word) (h : offStance j k = true) : KeepsStance n s (s.loadParam n j k v) := by
  unfold State.loadParam
  exact KeepsStance.ite (KeepsStance.modImg _) (KeepsStance.sigWrite j k v h)

theorem KeepsStance.skipLoad (k : FitKind) (format cpr : Bool) : KeepsStance n s (s.skipLoad n k format cpr) := by
  unfold State.skipLoad
  exact KeepsStance.ite ((KeepsStance.modImg _).trans (KeepsStance.setOut 7 1 _ rfl)) (KeepsStance.modImg _)

theorem KeepsStance.loadRipple (p : Pattern) : KeepsStance n s (s.loadRipple n p) := by
  have hp0 (u : State) : KeepsStance n u (u.setP0 n p) := (KeepsStance.modClu _).trans (KeepsStance.setOut 7 1 _ rfl)
  exact ((KeepsStance.modClu _).trans (hp0 _)).trans (KeepsStance.setOut 7 1 _ rfl)

theorem KeepsStance.loadPattern (k : FitKind) (p : Pattern) : KeepsStance n s (s.loadPattern n k p) := by
  unfold State.loadPattern
  iterate 2 refine KeepsStance.ite (KeepsStance.refl s) ?_
  refine KeepsStance.ite (KeepsStance.skipLoad _ _ _) ?_
  cases k with
  | motorId =>
    have hoff : ∀ w ∈ [64, 65, 66, 67], offStance 3 w = true := by decide
    exact KeepsStance.foldl _ _ (fun u w hw => KeepsStance.loadParam 3 w _ (hoff w hw)) s
  | inertia => exact KeepsStance.loadParam 8 66 _ rfl
  | ripple => exact KeepsStance.ite (KeepsStance.skipLoad _ _ _) (KeepsStance.loadRipple p)
  | resonance =>
    have hoff : ∀ w ∈ notchWords, offStance 11 w = true := by decide
    exact KeepsStance.foldl _ _ (fun u w hw => KeepsStance.loadParam 11 w _ (hoff w hw)) s

theorem KeepsStance.loadPatterns (which : FitKind → Bool) : KeepsStance n s (s.loadPatterns n which) := by
  refine KeepsStance.foldl _ _ (fun u e _ => ?_) s
  split
  · exact KeepsStance.loadPattern _ _
  · exact KeepsStance.refl u

theorem KeepsStance.reload : KeepsStance n s (s.reload n) := by
  have hparams : KeepsStance n (s.unload n) (fullOnly.foldl (fun s j => s.loadParams n j.val) (s.unload n)) :=
    KeepsStance.foldl _ _ (fun u j hj => KeepsStance.loadParams j hj) _
  exact ((KeepsStance.unload.trans hparams).trans (KeepsStance.setLoaded true)).trans (KeepsStance.loadPatterns _)

theorem KeepsStance.setReduced (red : Bool) :
    KeepsStance n (s.modCh n fun c => { c with reduced := red }) (s.setReduced n red) := by
  unfold State.setReduced
  exact KeepsStance.ite (KeepsStance.unload.trans KeepsStance.setBudgets)
    (KeepsStance.ite (KeepsStance.reload.trans KeepsStance.setBudgets) (KeepsStance.refl _))

/-- A change of mode changes the mode and the chain in force. -/
theorem State.setMode_stance (m : AxMode) (red : Bool) :
    (s.setMode n m red).stance n = { s.stance n with mode := m, reduced := red } ∧
    (Mem.wf zeroAt s.sig = true → Mem.wf zeroAt (s.setMode n m red).sig = true) := by
  have hset : KeepsStance n ((s.setReduced n red).modCh n fun c => { c with mode := m }) (s.setMode n m red) := by
    unfold State.setMode
    exact KeepsStance.ite ((KeepsStance.setE 9 0 _ rfl).trans (KeepsStance.setE 9 1 _ rfl)) (KeepsStance.refl _)
  have hred : KeepsStance n _ (s.setReduced n red) := KeepsStance.setReduced red
  refine ⟨?_, fun w => hset.wf (hred.wf w)⟩
  rw [hset.stance, State.modCh_mode_stance, hred.stance, State.modCh_reduced_stance]

/-- What a speed step makes of MODE_REQ: a request is taken, and its mode entered or refused (06 R167). -/
def Stance.take (x : Stance) (c : Chain) : Stance :=
  if bit x.request 31 then
    match modeOf (bits x.request 3 0) with
    | none => { x with request := 0#32, refuse := 8#8 }
    | some m =>
      if modeAllowed c m (bit x.request 4) then { x with request := 0#32, mode := m, reduced := bit x.request 4 }
      else { x with request := 0#32, refuse := 8#8 }
  else { x with request := 0#32 }

theorem State.modeRefused_stance (s : State) (n : AxisId) :
    let t := (s.modCh n fun c => { c with refuse := 8#8 }).modeAnswer n true
    t.stance n = { s.stance n with refuse := 8#8 } ∧ (Mem.wf zeroAt s.sig = true → Mem.wf zeroAt t.sig = true) := by
  have hanswer : KeepsStance n (s.modCh n fun c => { c with refuse := 8#8 }) _ := KeepsStance.modeAnswer true
  refine ⟨?_, hanswer.wf⟩
  rw [hanswer.stance, State.modCh_refuse_stance]

theorem State.modeEntered_stance (s : State) (n : AxisId) (m : AxMode) (red : Bool) :
    let t := (s.setMode n m red).modeAnswer n false
    t.stance n = { s.stance n with mode := m, reduced := red } ∧
      (Mem.wf zeroAt s.sig = true → Mem.wf zeroAt t.sig = true) := by
  obtain ⟨hset, hsetwf⟩ := State.setMode_stance (s := s) (n := n) m red
  have hanswer : KeepsStance n (s.setMode n m red) _ := KeepsStance.modeAnswer false
  refine ⟨?_, fun w => hanswer.wf (hsetwf w)⟩
  rw [hanswer.stance, hset]

theorem State.takeMode_stance (hwf : Mem.wf zeroAt s.sig = true) :
    (s.takeMode n).1.stance n = (s.stance n).take (s.axis n).ch ∧ Mem.wf zeroAt (s.takeMode n).1.sig = true := by
  have hreq : (s.setE n 12 18 0#32).stance n = { s.stance n with request := 0#32 } := State.setE_request_stance hwf 0#32
  have hreqwf : Mem.wf zeroAt (s.setE n 12 18 0#32).sig = true := Mem.wf_wr _ _ _ hwf
  obtain ⟨hrefused, hrefusedwf⟩ := (s.setE n 12 18 0#32).modeRefused_stance n
  rw [hreq] at hrefused
  have hword : (s.stance n).request = s.e n 12 18 := rfl
  unfold State.takeMode Stance.take
  dsimp only
  rw [hword]
  cases bit (s.e n 12 18) 31 with
  | false => exact ⟨hreq, hreqwf⟩
  | true =>
    rw [if_neg (by decide), if_pos rfl]
    cases modeOf (bits (s.e n 12 18) 3 0) with
    | none => exact ⟨hrefused, hrefusedwf hreqwf⟩
    | some m =>
      dsimp only
      rw [State.setE_axis]
      cases modeAllowed (s.axis n).ch m (bit (s.e n 12 18) 4) with
      | false => exact ⟨hrefused, hrefusedwf hreqwf⟩
      | true =>
        obtain ⟨hentered, henteredwf⟩ := (s.setE n 12 18 0#32).modeEntered_stance n m (bit (s.e n 12 18) 4)
        rw [hreq] at hentered
        exact ⟨hentered, henteredwf hreqwf⟩

end Sys2Proof.Machine
end

section
/-! E8, E11 and E12 at a speed step (06 R186, R190 to R192; 07 R206 to R209): they keep the stance, but for the d-axis reference
that E12 forms and the sweep that it moves on. -/

namespace Sys2Proof.Machine

variable {s t u : State} {n : AxisId}

theorem KeepsStance.e8 (t ref : Word) (ramp bump : Bool) : KeepsStance n s (s.e8 n t ref ramp bump) := by
  unfold State.e8
  exact ((((KeepsStance.readParams 8 _).trans (KeepsStance.setE 8 1 _ rfl)).trans (KeepsStance.setOut 8 2 _ rfl)).trans
    (KeepsStance.setE 8 3 _ rfl)).trans (KeepsStance.modCh _)

theorem KeepsStance.e11Section (t : Word) (i : Nat) (x : Word) : KeepsStance n s (s.e11Section n t i x).1 := by
  unfold State.e11Section
  extract_lets k f
  split
  · exact KeepsStance.refl s
  · dsimp only
    exact (KeepsStance.bumpBy 2).trans (KeepsStance.modCh _)

theorem KeepsStance.e11 (t : Word) : KeepsStance n s (s.e11 n t) := by
  have hsections (l : List Nat) (a : State × Word) :
      KeepsStance n a.1 (l.foldl (fun (a : State × Word) i => a.1.e11Section n t i a.2) a).1 := by
    induction l generalizing a with
    | nil => exact KeepsStance.refl _
    | cons i l ih => exact (KeepsStance.e11Section t i a.2).trans (ih _)
  unfold State.e11
  exact ((KeepsStance.readParams 11 _).trans (hsections _ (_, _))).trans (KeepsStance.setE 11 0 _ rfl)

theorem KeepsStance.thermal (t : Word) : KeepsStance n s (s.thermal n t) := by
  unfold State.thermal
  extract_lets tw i2 pcu tw' trip warn fmot tj fm tmax ffet im ilim s1 s2
  have h2 : KeepsStance n s s2 := ((KeepsStance.setOut 12 3 _ rfl).trans (KeepsStance.setE 12 4 _ rfl)).trans
    ((KeepsStance.setE 12 0 _ rfl).trans (KeepsStance.modCh _))
  exact h2.trans (KeepsStance.ite (KeepsStance.raiseCond _ _) (KeepsStance.ite (KeepsStance.raiseCond _ _) (KeepsStance.refl _)))

/-! Forced gates, stops and stalls. -/

theorem KeepsStance.modGdr (f : Gdr → Gdr) : KeepsStance n s (s.modGdr n f) := by
  unfold State.modGdr
  exact KeepsStance.modAx n _

theorem KeepsStance.modSns (f : Sns → Sns) : KeepsStance n s (s.modSns n f) := by
  unfold State.modSns
  exact KeepsStance.modAx n _

theorem KeepsStance.modPwm (f : Pwm → Pwm) : KeepsStance n s (s.modPwm n f) := by
  unfold State.modPwm
  exact KeepsStance.modAx n _

theorem KeepsStance.gateFall (g : Fin 6) : KeepsStance n s (s.gateFall n g) := by
  unfold State.gateFall
  have hgate : KeepsStance n s (s.modGate n g fun x => x.fall s.cref) := KeepsStance.modGdr _
  exact (hgate.trans (KeepsStance.ite (KeepsStance.refl _) (KeepsStance.modSns _))).trans (KeepsStance.modPwm _)

theorem KeepsStance.lowDue (p : Fin 3) : KeepsStance n s (s.lowDue n p) := by
  unfold State.lowDue
  exact KeepsStance.ite (KeepsStance.refl s) ((KeepsStance.modGdr _).trans (KeepsStance.modPwm _))

theorem KeepsStance.forceGates : KeepsStance n s (s.forceGates n) := by
  unfold State.forceGates
  split
  · exact KeepsStance.refl s
  · exact KeepsStance.foldl _ _ (fun u g _ => KeepsStance.gateFall g) s
  · exact (KeepsStance.foldl _ _ (fun u g _ => KeepsStance.gateFall g) s).trans
      (KeepsStance.foldl _ _ (fun u p _ => KeepsStance.lowDue p) _)

theorem KeepsStance.stopStep (t : Word) : KeepsStance n s (s.stopStep n t) := by
  unfold State.stopStep
  extract_lets c r wm dec w w2 low short s1
  have h1 : KeepsStance n s s1 := KeepsStance.modCh _
  exact h1.trans (KeepsStance.ite KeepsStance.forceGates (KeepsStance.refl _))

theorem KeepsStance.stallRun : KeepsStance n s (s.stallRun n) := by
  unfold State.stallRun
  exact KeepsStance.ite (KeepsStance.modCh _)
    ((KeepsStance.modCh _).trans (KeepsStance.raiseCond _ _))

theorem KeepsStance.tachSeen (cp : Nat) : KeepsStance n s (s.tachSeen n cp) := by
  unfold State.tachSeen
  exact KeepsStance.ite ((KeepsStance.modCh _).trans (KeepsStance.raiseCond _ _))
    (KeepsStance.ite (KeepsStance.refl s) (KeepsStance.modCh _))

/-! The references of E12. -/

theorem State.sweepSpd_stance (s : State) (n : AxisId) (applied : Word) :
    ∃ y, (s.sweepSpd n applied).stance n = { s.stance n with sweep := y } := by
  unfold State.sweepSpd
  split
  · exact ⟨_, rfl⟩
  · dsimp only
    split
    · split
      · exact ⟨_, (KeepsStance.setE 8 0 _ rfl).stance.trans (State.modSweep_stance _)⟩
      · exact ⟨_, State.modSweep_stance _⟩
    · exact ⟨_, State.modSweep_stance _⟩
    · exact ⟨_, rfl⟩
    · exact ⟨_, rfl⟩

/-- E12 publishes its two references. -/
def State.putRefs (s : State) (n : AxisId) (id iq : Word) (lim regen : Bool) : State :=
  ((s.setE n 5 0 id).setE n 5 1 iq).modCh n fun c => { c with iqPrev := iq, limited := lim, regenLimited := regen }

theorem State.putRefs_stance (hwf : Mem.wf zeroAt s.sig = true) (id iq : Word) (lim regen : Bool) :
    (s.putRefs n id iq lim regen).stance n = { s.stance n with dRef := id } := by
  have hrest : KeepsStance n (s.setE n 5 0 id) (s.putRefs n id iq lim regen) :=
    (KeepsStance.setE 5 1 _ rfl).trans (KeepsStance.modCh _)
  rw [hrest.stance, State.setE_dRef_stance hwf]

theorem KeepsStance.checkRequests (r : Word × Word) : KeepsStance n s (s.checkRequests n r).1 := by
  unfold State.checkRequests
  have hreq (v : Vector Word 2) : KeepsStance n s (s.modCh n fun c => { c with goodReq := v }) :=
    KeepsStance.modCh _
  exact (hreq _).trans (KeepsStance.ite (KeepsStance.refl _) (KeepsStance.raise _))

theorem State.checkRequests_finite (r : Word × Word) (h : F32.isFinite r.1 = true) : (s.checkRequests n r).2.1 = r.1 :=
  if_pos h

/-- E12 reads its three references. -/
def State.readRefs (s : State) (n : AxisId) : State := ((s.readRef n 12 16).readRef n 12 17).readRef n 12 1

theorem KeepsStance.readRefs : KeepsStance n s (s.readRefs n) :=
  ((KeepsStance.readRef 12 16 (by decide) (by decide)).trans (KeepsStance.readRef 12 17 (by decide) (by decide))).trans
    (KeepsStance.readRef 12 1 (by decide) (by decide))

/-- With no sweep and outside of STARTING the d-axis reference is the i_d reference within ID_MIN and 0 (06 R191). -/
theorem State.references_follow (hwf : Mem.wf zeroAt s.sig = true) (hst : (s.axis n).ch.st ≠ .starting)
    (hsweep : s.sweepOn n = none) (hfin : F32.isFinite (s.refWordOf n 12 17) = true) :
    (s.references n).stance n = { s.stance n with dRef := clampF (s.param n 12 65) 0#32 (s.refWordOf n 12 17) } := by
  let c := (s.readRefs n).checkRequests n ((s.readRefs n).requests n)
  let r := c.1.limitRefs n c.2
  have heq : s.references n = c.1.putRefs n r.1 r.2.1 r.2.2.1 r.2.2.2 := by
    unfold State.references
    rw [if_neg hst, hsweep]
    rfl
  have hread : KeepsStance n s (s.readRefs n) := KeepsStance.readRefs
  have hcheck : KeepsStance n s c.1 := hread.trans (KeepsStance.checkRequests _)
  have href : (s.readRefs n).refWordOf n 12 17 = s.refWordOf n 12 17 := congrArg Stance.idRef hread.stance
  have hreq : c.2.1 = s.refWordOf n 12 17 := (State.checkRequests_finite _ (by rwa [← href] at hfin)).trans href
  have hmin : c.1.param n 12 65 = s.param n 12 65 := congrArg Stance.idMin hcheck.stance
  have hid : r.1 = clampF (c.1.param n 12 65) 0#32 c.2.1 := rfl
  rw [heq, State.putRefs_stance (hcheck.wf hwf), hcheck.stance, hid, hmin, hreq]

theorem State.putRefs_sweepSpd_stance (hk : KeepsStance n s u) (hwf : Mem.wf zeroAt s.sig = true) (id iq : Word)
    (lim regen : Bool) (applied : Word) : ∃ y,
    ((u.putRefs n id iq lim regen).sweepSpd n applied).stance n = { s.stance n with dRef := id, sweep := y } := by
  obtain ⟨y, hy⟩ := (u.putRefs n id iq lim regen).sweepSpd_stance n applied
  exact ⟨y, by rw [hy, State.putRefs_stance (hk.wf hwf), hk.stance]⟩

/-- In every state E12 writes no more of the stance than the d-axis reference and the sweep. -/
theorem State.references_stance (hwf : Mem.wf zeroAt s.sig = true) : ∃ d y,
    (s.references n).stance n = { s.stance n with dRef := d, sweep := y } := by
  have hcheck : KeepsStance n s ((s.readRefs n).checkRequests n ((s.readRefs n).requests n)).1 :=
    KeepsStance.readRefs.trans (KeepsStance.checkRequests _)
  unfold State.references
  split
  · exact ⟨_, _, State.putRefs_stance hwf _ _ _ _⟩
  · split
    · split
      · exact ⟨_, _, State.putRefs_stance hwf _ _ _ _⟩
      · exact ⟨_, State.putRefs_sweepSpd_stance hcheck hwf _ _ _ _ _⟩
    · exact ⟨_, _, (State.putRefs_stance (hcheck.wf hwf) _ _ _ _).trans (by rw [hcheck.stance])⟩

end Sys2Proof.Machine
end

section
/-! SPEED_STEP (06 R164, R167, R191). -/

namespace Sys2Proof.Machine

variable {s t u : State} {n : AxisId}

theorem State.stageInj_uninjected (h : Uninjected s) (js : List EngId) (go : State → State) : s.stageInj n js go = go s := by
  have hnone : ∀ kind idx, s.injected kind idx = false := h
  have hfind : js.find? (fun j => s.injected 0 (16 * n.val + j.val) || s.injected 1 (16 * n.val + j.val)) = none :=
    List.find?_eq_none.mpr fun j _ => by simp [hnone]
  rw [State.stageInj, hfind]
  dsimp only
  rw [if_neg (by simp [hnone])]

/-- The guards of a stage that is due let it run. -/
theorem StageRuns.guards (h : StageRuns s n) {due : Bool} (hd : due = true) : (!s.axOn n || !s.enginesRun ||
    (s.axis n).clu.role || (s.axis n).clu.recovering || !due || s.epochHeld) = false := by
  obtain ⟨hon, hrun, hrole, hrec, hheld, -⟩ := h
  rw [State.getElem_ax] at hrole hrec
  simp [hon, hrun, hrole, hrec, hheld, hd]

theorem StageRuns.uninjected (h : StageRuns s n) : Uninjected s := by
  obtain ⟨-, -, -, -, -, hinj⟩ := h
  exact hinj

theorem State.activate_ch (s : State) (n : AxisId) (js : List EngId) : ((s.activate n js).axis n).ch = (s.axis n).ch := by
  unfold State.activate
  rw [State.modClu_axis]

theorem KeepsStance.activate (js : List EngId) : KeepsStance n s (s.activate n js) := by
  unfold State.activate
  exact KeepsStance.modClu _

/-- A speed step that runs: E12 takes MODE_REQ, later forms its references, and the step is due no more. -/
theorem State.speedStep_runs (hr : StageRuns s n) (hd : (s.axis n).ch.spdDue = true) : ∃ js v w wm, ∃ pos : Chain → Bool,
    KeepsStance n (((s.activate n js).noteEnergy n).takeMode n).1 v ∧ KeepsStance n (v.references n) w ∧
    s.speedStep n = w.modCh n fun c =>
      { c with spdDue := false, put122 := none, lastSpd := some c.thisHold, wmPrev := wm, posDue := c.posDue || pos c } := by
  unfold State.speedStep
  rw [if_neg (Bool.eq_false_iff.mp (hr.guards hd))]
  extract_lets js
  rw [State.stageInj_uninjected hr.uninjected]
  extract_lets u t cp u1 m u2 c full ramp u3 runs8 ref u4 u5 u6 u7 u8 u9 div
  have h3 : KeepsStance n u2 u3 := KeepsStance.ite (KeepsStance.stopStep t) (KeepsStance.refl u2)
  have hread : KeepsStance n u3 (if ramp then u3 else u3.readRef n 8 0) :=
    KeepsStance.ite (KeepsStance.refl u3) (KeepsStance.readRef 8 0 (by decide) (by decide))
  have h4 : KeepsStance n u3 u4 := KeepsStance.ite (hread.trans (KeepsStance.e8 t ref ramp m.2)) (KeepsStance.refl u3)
  have h5 : KeepsStance n u4 u5 := KeepsStance.ite (KeepsStance.e11 t) (KeepsStance.refl u4)
  have h6 : KeepsStance n u5 u6 := (KeepsStance.readParams 12 _).trans (KeepsStance.thermal t)
  have h8 : KeepsStance n u7 u8 := KeepsStance.stallRun.trans (KeepsStance.tachSeen cp)
  have h9 : KeepsStance n u8 u9 := KeepsStance.ite (KeepsStance.readWords [(9, 65)] _ rfl) (KeepsStance.refl u8)
  exact ⟨js, u6, u9, u9.e n 4 3, fun c => full && c.st ≠ .starting && c.thisPc.toNat % div = 0,
    ((h3.trans h4).trans h5).trans h6, h8.trans h9, rfl⟩

theorem Stance.take_frame (x : Stance) (c : Chain) : ∃ m red k,
    x.take c = { x with request := 0#32, mode := m, reduced := red, refuse := k } := by
  unfold Stance.take
  split
  · split
    · exact ⟨_, _, _, rfl⟩
    · split <;> exact ⟨_, _, _, rfl⟩
  · exact ⟨_, _, _, rfl⟩

theorem Stance.take_none (x : Stance) (c : Chain) (h : bit x.request 31 = false) : x.take c = { x with request := 0#32 } :=
  if_neg (by simp [h])

section
variable (x : Stance) {c : Chain} {m : AxMode} (h : bit x.request 31 = true) (hm : modeOf (bits x.request 3 0) = some m)
include h hm

theorem Stance.take_accepted (hok : modeAllowed c m (bit x.request 4) = true) :
    x.take c = { x with request := 0#32, mode := m, reduced := bit x.request 4 } := by
  simp [Stance.take, h, hm, hok]

theorem Stance.take_refused (hok : modeAllowed c m (bit x.request 4) = false) :
    x.take c = { x with request := 0#32, refuse := 8#8 } := by
  simp [Stance.take, h, hm, hok]
end

/-- The sweep that excites the axis is one of its stance. -/
theorem State.sweepOn_stance (s : State) (n : AxisId) : s.sweepOn n =
    if (s.stance n).st = .run then (s.stance n).sweep.bind fun x => if x.over_ then none else some x else none := rfl

/-- A speed step leaves the stance as MODE_REQ takes it, with a new d-axis reference. -/
theorem State.speedStep_stance (hs : Stored s) (hr : StageRuns s n) (hd : (s.axis n).ch.spdDue = true) : ∃ d y pos,
    (s.speedStep n).stance n = { (s.stance n).take (s.axis n).ch with dRef := d, sweep := y, posDue := pos } ∧
    ((s.speedStep n).axis n).ch.spdDue = false ∧ ((s.speedStep n).axis n).ch.lastSpd = some (s.axis n).ch.thisHold ∧
    ((s.axis n).ch.st ≠ .starting → s.sweepOn n = none → F32.isFinite (s.refWordOf n 12 17) = true →
      d = clampF (s.param n 12 65) 0#32 (s.refWordOf n 12 17)) := by
  obtain ⟨js, v, w, wm, pos, hv, hw, hstep⟩ := State.speedStep_runs hr hd
  have hbegin : KeepsStance n s ((s.activate n js).noteEnergy n) :=
    (KeepsStance.activate js).trans (KeepsStance.of_eq rfl rfl rfl)
  have hch : (((s.activate n js).noteEnergy n).axis n).ch = (s.axis n).ch := s.activate_ch n js
  obtain ⟨htake, htakewf⟩ := State.takeMode_stance (n := n) (hbegin.wf hs.sig)
  rw [hbegin.stance, hch] at htake
  have hvwf := hv.wf htakewf
  have hvst : v.stance n = (s.stance n).take (s.axis n).ch := hv.stance.trans htake
  obtain ⟨mode, red, refuse, hframe⟩ := (s.stance n).take_frame (s.axis n).ch
  obtain ⟨d, y, href⟩ := State.references_stance (n := n) hvwf
  have hwst : w.stance n = { (s.stance n).take (s.axis n).ch with dRef := d, sweep := y } := by
    rw [hw.stance, href, hvst]
  have hhold : (w.axis n).ch.thisHold = (s.axis n).ch.thisHold := by
    have := congrArg Stance.hold hwst
    rwa [hframe] at this
  refine ⟨d, y, (w.axis n).ch.posDue || pos (w.axis n).ch, ?_, ?_, ?_, fun hst hsweep hfin => ?_⟩
  · have hend : (s.speedStep n).stance n = { w.stance n with posDue := (w.axis n).ch.posDue || pos (w.axis n).ch } := by
      rw [hstep]
      exact State.modCh_stance _ rfl
    rw [hend, hwst]
  · rw [hstep, State.modCh_axis]
  · rw [hstep, State.modCh_axis, ← hhold]
  · rw [hframe] at hvst
    have hv1 : (v.axis n).ch.st ≠ .starting := fun h => hst ((congrArg Stance.st hvst).symm.trans h)
    have hv2 : v.sweepOn n = none := by
      rw [State.sweepOn_stance, hvst]
      exact hsweep
    have hvmin : v.param n 12 65 = s.param n 12 65 := congrArg Stance.idMin hvst
    have hvref : v.refWordOf n 12 17 = s.refWordOf n 12 17 := congrArg Stance.idRef hvst
    have hfollow := State.references_follow hvwf hv1 hv2 (by rwa [hvref])
    rw [hvmin, hvref] at hfollow
    exact congrArg Stance.dRef (href.symm.trans hfollow)

theorem speedStep_answers (hs : Stored s) (hr : StageRuns s n) (hd : s.ax[n].ch.spdDue = true) :
    answers (exec (.speedStep n) s) fun t => t.ax[n].ch.spdDue = false ∧ t.ax[n].ch.lastSpd = some s.ax[n].ch.thisHold ∧
      t.e n 12 18 = 0#32 ∧
      (∀ m, bit (s.e n 12 18) 31 = true → modeOf (bits (s.e n 12 18) 3 0) = some m →
        modeAllowed s.ax[n].ch m (bit (s.e n 12 18) 4) = true →
        t.ax[n].ch.mode = m ∧ t.ax[n].ch.reduced = bit (s.e n 12 18) 4) ∧
      (∀ m, bit (s.e n 12 18) 31 = true → modeOf (bits (s.e n 12 18) 3 0) = some m →
        modeAllowed s.ax[n].ch m (bit (s.e n 12 18) 4) = false →
        t.ax[n].ch.mode = s.ax[n].ch.mode ∧ t.ax[n].ch.reduced = s.ax[n].ch.reduced ∧ t.ax[n].ch.refuse = 8#8) ∧
      (bit (s.e n 12 18) 31 = false → t.ax[n].ch.mode = s.ax[n].ch.mode ∧ t.ax[n].ch.reduced = s.ax[n].ch.reduced) ∧
      (s.ax[n].ch.st ≠ .starting → s.sweepOn n = none → F32.isFinite (s.refWordOf n 12 17) = true →
        t.e n 5 0 = clampF (s.param n 12 65) 0#32 (s.refWordOf n 12 17)) ∧
      t.ax[n].ch.st = s.ax[n].ch.st ∧ t.out = s.out := by
  obtain ⟨d, y, pos, hst, hdue, hlast, hfollow⟩ := State.speedStep_stance hs hr hd
  obtain ⟨mode, red, refuse, hframe⟩ := (s.stance n).take_frame (s.axis n).ch
  have hkept := hst
  rw [hframe] at hkept
  -- The mode, the chain in force and REFUSE after the step are those that the request leads to.
  have hmode : ((s.speedStep n).axis n).ch.mode = ((s.stance n).take (s.axis n).ch).mode := congrArg Stance.mode hst
  have hred : ((s.speedStep n).axis n).ch.reduced = ((s.stance n).take (s.axis n).ch).reduced := congrArg Stance.reduced hst
  have hrefuse : ((s.speedStep n).axis n).ch.refuse = ((s.stance n).take (s.axis n).ch).refuse := congrArg Stance.refuse hst
  simp only [State.getElem_ax]
  refine ⟨s.speedStep n, rfl, hdue, hlast, congrArg Stance.request hkept, fun m hreq hm hok => ?_, fun m hreq hm hok => ?_,
    fun hreq => ?_, fun h1 h2 h3 => (congrArg Stance.dRef hkept).trans (hfollow h1 h2 h3), congrArg Stance.st hkept,
    congrArg Stance.out hkept⟩
  all_goals rw [hmode, hred]
  · rw [(s.stance n).take_accepted hreq hm hok]
    exact ⟨rfl, rfl⟩
  · rw [hrefuse, (s.stance n).take_refused hreq hm hok]
    exact ⟨rfl, rfl, rfl⟩
  · rw [(s.stance n).take_none _ hreq]
    exact ⟨rfl, rfl⟩

end Sys2Proof.Machine
end

section
/-! E10 and E9 at a position step, and POSITION_STEP (06 R164, R187 to R189). -/

namespace Sys2Proof.Machine

variable {s t u : State} {n : AxisId}

theorem KeepsStance.segPop : KeepsStance n s (s.segPop n) := by
  unfold State.segPop
  exact ((KeepsStance.ctmWrite _ _).trans (KeepsStance.setOut 10 3 _ rfl)).trans (KeepsStance.setOut 10 1 _ rfl)

theorem KeepsStance.segBegin (t : Nat) : KeepsStance n s (s.segBegin n t) := by
  unfold State.segBegin
  exact ((KeepsStance.setOut 10 2 _ rfl).trans (KeepsStance.setOut 10 3 _ rfl)).trans (KeepsStance.modCh _)

theorem KeepsStance.setRef (l : Int) : KeepsStance n s (s.setRef n l) :=
  (KeepsStance.setE 9 0 _ rfl).trans (KeepsStance.setE 9 1 _ rfl)

theorem KeepsStance.segDiscard (fuel : Nat) : KeepsStance n s (s.segDiscard n fuel) := by
  induction fuel generalizing s with
  | zero => exact KeepsStance.refl s
  | succ fuel ih =>
    unfold State.segDiscard
    refine KeepsStance.ite (KeepsStance.refl s) ?_
    exact ((KeepsStance.segPop.trans (KeepsStance.setOut 10 3 _ rfl)).trans (KeepsStance.raise _)).trans ih

theorem KeepsStance.segTry : KeepsStance n s (s.segTry n) := by
  have hdrop : KeepsStance n s (s.segDiscard n 16) := KeepsStance.segDiscard 16
  unfold State.segTry
  refine KeepsStance.ite hdrop (hdrop.trans ?_)
  dsimp only
  split
  · exact KeepsStance.segBegin _
  · exact KeepsStance.ite (KeepsStance.segBegin _) (KeepsStance.refl _)
  · exact KeepsStance.refl _

theorem KeepsStance.segEnd : KeepsStance n s (s.segEnd n) := by
  unfold State.segEnd
  split
  · exact KeepsStance.refl s
  · next r _ =>
    refine KeepsStance.ite (KeepsStance.refl s) ?_
    extract_lets p t
    have hpop : KeepsStance n s t := KeepsStance.segPop.trans (KeepsStance.modCh _)
    exact KeepsStance.ite (hpop.trans (KeepsStance.setOut 10 3 _ rfl)) hpop

theorem KeepsStance.segHold (p : Int) : KeepsStance n s (s.segHold n p) :=
  ((KeepsStance.setRef p).trans (KeepsStance.setE 9 3 _ rfl)).trans (KeepsStance.setOut 10 0 _ rfl)

theorem KeepsStance.segShow : KeepsStance n s (s.segShow n) :=
  (((KeepsStance.publish 10 0 rfl).trans (KeepsStance.publish 10 1 rfl)).trans (KeepsStance.publish 10 2 rfl)).trans
    (KeepsStance.publish 10 3 rfl)

theorem KeepsStance.e10 : KeepsStance n s (s.e10 n) := by
  unfold State.e10
  extract_lets u running v
  have hv : KeepsStance n s v :=
    (KeepsStance.segEnd.trans (KeepsStance.ite (KeepsStance.refl u) KeepsStance.segTry)).trans KeepsStance.segShow
  refine hv.trans ?_
  split
  · split
    · exact KeepsStance.segHold _
    · exact ((KeepsStance.setRef _).trans (KeepsStance.setE 9 3 _ rfl)).trans (KeepsStance.setOut 10 0 _ rfl)
  · exact KeepsStance.refl v

theorem KeepsStance.e9 : KeepsStance n s (s.e9 n) := by
  unfold State.e9
  exact ((KeepsStance.readParams 9 _).trans (KeepsStance.setE 9 2 _ rfl)).trans (KeepsStance.setE 8 0 _ rfl)

/-- E10's outputs and no other words are written over again. -/
theorem State.segShow_words (s : State) (n : AxisId) (hwf : Mem.wf zeroAt s.sig = true) :
    (s.segShow n).e n 10 0 = s.own n 10 0 ∧ (s.segShow n).e n 10 1 = s.own n 10 1 ∧
    ∀ a, a ≠ sigAddr n 10 0 → a ≠ sigAddr n 10 1 → a ≠ sigAddr n 10 2 → a ≠ sigAddr n 10 3 →
      (s.segShow n).sig.rd a = s.sig.rd a := by
  unfold State.segShow State.publish
  refine ⟨?_, ?_, fun a h0 h1 h2 h3 => ?_⟩
  · iterate 3 rw [State.e_setE_other _ _ _ _ _ _ (by decide)]
    exact s.e_setE_self n hwf 10 0 _
  · iterate 2 rw [State.e_setE_other _ _ _ _ _ _ (by decide)]
    exact State.e_setE_self _ n (Mem.wf_wr _ _ _ hwf) 10 1 _
  · rw [State.rd_setE_other _ _ _ _ _ _ h3, State.rd_setE_other _ _ _ _ _ _ h2, State.rd_setE_other _ _ _ _ _ _ h1,
      State.rd_setE_other _ _ _ _ _ _ h0]

/-- The following error, before its clipping. -/
def State.posError (s : State) (n : AxisId) : Int :=
  ((join64 (s.e n 9 1) (s.e n 9 0)) - (join64 (s.e n 4 8) (s.e n 4 7))).toInt

theorem toInt_ofInt_clip32 (v : Int) : (BitVec.ofInt 32 (clip32 v)).toInt = clip32 v := by
  refine BitVec.toInt_ofInt_eq_self (by decide) ?_ ?_ <;> (unfold clip32; omega)

/-- E9 publishes the following error, clipped to an int32, and the speed reference, and no other word. -/
theorem State.e9_words (s : State) (n : AxisId) (hwf : Mem.wf zeroAt s.sig = true) :
    ((s.e9 n).e n 9 2).toInt = clip32 (s.posError n) ∧
    ∀ a, a ≠ sigAddr n 9 2 → a ≠ sigAddr n 8 0 → (s.e9 n).sig.rd a = s.sig.rd a := by
  have hsig : (s.readParams n 9).sig = s.sig := s.readWords_sig n _ _
  have he (j k : Nat) : (s.readParams n 9).e n j k = s.e n j k := by rw [State.e, hsig, State.e]
  unfold State.e9
  extract_lets u dl cpr kp p w mx sat
  have hdl : dl = s.posError n := by unfold dl State.posError; simp only [u, he]
  have hsat : sat = clip32 (s.posError n) := by
    rw [← hdl]
    unfold sat clip32
    split
    · omega
    · split <;> omega
  refine ⟨?_, fun a h9 h8 => ?_⟩
  · rw [State.e_setE_apart _ _ _ _ _ _ _ (by decide), State.e_setE_self _ n (by rw [hsig]; exact hwf), hsat]
    exact toInt_ofInt_clip32 _
  · rw [State.rd_setE_other _ _ _ _ _ _ h8, State.rd_setE_other _ _ _ _ _ _ h9, hsig]

/-! POSITION_STEP. -/

/-- A position step is taken: its two engines are activated, and it is due no more. -/
def State.posTaken (s : State) (n : AxisId) : State := (s.activate n [9, 10]).modCh n fun c => { c with posDue := false }

theorem State.posTaken_ch (s : State) (n : AxisId) : ((s.posTaken n).axis n).ch = { (s.axis n).ch with posDue := false } := by
  rw [State.posTaken, State.modCh_axis, State.activate_ch]

theorem State.positionStep_runs (hr : StageRuns s n) (hd : (s.axis n).ch.posDue = true) : s.positionStep n =
    if (s.axis n).ch.mode = .position && (s.axis n).ch.st ≠ .starting && !(s.axis n).ch.reduced then
      if (s.axis n).ch.st = .stopping && !(s.axis n).ch.shortBrake then (s.posTaken n).e10 n else ((s.posTaken n).e10 n).e9 n
    else s.posTaken n := by
  unfold State.positionStep
  dsimp only
  rw [if_neg (Bool.eq_false_iff.mp (hr.guards hd)), State.stageInj_uninjected hr.uninjected]
  rfl

theorem State.positionStep_posDue (hr : StageRuns s n) (hd : (s.axis n).ch.posDue = true) :
    ((s.positionStep n).axis n).ch.posDue = false := by
  have hkeeps : KeepsStance n (s.posTaken n) (s.positionStep n) := by
    rw [State.positionStep_runs hr hd]
    exact KeepsStance.ite (KeepsStance.ite KeepsStance.e10 (KeepsStance.e10.trans KeepsStance.e9)) (KeepsStance.refl _)
  have htaken : ((s.posTaken n).stance n).posDue = false := congrArg Chain.posDue (s.posTaken_ch n)
  exact (congrArg Stance.posDue hkeeps.stance).trans htaken

theorem State.positionStep_otherMode (hr : StageRuns s n) (hd : (s.axis n).ch.posDue = true)
    (hm : (s.axis n).ch.mode ≠ .position) : s.positionStep n = s.posTaken n := by
  rw [State.positionStep_runs hr hd, if_neg (by simp [hm])]

/-- Without a segment, running or queued, E10 writes its own outputs over again and nothing else. -/
theorem State.e10_idle (hseg : (s.axis n).ch.seg = none) (hdepth : s.segDepth n = 0) : s.e10 n = s.segShow n := by
  have hend : s.segEnd n = s := by
    unfold State.segEnd
    rw [hseg]
  have htry : s.segTry n = s := by
    unfold State.segTry State.segDiscard
    simp [hdepth]
  have hshow : ((s.segShow n).axis n).ch.seg = none := hseg
  simp only [State.e10, hend, hseg, htry, hshow, Bool.false_eq_true, if_false]

theorem State.positionStep_idle (hr : StageRuns s n) (hd : (s.axis n).ch.posDue = true) (hm : (s.axis n).ch.mode = .position)
    (hst : (s.axis n).ch.st = .run) (hred : (s.axis n).ch.reduced = false) (hseg : (s.axis n).ch.seg = none)
    (hdepth : s.segDepth n = 0) : s.positionStep n = ((s.posTaken n).segShow n).e9 n := by
  have hown : (s.posTaken n).segDepth n = s.segDepth n := by
    unfold State.segDepth State.own
    rw [State.posTaken_ch]
  have hidle : (s.posTaken n).e10 n = (s.posTaken n).segShow n :=
    State.e10_idle (by rw [State.posTaken_ch, hseg]) (hown.trans hdepth)
  rw [State.positionStep_runs hr hd, if_pos (by simp [hm, hst, hred]), if_neg (by simp [hst]), hidle]

theorem positionStep_answers (hs : Stored s) (hr : StageRuns s n) (hd : s.ax[n].ch.posDue = true) :
    answers (exec (.positionStep n) s) fun t => t.ax[n].ch.posDue = false ∧
      (s.ax[n].ch.mode ≠ .position → t.sig = s.sig) ∧
      (s.ax[n].ch.mode = .position → s.ax[n].ch.st = .run → s.ax[n].ch.reduced = false → s.ax[n].ch.seg = none →
        s.segDepth n = 0 →
        (t.e n 9 2).toInt = clip32 (s.posError n) ∧ t.e n 10 0 = s.own n 10 0 ∧ t.e n 10 1 = s.own n 10 1 ∧
        ∀ a, a ≠ sigAddr n 9 2 → a ≠ sigAddr n 8 0 → a ≠ sigAddr n 10 0 → a ≠ sigAddr n 10 1 →
          a ≠ sigAddr n 10 2 → a ≠ sigAddr n 10 3 → t.sig.rd a = s.sig.rd a) := by
  refine ⟨s.positionStep n, rfl, State.positionStep_posDue hr hd, fun hm => ?_, fun hm hst hred hseg hdepth => ?_⟩
  · rw [State.positionStep_otherMode hr hd hm]
    rfl
  · have hown (k : Nat) : (s.posTaken n).own n 10 k = s.own n 10 k := by
      unfold State.own
      rw [State.posTaken_ch]
    obtain ⟨h0, h1, hshow⟩ := (s.posTaken n).segShow_words n hs.sig
    obtain ⟨herr, he9⟩ := ((s.posTaken n).segShow n).e9_words n ((KeepsStance.segShow (n := n)).wf hs.sig)
    have hinput (j k : Nat) (h : 10 * 1024 + 3 < 1024 * j + k ∨ 1024 * j + k < 10 * 1024) :
        ((s.posTaken n).segShow n).e n j k = s.e n j k := by
      refine hshow _ ?_ ?_ ?_ ?_ <;> (unfold sigAddr; omega)
    have hpos : ((s.posTaken n).segShow n).posError n = s.posError n := by
      unfold State.posError
      rw [hinput 9 1 (by decide), hinput 9 0 (by decide), hinput 4 8 (by decide), hinput 4 7 (by decide)]
    rw [State.positionStep_idle hr hd hm hst hred hseg hdepth]
    refine ⟨herr.trans (congrArg clip32 hpos), ?_, ?_, fun a h92 h80 ha hb hc hd => ?_⟩
    · exact (he9 _ (by unfold sigAddr; omega) (by unfold sigAddr; omega)).trans (h0.trans (hown 0))
    · exact (he9 _ (by unfold sigAddr; omega) (by unfold sigAddr; omega)).trans (h1.trans (hown 1))
    · exact (he9 a h92 h80).trans (hshow a ha hb hc hd)

/-- Settles O23: the speed step leaves the stance as MODE_REQ takes it, with the d-axis reference that E12 forms; the position
step is E10 at rest and then E9, whose following error is clipped to an int32. -/
theorem speedAndPositionStepsFollow : Obligations.SpeedAndPositionStepsFollow := by
  refine ⟨fun s n hs hr hd => speedStep_answers hs hr hd, fun s n hs hr hd => ?_⟩
  obtain ⟨t, ht, hdue, hother, hidle⟩ := positionStep_answers hs hr hd
  refine ⟨t, ht, hdue, hother, fun hm hst hred hseg hdepth => ?_⟩
  obtain ⟨herr, h0, h1, hrest⟩ := hidle hm hst hred hseg hdepth
  refine ⟨⟨fun hlo hhi => ?_, fun hhi => ?_, fun hlo => ?_⟩, h0, h1, hrest⟩
  all_goals rw [herr]; unfold clip32 State.posError; omega

end Sys2Proof.Machine
end

section
/-! What a start or a stop is judged by: the collector of faults and the posture of the axis. Of the operations that force
gates and settle what waits for an axis at rest each has one law, that it keeps both (02 R47; 07 R205, R209). -/

namespace Sys2Proof.Machine

variable (s : State) (n : AxisId)

/-- What every element's update keeps, a run over a list keeps. -/
theorem State.foldl_keeps {α β : Type} (p : State → β) (f : State → α → State) (hf : ∀ u a, p (f u a) = p u)
    (l : List α) : p (l.foldl f s) = p s := by
  induction l generalizing s with
  | nil => rfl
  | cons a l ih => exact (ih (f s a)).trans (hf s a)

/-- What the chain's record holds of a start and of the end of a stop. -/
structure Posture where
  st : AxState
  start : StartStep
  attempt : Nat
  startAt : Nat
  startRec : List Byte
  failRaised : Bool
  shortBrake : Bool

def Chain.posture (c : Chain) : Posture :=
  { st := c.st, start := c.start, attempt := c.attempt, startAt := c.startAt, startRec := c.startRec
    failRaised := c.failRaised, shortBrake := c.shortBrake }

/-- The collector and the posture of axis n. -/
def State.footing (s : State) (n : AxisId) : Flt × Posture := (s.flt, (s.axis n).ch.posture)

theorem State.modAx_footing (m : AxisId) (f : Axis → Axis)
    (hf : ∀ a, (f a).ch.posture = a.ch.posture := by exact fun _ => rfl) : (s.modAx m f).footing n = s.footing n := by
  unfold State.footing
  rw [State.axis_modAx]
  split
  · next h => rw [h, hf]; rfl
  · rfl

theorem State.noteTorque_footing (m : AxisId) : (s.noteTorque m).footing n = s.footing n := rfl
theorem State.setE_footing (m : AxisId) (j k : Nat) (v : Word) : (s.setE m j k v).footing n = s.footing n := rfl
theorem State.setOut_footing (m : AxisId) (j k : Nat) (v : Word) : (s.setOut m j k v).footing n = s.footing n :=
  (s.setE m j k v).modAx_footing n m _

/-! Forcing gates. -/

theorem State.gateFall_footing (m : AxisId) (g : Fin 6) : (s.gateFall m g).footing n = s.footing n := by
  unfold State.gateFall
  refine (State.modAx_footing _ n m _).trans ?_
  split
  · exact s.modAx_footing n m _
  · exact (State.modAx_footing _ n m _).trans (s.modAx_footing n m _)

theorem State.lowDue_footing (m : AxisId) (p : Fin 3) : (s.lowDue m p).footing n = s.footing n := by
  unfold State.lowDue
  dsimp only
  split
  · rfl
  · exact (State.modAx_footing _ n m _).trans (s.modAx_footing n m _)

theorem State.forceGates_footing (m : AxisId) : (s.forceGates m).footing n = s.footing n := by
  have hfall (l : List (Fin 6)) : (l.foldl (fun u g => u.gateFall m g) s).footing n = s.footing n :=
    s.foldl_keeps (·.footing n) _ (fun u g => u.gateFall_footing n m g) l
  unfold State.forceGates
  split
  · rfl
  · exact hfall _
  · exact (State.foldl_keeps _ (·.footing n) _ (fun u p => u.lowDue_footing n m p) _).trans (hfall _)

@[simp] theorem State.forceGates_flt (m : AxisId) : (s.forceGates m).flt = s.flt :=
  congrArg Prod.fst (s.forceGates_footing m m)

/-! What waits for an axis at rest. -/

theorem State.completeIf_footing (p : InFlight → Bool) (src : RingSrc) (tag : BitVec 16) (st : Status) (info : Word)
    (time : Option Dword) : (s.completeIf p src tag st info time).footing n = s.footing n := by
  obtain ⟨h, c, e⟩ := State.completeIf_frame (s := s) p src tag st info time
  rw [e]
  rfl

theorem State.takeWaiting_footing (m : AxisId) : (s.takeWaiting m).footing n = s.footing n := by
  unfold State.takeWaiting
  dsimp only
  split
  · rfl
  · exact State.foldl_keeps _ (·.footing n) (fun u (e : Nat × Word) => u.sigWrite e.1 e.2) (fun _ _ => rfl) _

theorem State.settleRuns_footing : s.settleRuns.footing n = s.footing n := by
  refine s.foldl_keeps (·.footing n) _ (fun u d => ?_) _
  dsimp only
  split
  · split
    · rfl
    · split <;> exact u.completeIf_footing n _ _ _ _ _ _
  · rfl

theorem State.settleFits_footing : s.settleFits.footing n = s.footing n := by
  refine s.foldl_keeps (·.footing n) _ (fun u f => ?_) _
  dsimp only
  split
  · rfl
  · next st why _ =>
    have hmodes := u.foldl_keeps (·.footing n) (fun (v : State) (e : AxisId × AxMode) =>
      if v.atRest e.1 then v.modCh e.1 fun c => { c with mode := e.2 } else v) (fun v e => by
        split
        · exact v.modAx_footing n e.1 _
        · rfl) f.prevMode
    split
    · exact (State.completeIf_footing _ n _ _ _ _ _ _).trans hmodes
    · exact hmodes

/-! An axis goes to its safe state: no step of a start is left, and the collector stays. -/

@[simp] theorem State.segFlush_flt : (s.segFlush n).flt = s.flt := by
  unfold State.segFlush State.setOut
  rw [State.modCh_flt, State.modCh_flt, State.setE_flt]
  exact s.foldl_keeps State.flt (fun u i => u.ctmWrite n (u.segOff n i) (List.replicate 40 0)) (fun _ _ => rfl) _

@[simp] theorem State.beginStop_flt : (s.beginStop n).flt = s.flt := by
  unfold State.beginStop
  split
  · rfl
  · dsimp only
    rw [State.forceGates_flt]
    split
    · rfl
    · exact State.segFlush_flt _ n

@[simp] theorem State.uncharge_flt : (s.uncharge n).flt = s.flt := by
  unfold State.uncharge
  split <;> rfl

@[simp] theorem State.endFittings_flt (st : Status) (why : BitVec 8) : (s.endFittings n st why).flt = s.flt := by
  refine State.foldl_keeps _ State.flt _ (fun u m => ?_) _
  dsimp only
  split <;> simp

theorem State.sendSafe_footing (st : AxState) (why : Status) : ∃ startAt startRec, (s.sendSafe n st why).footing n =
    (s.flt, { st := st, start := .none, attempt := 0, startAt := startAt, startRec := startRec
              failRaised := false, shortBrake := false }) := by
  unfold State.sendSafe
  extract_lets old s1 s2 e40 s3 s4
  have h2 : s2.flt = s.flt := by
    have h1 : s1.flt = s.flt := s.endFittings_flt n why 0#8
    unfold s2
    split
    · exact h1
    · exact h1
  clear_value s2
  have h3 : s3.footing n = (s.flt, ((s2.axis n).ch.toSafe st s2.cref e40).posture) := by
    unfold s3 State.footing
    rw [State.modCh_axis, State.modCh_flt, h2]
  have h4 : s4.footing n = s3.footing n := (State.takeWaiting_footing _ n n).trans (s3.modAx_footing n n _)
  have hsettled : (((s4.forceGates n).noteTorque n).settleRuns).settleFits.footing n = s4.footing n :=
    ((State.settleFits_footing _ n).trans (State.settleRuns_footing _ n)).trans (s4.forceGates_footing n n)
  exact ⟨_, _, (hsettled.trans h4).trans h3⟩

end Sys2Proof.Machine
end

section
/-! The steps of a start and the end of a stop (07 R202, R205, R209, R215). -/

namespace Sys2Proof.Machine

variable {s : State} {n : AxisId}

/-! A command that acts only where its condition holds. -/

theorem answers_if {i : Instr} {due : Bool} {u : State} {p : State → Prop}
    (hi : exec i s = .next (if due then u else s)) (hdue : due = true) (hp : p u) : answers (exec i s) p :=
  ⟨u, hi.trans (congrArg Host.Outcome.next (if_pos hdue)), hp⟩

theorem exec_of_not_due {i : Instr} {due : Bool} {u : State} (hi : exec i s = .next (if due then u else s))
    (hdue : due = false) : exec i s = .next s :=
  hi.trans (congrArg Host.Outcome.next (if_neg (Bool.eq_false_iff.mp hdue)))

/-! The end of alignment. -/

theorem State.alignEnd_early (h : (s.axis n).ch.sinceStart s.cref 8 = false) : s.alignEnd n = s := by
  simp [State.alignEnd, h]

/-- ψ_s of the seed, α: the flux linkage of the attempt current along the commanded angle (07 R204). -/
def State.alignPsi (s : State) (n : AxisId) : Word :=
  F32.fmul (F32.fadd (s.param n 3 67) (F32.fmul (s.param n 3 65) (s.attemptI n))) (s.cosT 0 (s.axis n).ch.thetaF)

theorem State.alignEnd_seeds (hst : (s.axis n).ch.st = .starting) (hstart : (s.axis n).ch.start = .align)
    (h : (s.axis n).ch.sinceStart s.cref 8 = true) :
    (s.alignEnd n).sig = (s.setE n 3 0 (s.axis n).ch.thetaF).sig ∧ (s.alignEnd n).flt = s.flt ∧
    ((s.alignEnd n).axis n).ch.start = .ramp ∧ ((s.alignEnd n).axis n).ch.travel = some 0#32 ∧
    ((s.alignEnd n).axis n).ch.psi[0] = s.alignPsi n := by
  have hgo : ((s.axis n).ch.st ≠ .starting || (s.axis n).ch.start ≠ .align || !(s.axis n).ch.sinceStart s.cref 8) = false := by
    simp [hst, hstart, h]
  unfold State.alignEnd
  dsimp only
  rw [if_neg (Bool.eq_false_iff.mp hgo)]
  refine ⟨rfl, rfl, ?_⟩
  rw [State.modCh_axis]
  exact ⟨rfl, rfl, by simp [State.alignPsi]⟩

theorem alignmentEnd_answers (hst : s.ax[n].ch.st = .starting) (hstart : s.ax[n].ch.start = .align)
    (h : s.ax[n].ch.sinceStart s.cref 8 = true) :
    answers (exec (.alignmentEnd n) s) fun t => t.ax[n].ch.start = .ramp ∧ t.ax[n].ch.travel = some 0#32 ∧
      t.ax[n].ch.psi[0] = s.alignPsi n ∧
      (Mem.wf zeroAt s.sig = true →
        t.e n 3 0 = s.ax[n].ch.thetaF ∧ ∀ a, a ≠ sigAddr n 3 0 → t.sig.rd a = s.sig.rd a) ∧ t.flt = s.flt := by
  obtain ⟨hsig, hflt, hramp, htravel, hpsi⟩ := State.alignEnd_seeds hst hstart h
  refine ⟨s.alignEnd n, rfl, hramp, htravel, hpsi, fun hwf => ⟨?_, fun a ha => ?_⟩, hflt⟩
  · rw [State.e, hsig]
    exact s.e_setE_self n hwf 3 0 _
  · rw [hsig]
    exact s.rd_setE_other n 3 0 _ a ha

/-! An attempt that a current step has found to fail. -/

theorem State.attemptFail_unjudged (h : (s.axis n).ch.failDue = false) : s.attemptFail n = s := by
  simp [State.attemptFail, h]

/-- The attempt gives way to RETRY_WAIT, from now on; `raised` says whether START_FAIL has been raised in this start. -/
def State.waitRetry (s : State) (n : AxisId) (raised : Bool) : State :=
  (s.modCh n fun c => { c with start := .wait, startAt := s.cref, failRaised := raised, failDue := false }).forceGates n

theorem State.waitRetry_footing (raised : Bool) : (s.waitRetry n raised).footing n =
    (s.flt, { (s.axis n).ch.posture with start := .wait, startAt := s.cref, failRaised := raised }) := by
  rw [State.waitRetry, State.forceGates_footing, State.footing, State.modCh_axis]
  rfl

section
variable (hst : (s.axis n).ch.st = .starting) (hstart : (s.axis n).ch.start = .align ∨ (s.axis n).ch.start = .ramp)
  (hfail : (s.axis n).ch.failDue = true)
include hst hstart hfail

theorem State.attemptFail_judged : s.attemptFail n =
    if triesOf (s.axis n).ch.startRec ≤ (s.axis n).ch.attempt then
      if (s.axis n).ch.mode = .fan then
        (if (s.axis n).ch.failRaised then s else s.raise (axisSrc n 9)).waitRetry n true
      else (s.raise (axisSrc n 9)).sendSafe n .hold
    else s.waitRetry n (s.axis n).ch.failRaised := by
  have hgo : ((s.axis n).ch.st ≠ .starting || !((s.axis n).ch.start = .align || (s.axis n).ch.start = .ramp) ||
      !(s.axis n).ch.failDue) = false := by
    rcases hstart with h | h <;> simp [hst, h, hfail]
  unfold State.attemptFail
  dsimp only
  rw [if_neg (Bool.eq_false_iff.mp hgo)]
  rfl

theorem startAttemptFail_answers_retry (htries : (s.axis n).ch.attempt < triesOf (s.axis n).ch.startRec) :
    answers (exec (.startAttemptFail n) s) fun t => t.ax[n].ch.start = .wait ∧ t.ax[n].ch.st = .starting ∧
      t.ax[n].ch.startAt = s.cref ∧ t.ax[n].ch.attempt = s.ax[n].ch.attempt ∧ t.flt = s.flt := by
  refine ⟨s.attemptFail n, rfl, ?_⟩
  rw [State.attemptFail_judged hst hstart hfail, if_neg (Nat.not_le.mpr htries)]
  have h := State.waitRetry_footing (s := s) (n := n) (s.axis n).ch.failRaised
  exact ⟨congrArg (·.2.start) h, (congrArg (·.2.st) h).trans hst, congrArg (·.2.startAt) h, congrArg (·.2.attempt) h,
    congrArg Prod.fst h⟩

theorem startAttemptFail_answers_last (htries : triesOf (s.axis n).ch.startRec ≤ (s.axis n).ch.attempt)
    (hmode : (s.axis n).ch.mode ≠ .fan) :
    answers (exec (.startAttemptFail n) s) fun t => t.ax[n].ch.st = .hold ∧ axisSrc n 9 ∈ t.flt.raised := by
  refine ⟨s.attemptFail n, rfl, ?_⟩
  rw [State.attemptFail_judged hst hstart hfail, if_pos htries, if_neg hmode]
  obtain ⟨_, _, h⟩ := (s.raise (axisSrc n 9)).sendSafe_footing n .hold .faulted
  generalize (s.raise (axisSrc n 9)).sendSafe n .hold = t at h ⊢
  have hraised : t.flt.raised = s.flt.raised ++ [axisSrc n 9] := congrArg (·.1.raised) h
  refine ⟨congrArg (·.2.st) h, ?_⟩
  rw [hraised]
  exact List.mem_append_right _ List.mem_cons_self

theorem startAttemptFail_answers_fan (htries : triesOf (s.axis n).ch.startRec ≤ (s.axis n).ch.attempt)
    (hmode : (s.axis n).ch.mode = .fan) :
    answers (exec (.startAttemptFail n) s) fun t => t.ax[n].ch.st = .starting ∧ t.ax[n].ch.start = .wait ∧
      t.ax[n].ch.failRaised = true ∧
      t.flt.raised = s.flt.raised ++ (if (s.axis n).ch.failRaised then [] else [axisSrc n 9]) := by
  refine ⟨s.attemptFail n, rfl, ?_⟩
  rw [State.attemptFail_judged hst hstart hfail, if_pos htries, if_pos hmode]
  have hwait (u : State) (hch : (u.axis n).ch = (s.axis n).ch) : (u.waitRetry n true).ax[n].ch.st = .starting ∧
      (u.waitRetry n true).ax[n].ch.start = .wait ∧ (u.waitRetry n true).ax[n].ch.failRaised = true ∧
      (u.waitRetry n true).flt.raised = u.flt.raised := by
    have h := State.waitRetry_footing (s := u) (n := n) true
    rw [hch] at h
    exact ⟨(congrArg (·.2.st) h).trans hst, congrArg (·.2.start) h, congrArg (·.2.failRaised) h, congrArg (·.1.raised) h⟩
  by_cases hraised : (s.axis n).ch.failRaised = true
  · obtain ⟨h1, h2, h3, h4⟩ := hwait s rfl
    simp only [if_pos hraised]
    exact ⟨h1, h2, h3, h4.trans (List.append_nil _).symm⟩
  · simp only [if_neg hraised]
    exact hwait (s.raise (axisSrc n 9)) rfl
end

/-! The end of RETRY_WAIT. -/

/-- An attempt begins with the start record as CTM holds it, at alignment or, without one, at the ramp. -/
theorem State.beginAttempt_posture (s : State) (n : AxisId) (a : Nat) : ((s.beginAttempt n a).axis n).ch.posture =
    { (s.axis n).ch.posture with
      st := .starting, attempt := a, startAt := s.cref, startRec := s.startRecord n
      start := if alignOf (s.startRecord n) = 0 then .ramp else .align } := by
  unfold State.beginAttempt
  extract_lets r al c th s1
  have hout : (((s1.setOut n 4 0 th).setE n 4 2 th).noteTorque n).footing n = s1.footing n :=
    ((State.noteTorque_footing _ n n).trans (State.setE_footing _ n n 4 2 th)).trans (s1.setOut_footing n n 4 0 th)
  refine (congrArg Prod.snd hout).trans ?_
  unfold s1 State.footing
  rw [State.modCh_axis]
  rfl

theorem retryWaitEnd_answers (hst : s.ax[n].ch.st = .starting) (hstart : s.ax[n].ch.start = .wait)
    (hbrake : s.ax[n].ch.hardBrake = false) (h : s.ax[n].ch.sinceStart s.cref 40 = true)
    (htries : s.ax[n].ch.attempt < triesOf s.ax[n].ch.startRec) :
    answers (exec (.retryWaitEnd n) s) fun t => t.ax[n].ch.st = .starting ∧ t.ax[n].ch.attempt = s.ax[n].ch.attempt + 1 ∧
      t.ax[n].ch.startRec = s.startRecord n ∧ (t.ax[n].ch.start = .align ∨ t.ax[n].ch.start = .ramp) := by
  rw [State.getElem_ax] at *
  have hgo : ((s.axis n).ch.st ≠ .starting || (s.axis n).ch.start ≠ .wait || (s.axis n).ch.hardBrake ||
      !(s.axis n).ch.sinceStart s.cref 40) = false := by
    simp [hst, hstart, hbrake, h]
  have hnext : Nat.min ((s.axis n).ch.attempt + 1) (Nat.max 1 (triesOf (s.axis n).ch.startRec)) = (s.axis n).ch.attempt + 1 :=
    Nat.min_eq_left (Nat.le_trans htries (Nat.le_max_right _ _))
  have hretry : s.retryEnd n = s.beginAttempt n ((s.axis n).ch.attempt + 1) := by
    unfold State.retryEnd
    dsimp only
    rw [if_neg (Bool.eq_false_iff.mp hgo), hnext]
  have h := s.beginAttempt_posture n ((s.axis n).ch.attempt + 1)
  refine ⟨_, congrArg Host.Outcome.next hretry, congrArg Posture.st h, congrArg Posture.attempt h,
    congrArg Posture.startRec h, ?_⟩
  rw [State.getElem_ax, show (_ : Chain).start = _ from congrArg Posture.start h]
  split
  · exact .inr rfl
  · exact .inl rfl

/-! The end of a stop. -/

theorem stopEnd_answers (h : s.stopDone n = true) :
    answers (exec (.stopEnd n) s) fun t => t.ax[n].ch.st = .hold ∧ t.ax[n].ch.shortBrake = false := by
  obtain ⟨_, _, hsafe⟩ := s.sendSafe_footing n .hold .faulted
  refine answers_if rfl h ?_
  generalize s.sendSafe n .hold = t at hsafe ⊢
  exact ⟨congrArg (·.2.st) hsafe, congrArg (·.2.shortBrake) hsafe⟩

end Sys2Proof.Machine
end

section
/-! The conditions that the chain watches, each raised at its onset (06 R179, R180; 07 R206, R216), and what a start, a stop and
these conditions bring. -/

namespace Sys2Proof.Machine

variable {s : State} {n : AxisId}

/-- At its onset a condition source goes after those on their way, and no axis changes. -/
theorem State.raiseCond_onset {src : Nat} (h : s.flt.met.getLsbD src = false) :
    (s.raiseCond src true).flt.raised = s.flt.raised ++ [src] ∧ (s.raiseCond src true).ax = s.ax := by
  rw [State.raiseCond, if_pos rfl, if_neg (Bool.eq_false_iff.mp h)]
  exact ⟨rfl, rfl⟩

/-- A WORD source that is late becomes invalid, and its timeout's condition begins. -/
theorem State.wordJudge_late (h : s.wordLate n = true) :
    s.wordJudge n = (s.modCh n fun c => { c with wordValid := false }).raiseCond (axisSrc n 7) true := by
  simp only [State.wordLate, Bool.and_eq_true, Bool.not_eq_true'] at h
  obtain ⟨⟨_, hvalid⟩, hfresh⟩ := h
  simp [State.wordJudge, hvalid, hfresh]

theorem wordSourceTimeout_answers (h : s.wordLate n = true) (hmet : s.flt.met.getLsbD (axisSrc n 7) = false) :
    answers (exec (.wordSourceTimeout n) s) fun t =>
      t.flt.raised = s.flt.raised ++ [axisSrc n 7] ∧ t.ax[n].ch.wordValid = false := by
  obtain ⟨hraised, hax⟩ := State.raiseCond_onset (s := s.modCh n fun c => { c with wordValid := false }) hmet
  refine answers_if rfl h ?_
  rw [State.wordJudge_late h]
  refine ⟨hraised, ?_⟩
  rw [hax, State.getElem_ax, State.modCh_axis]

/-- Settles O24: the three steps of a start on the posture that forced gates and settled descriptors leave, a stop by the
entry into its safe state, and each watched condition by the onset of its source. -/
theorem startStopAndChainEventsComplete : Obligations.StartStopAndChainEventsComplete := by
  intro s n
  refine ⟨alignmentEnd_answers, fun h => congrArg Host.Outcome.next (State.alignEnd_early h), startAttemptFail_answers_retry,
    startAttemptFail_answers_last, startAttemptFail_answers_fan,
    fun h => congrArg Host.Outcome.next (State.attemptFail_unjudged h), retryWaitEnd_answers,
    fun h hmet => answers_if rfl h (State.raiseCond_onset hmet), exec_of_not_due rfl, stopEnd_answers, exec_of_not_due rfl,
    fun hw hp hmet => answers_if rfl (Bool.and_eq_true_iff.mpr ⟨hw, hp⟩) (State.raiseCond_onset hmet),
    fun h hmet => answers_if rfl h (State.raiseCond_onset hmet), exec_of_not_due rfl, wordSourceTimeout_answers,
    exec_of_not_due rfl⟩

end Sys2Proof.Machine
end

section
/-! The regen governor: its tick, its mask and the end of a hard short brake (07 R211 to R214, R218). -/

namespace Sys2Proof.Machine

variable (s : State)

/-! Fields of a word after a masked write. -/

theorem bits_congr {v w : Word} {hi lo : Nat} (h : ∀ i, lo ≤ i → i ≤ hi → v.getLsbD i = w.getLsbD i) :
    bits v hi lo = bits w hi lo := by
  have hfield (x : Word) : bits x hi lo = (x.extractLsb' lo (hi + 1 - lo)).toNat := by
    rw [BitVec.extractLsb'_toNat, Nat.shiftRight_eq_div_pow, bits]
  rw [hfield, hfield]
  congr 1
  refine BitVec.eq_of_getLsbD_eq fun i hi => ?_
  rw [BitVec.getLsbD_extractLsb', BitVec.getLsbD_extractLsb', h (lo + i) (by omega) (by omega)]

theorem maskWrite_getLsbD (old v mask : Word) (i : Nat) :
    (maskWrite old v mask).getLsbD i = if mask.getLsbD i then v.getLsbD i else old.getLsbD i := by
  by_cases hi : i < 32
  · simp only [maskWrite, BitVec.getLsbD_or, BitVec.getLsbD_and, BitVec.getLsbD_not, hi, decide_true]
    cases mask.getLsbD i <;> simp
  · simp [BitVec.getLsbD_of_ge _ i (Nat.le_of_not_lt hi)]

/-- A field within the mask is written. -/
theorem bits_maskWrite_in {old v mask : Word} {hi lo : Nat} (h : ∀ i ≤ hi, lo ≤ i → mask.getLsbD i = true) :
    bits (maskWrite old v mask) hi lo = bits v hi lo :=
  bits_congr fun i hlo hhi => by rw [maskWrite_getLsbD, if_pos (h i hhi hlo)]

/-- A field outside the mask stays. -/
theorem bits_maskWrite_out {old v mask : Word} {hi lo : Nat} (h : ∀ i ≤ hi, lo ≤ i → mask.getLsbD i = false) :
    bits (maskWrite old v mask) hi lo = bits old hi lo :=
  bits_congr fun i hlo hhi => by rw [maskWrite_getLsbD, h i hhi hlo]; rfl

/-- The tick takes VIN_SOFT as written, and leaves VIN_HARD. -/
theorem Gov.take_soft (g : Gov) : bits g.take.lvlNow 11 0 = bits g.lvl 11 0 := bits_maskWrite_in (by decide)
theorem Gov.take_hard (g : Gov) : bits g.take.lvlNow 27 16 = bits g.lvlNow 27 16 := bits_maskWrite_out (by decide)

/-! The tick. -/

theorem State.govTick_early (h : s.cref < s.gov.tickAt + s.gov.period) : s.govTick = s := by
  simp [State.govTick, h]

/-- The signal words m read as those of s, but for E12.1, the share, of any axis. -/
def State.butShares (s : State) (m : Mem 32) : Prop := ∀ a, (∀ n : AxisId, a ≠ sigAddr n 12 1) → m.rd a = s.sig.rd a

/-- Shares that are written to axes change no other word. -/
theorem State.writeShares_frame (v : AxisId → Word) (l : List AxisId) :
    ∃ m, l.foldl (fun t n => t.setE n 12 1 (v n)) s = { s with sig := m } ∧ s.butShares m := by
  induction l generalizing s with
  | nil => exact ⟨s.sig, rfl, fun _ _ => rfl⟩
  | cons n l ih =>
    obtain ⟨m, hm, hrest⟩ := ih (s.setE n 12 1 (v n))
    exact ⟨m, hm, fun a ha => (hrest a ha).trans (s.rd_setE_other n 12 1 (v n) a (ha n))⟩

/-- The tick takes the registers as written. -/
def State.govTaken (s : State) : State :=
  s.modGov fun g => { g.take with tickAt := s.cref, maskAt := s.cref, stale := false }

/-- The tick has judged whether the loop is active; its mask is `mask`, and no share is written yet. -/
def State.govJudged (s : State) (mask : Dword) : State :=
  s.govTaken.modGov fun g => { g with active := s.govTaken.govActive.1, low := s.govTaken.govActive.2, mask := mask }

theorem State.govShares_frame : ∃ m, s.govShares = { s with sig := m } ∧ s.butShares m := by
  unfold State.govShares
  exact s.writeShares_frame _ _

theorem State.govTick_runs (hr : s.sup = .ready) (h : s.gov.tickAt + s.gov.period ≤ s.cref) :
    ∃ mask sig, s.govTick = { s.govJudged mask with sig := sig } ∧ (s.gov.hard = true → mask = s.gov.mask) ∧
    (s.govTaken.govActive.1 = false → s.gov.active = false → sig = s.sig) ∧ s.butShares sig := by
  have hgo : (!decide (s.sup = .ready) || decide (s.cref < s.gov.tickAt + s.gov.period)) = false := by
    simp [hr, h]
  unfold State.govTick
  rw [if_neg (Bool.eq_false_iff.mp hgo)]
  extract_lets s1 was a s2 m s3
  have hmask : ∃ mask, s3 = s.govJudged mask ∧ (s.gov.hard = true → mask = s.gov.mask) := by
    unfold s3
    split
    · exact ⟨s.gov.mask, rfl, fun _ => rfl⟩
    · next hh => exact ⟨m, rfl, fun h => absurd h hh⟩
  obtain ⟨mask, hs3, hhard⟩ := hmask
  clear_value s3
  subst hs3
  refine ⟨mask, ?_⟩
  by_cases hact : a.1 = true
  · rw [if_pos hact]
    obtain ⟨sig, hsig, hrest⟩ := (s.govJudged mask).govShares_frame
    exact ⟨sig, hsig, hhard, fun hoff => absurd hact (Bool.eq_false_iff.mp hoff), hrest⟩
  · rw [if_neg hact]
    split
    · next hwas =>
      obtain ⟨sig, hsig, hrest⟩ := (s.govJudged mask).writeShares_frame (fun _ => noShare) _
      exact ⟨sig, hsig, hhard, fun _ hoff => absurd hwas (Bool.eq_false_iff.mp hoff), hrest⟩
    · exact ⟨s.sig, rfl, hhard, fun _ _ => rfl, fun _ _ => rfl⟩

theorem State.govActive_off (h : bit s.gov.ctrlNow 0 = false) : s.govActive.1 = false := by
  simp [State.govActive, h]

theorem State.govActive_idle (h : bit s.gov.ctrlNow 0 = true) (hoff : s.gov.active = false) :
    s.govActive.1 = decide (bits s.gov.lvlNow 11 0 ≤ s.govV) := by
  simp [State.govActive, h, hoff]

theorem govTick_answers (hr : s.sup = .ready) (h : s.gov.tickAt + s.gov.period ≤ s.cref) :
    answers (exec .govTick s) fun t =>
      t.gov.ctrlNow = s.gov.ctrl ∧ t.gov.cfgNow = s.gov.cfg ∧ t.gov.brkNow = s.gov.brk ∧ t.gov.tickAt = s.cref ∧
      bits t.gov.lvlNow 11 0 = bits s.gov.lvl 11 0 ∧ bits t.gov.lvlNow 27 16 = bits s.gov.lvlNow 27 16 ∧
      (s.gov.hard = true → t.gov.mask = s.gov.mask) ∧ t.gov.stale = false ∧ t.gov.maskAt = s.cref ∧
      (bit s.gov.ctrl 0 = false → t.gov.active = false) ∧
      (bit s.gov.ctrl 0 = false → s.gov.active = false → t.sig = s.sig) ∧
      (bit s.gov.ctrl 0 = true → s.gov.active = false → t.gov.active = decide (bits s.gov.lvl 11 0 ≤ s.govV)) ∧
      (∀ a, (∀ n : AxisId, a ≠ sigAddr n 12 1) → Mem.wf zeroAt s.sig = true → t.sig.rd a = s.sig.rd a) ∧
      t.ax = s.ax ∧ t.bank = s.bank := by
  obtain ⟨mask, sig, htick, hmask, hidle, hrest⟩ := s.govTick_runs hr h
  have hstart (hon : bit s.gov.ctrl 0 = true) (hoff : s.gov.active = false) :
      s.govTaken.govActive.1 = decide (bits s.gov.lvl 11 0 ≤ s.govV) :=
    (s.govTaken.govActive_idle hon hoff).trans (by rw [← s.gov.take_soft]; rfl)
  exact ⟨_, congrArg Host.Outcome.next htick, rfl, rfl, rfl, rfl, s.gov.take_soft, s.gov.take_hard, hmask, rfl, rfl,
    s.govTaken.govActive_off, fun hctrl => hidle (s.govTaken.govActive_off hctrl), hstart, fun a ha _ => hrest a ha, rfl, rfl⟩

/-! The end of a hard short brake. -/

/-- An axis that brakes is released at its next zero. -/
def State.releaseBrake (s : State) (n : AxisId) : State :=
  if (s.axis n).ch.hardBrake then s.modCh n fun c => { c with hardRelease := true } else s

theorem State.releaseBrake_gov (n : AxisId) : (s.releaseBrake n).gov = s.gov := by
  unfold State.releaseBrake
  split <;> rfl

theorem State.releaseBrakes_gov (l : List AxisId) : (l.foldl State.releaseBrake s).gov = s.gov :=
  s.foldl_keeps State.gov _ (fun u m => u.releaseBrake_gov m) l

/-- An axis is released from its own turn on, and brakes all the same. -/
theorem State.releaseBrake_axis (m n : AxisId) (h : (s.axis n).ch.hardBrake = true) :
    ((s.releaseBrake m).axis n).ch.hardBrake = true ∧
    (n = m ∨ (s.axis n).ch.hardRelease = true → ((s.releaseBrake m).axis n).ch.hardRelease = true) := by
  unfold State.releaseBrake
  by_cases hn : n = m
  · subst hn
    rw [if_pos h, State.modCh_axis]
    exact ⟨h, fun _ => rfl⟩
  · have hax : ((if (s.axis m).ch.hardBrake then s.modCh m fun c => { c with hardRelease := true } else s).axis n) = s.axis n := by
      split
      · exact s.axis_modAx_other m n _ hn
      · rfl
    rw [hax]
    exact ⟨h, fun hor => hor.resolve_left hn⟩

theorem State.releaseBrakes_axis (l : List AxisId) (n : AxisId) (h : (s.axis n).ch.hardBrake = true)
    (hl : n ∈ l ∨ (s.axis n).ch.hardRelease = true) : ((l.foldl State.releaseBrake s).axis n).ch.hardRelease = true := by
  induction l generalizing s with
  | nil => exact hl.resolve_left List.not_mem_nil
  | cons m l ih =>
    obtain ⟨hbrake, hrelease⟩ := s.releaseBrake_axis m n h
    refine ih (s.releaseBrake m) hbrake ?_
    rcases hl with hmem | hr
    · exact (List.mem_cons.mp hmem).symm.imp_right fun hn => hrelease (.inl hn)
    · exact .inr (hrelease (.inr hr))

section
variable {s}

theorem hardBrakeEnd_early (h : s.cref < s.gov.hardAt + s.gov.tHard) : exec .hardBrakeEnd s = .next s :=
  congrArg Host.Outcome.next (if_pos (by simp [h]))

variable (hh : s.gov.hard = true) (h : s.gov.hardAt + s.gov.tHard ≤ s.cref)
include hh h

theorem hardBrakeEnd_due : exec .hardBrakeEnd s = .next (
    if s.govV + 4 * bits s.gov.cfgNow 23 16 < bits s.gov.lvlNow 27 16
    then allAxes.foldl State.releaseBrake (s.modGov fun g => { g with hard := false })
    else s.modGov fun g => { g with hardAt := g.hardAt + g.tHard }) := by
  have hgo : (!s.gov.hard || decide (s.cref < s.gov.hardAt + s.gov.tHard)) = false := by
    simp [hh, h]
  refine congrArg Host.Outcome.next ((if_neg (Bool.eq_false_iff.mp hgo)).trans ?_)
  simp only [decide_eq_true_eq]
  rfl

theorem hardBrakeEnd_answers (hlow : s.govV + 4 * bits s.gov.cfgNow 23 16 < bits s.gov.lvlNow 27 16) :
    answers (exec .hardBrakeEnd s) fun t => t.gov.hard = false ∧
      ∀ n : AxisId, s.ax[n].ch.hardBrake = true → t.ax[n].ch.hardRelease = true := by
  refine ⟨_, (hardBrakeEnd_due hh h).trans (congrArg Host.Outcome.next (if_pos hlow)), ?_, fun n hn => ?_⟩
  · rw [State.releaseBrakes_gov]
    rfl
  · rw [State.getElem_ax]
    exact State.releaseBrakes_axis _ allAxes n hn (.inl (List.mem_finRange n))
end

/-- Settles O25: the tick by what it writes, the governor's record and the shares alone; the stale mark by its time; the end of a
hard short brake by the release of each axis that brakes. -/
theorem governorTicksComplete : Obligations.GovernorTicksComplete := by
  intro s
  exact ⟨govTick_answers s, fun h => congrArg Host.Outcome.next (s.govTick_early h),
    fun h => congrArg Host.Outcome.next (if_pos h), fun h => congrArg Host.Outcome.next (if_neg (Nat.not_le.mpr h)),
    hardBrakeEnd_answers,
    fun hh h hhigh => (hardBrakeEnd_due hh h).trans (congrArg Host.Outcome.next (if_neg (Nat.not_lt.mpr hhigh))),
    hardBrakeEnd_early⟩

end Sys2Proof.Machine
end
